-- ==== Sys2Proof/Word.lean ====
section
/-!
DEFINITION. The word types of the Apnyx block and the numbers that name its units.
-/
namespace Sys2Proof

/-- A byte (00, "Multi-byte values in memory are little-endian"). -/
abbrev Byte := BitVec 8
/-- A 16-bit word. -/
abbrev W16 := BitVec 16
/-- A 32-bit word. -/
abbrev W32 := BitVec 32
/-- A 64-bit word, the width of a Tehus general register (R58). -/
abbrev W64 := BitVec 64

/-- A physical quire, PQ00 to PQ33 (00, unit naming forms). -/
abbrev QuireId := Fin 34
/-- A Tehus general register number (R58). -/
abbrev GReg := Fin 64
/-- A Tehus floating-point register number (R58). -/
abbrev FReg := Fin 32
/-- A Tehus vector register number (R99). -/
abbrev VReg := Fin 32
/-- A Tehus mask register number (R100). -/
abbrev MReg := Fin 8
/-- A tile register number (R130). -/
abbrev TReg := Fin 16
/-- A Tehus-S engine: stitcher Sf.e is 16f + e (0 to 63), headbands are 64 and 65. -/
abbrev EngineId := Fin 66
/-- A Lorotte port, L0 to L23. -/
abbrev PortId := Fin 24
/-- A context identifier (R290). -/
abbrev CtxId := BitVec 12

end Sys2Proof
end

