-- ==== Sys2Proof/Syntax.lean ====
section
/-!
DEFINITION. The commands of the Apnyx block. An instruction of a Tehus or Tehus-S engine is a command
that names the engine and carries the instruction's decoded fields (log entry 1); an event or a
register write is a command that names its unit and carries its data.
-/
namespace Sys2Proof

/-- A 12-bit immediate or offset, or the 32-bit one of an IMM32 long form (R63). -/
inductive Imm where
  | short (i : BitVec 12)
  | long (i : BitVec 32)
  deriving DecidableEq, Repr

/-- The offset of JAL: 18 bits (format JP), or 32 in the long form (R62, R63). -/
inductive JOff where
  | short (i : BitVec 18)
  | long (i : BitVec 32)
  deriving DecidableEq, Repr

/-- The rounding field of an EXT long form (R63); `none` is the short form, which uses DYN. -/
abbrev Ext := Option (BitVec 3)

/-- Who makes a register-window access: the SOURCE codes of R8, with the headband and the debug
network kept apart (R251, R548). -/
inductive Source where
  | host | quire | stitcher | headband | debug
  deriving DecidableEq, Repr

/-- What a register write brings of its writer beside its kind: the number of a quire, and the tag of a host write, under
which one that is not naturally aligned is answered (R375). -/
structure Writer where
  quire : QuireId
  tag : BitVec 10
  deriving DecidableEq, Repr

/-- The destination of a plough instruction (R201): DK and the fields it uses. -/
inductive PlDst where
  | tile (td : TReg)
  | vec (vd : VReg)
  | mem (base stride : GReg)
  deriving DecidableEq, Repr

/-- What failed during a tip-in (R260). -/
inductive TipFail where
  | source | spare | headband
  deriving DecidableEq, Repr

/-- A capability message (R420); its reserved payload bytes are 0. -/
structure CapMsg where
  status : Byte
  hint : Byte
  nidw : Byte
  vermin : W16
  vermax : W16
  node : BitVec 18
  port : BitVec 5
  linkgen : W32
  nextseq : W16
  lanes : Byte
  /-- dedicated credits, VC v in bits [8v+7:8v] -/
  ded : BitVec 64
  shared : W16
  feat : W64
  deriving DecidableEq, Repr

/-- What a boot finds (R451, R459, R523): capacities in units of 256 MiB that the devices' mode registers hold;
units whose calibration verifies, and units whose training fails; CXL links that are up; quires and stitchers
that fail their self-test; headbands whose firmware fails in both slots. -/
structure BootEnv where
  hbmCap : BitVec 12
  lpdCap : BitVec 12
  calHbm : Byte
  calLpd : W16
  badHbm : Byte
  badLpd : W16
  cxlUp : BitVec 4
  badQuire : BitVec 34
  badEng : BitVec 64
  badHb : BitVec 2
  deriving DecidableEq, Repr

/-- Why a cold reset happens (R521, R522). -/
inductive RstCause where
  | por | aonFail | brownout
  deriving DecidableEq, Repr

/-- A supply that fails (R500, R519, R520): an external rail, the always-on supply, or a domain's switched
supply. -/
inductive Rail where
  | core | press | sram | folio | txb | vpp | io | vinAon | vddAon | ldo
  | domain (d : Fin 86)
  deriving DecidableEq, Repr

/-- The commands of the block: one constructor per row of the table of operations and events. -/
inductive Instr where
  /-- ADD (R81): Tehus OP function that writes a + b modulo 2^64 to g[rd]. -/
  | add (q : QuireId) (rd rs1 rs2 : GReg)
  /-- SUB (R81): Tehus OP function that writes a − b modulo 2^64. -/
  | sub (q : QuireId) (rd rs1 rs2 : GReg)
  /-- AND (R81): Tehus OP function that writes the bitwise AND of a and b. -/
  | and (q : QuireId) (rd rs1 rs2 : GReg)
  /-- OR (R81): Tehus OP function that writes the bitwise OR of a and b. -/
  | or (q : QuireId) (rd rs1 rs2 : GReg)
  /-- XOR (R81): Tehus OP function that writes the bitwise exclusive-or of a and b. -/
  | xor (q : QuireId) (rd rs1 rs2 : GReg)
  /-- ANDN (R81): Tehus OP function that writes a AND NOT b. -/
  | andn (q : QuireId) (rd rs1 rs2 : GReg)
  /-- SLL (R81): Tehus logical left shift of a by b[5:0]. -/
  | sll (q : QuireId) (rd rs1 rs2 : GReg)
  /-- SRL (R81): Tehus logical right shift of a by b[5:0]. -/
  | srl (q : QuireId) (rd rs1 rs2 : GReg)
  /-- SRA (R81): Tehus arithmetic right shift of a by b[5:0]. -/
  | sra (q : QuireId) (rd rs1 rs2 : GReg)
  /-- ROR (R81): Tehus rotate right of a by b[5:0]. -/
  | ror (q : QuireId) (rd rs1 rs2 : GReg)
  /-- SLT (R81): Tehus signed less-than comparison that writes 0 or 1. -/
  | slt (q : QuireId) (rd rs1 rs2 : GReg)
  /-- SLTU (R81): Tehus unsigned less-than comparison that writes 0 or 1. -/
  | sltu (q : QuireId) (rd rs1 rs2 : GReg)
  /-- MIN (R81): Tehus signed minimum of a and b. -/
  | min (q : QuireId) (rd rs1 rs2 : GReg)
  /-- MAX (R81): Tehus signed maximum of a and b. -/
  | max (q : QuireId) (rd rs1 rs2 : GReg)
  /-- MINU (R81): Tehus unsigned minimum of a and b. -/
  | minu (q : QuireId) (rd rs1 rs2 : GReg)
  /-- MAXU (R81): Tehus unsigned maximum of a and b. -/
  | maxu (q : QuireId) (rd rs1 rs2 : GReg)
  /-- ADDW (R81): Tehus 32-bit add, sign-extended to 64 bits. -/
  | addw (q : QuireId) (rd rs1 rs2 : GReg)
  /-- SUBW (R81): Tehus 32-bit subtract, sign-extended to 64 bits. -/
  | subw (q : QuireId) (rd rs1 rs2 : GReg)
  /-- SLLW (R81): Tehus 32-bit left shift, sign-extended to 64 bits. -/
  | sllw (q : QuireId) (rd rs1 rs2 : GReg)
  /-- SRLW (R81): Tehus 32-bit logical right shift, sign-extended to 64 bits. -/
  | srlw (q : QuireId) (rd rs1 rs2 : GReg)
  /-- SRAW (R81): Tehus 32-bit arithmetic right shift, sign-extended to 64 bits. -/
  | sraw (q : QuireId) (rd rs1 rs2 : GReg)
  /-- ADDO (R82): Tehus checked signed add, which traps or sets IOV on overflow. -/
  | addo (q : QuireId) (rd rs1 rs2 : GReg)
  /-- SUBO (R82): Tehus checked signed subtract. -/
  | subo (q : QuireId) (rd rs1 rs2 : GReg)
  /-- NEGO (R82): Tehus checked signed negate. -/
  | nego (q : QuireId) (rd rs1 : GReg)
  /-- ADDWO (R82): Tehus checked signed 32-bit add, sign-extended. -/
  | addwo (q : QuireId) (rd rs1 rs2 : GReg)
  /-- CLZ (R81): Tehus count of leading zero bits. -/
  | clz (q : QuireId) (rd rs1 : GReg)
  /-- CTZ (R81): Tehus count of trailing zero bits. -/
  | ctz (q : QuireId) (rd rs1 : GReg)
  /-- POPC (R81): Tehus population count. -/
  | popc (q : QuireId) (rd rs1 : GReg)
  /-- BREV (R81): Tehus 64-bit bit reversal. -/
  | brev (q : QuireId) (rd rs1 : GReg)
  /-- BSWAP (R81): Tehus 64-bit byte reversal. -/
  | bswap (q : QuireId) (rd rs1 : GReg)
  /-- ADDI (R83): Tehus add of a sign-extended immediate. -/
  | addi (q : QuireId) (rd rs1 : GReg) (imm : Imm)
  /-- ANDI (R83): Tehus bitwise AND with an immediate. -/
  | andi (q : QuireId) (rd rs1 : GReg) (imm : Imm)
  /-- ORI (R83): Tehus bitwise OR with an immediate. -/
  | ori (q : QuireId) (rd rs1 : GReg) (imm : Imm)
  /-- XORI (R83): Tehus bitwise exclusive-or with an immediate. -/
  | xori (q : QuireId) (rd rs1 : GReg) (imm : Imm)
  /-- SLTI (R83): Tehus signed comparison with an immediate. -/
  | slti (q : QuireId) (rd rs1 : GReg) (imm : Imm)
  /-- SLTIU (R83): Tehus unsigned comparison with an immediate. -/
  | sltiu (q : QuireId) (rd rs1 : GReg) (imm : Imm)
  /-- SLLI (R83): SHI sub-function 0: left shift by an immediate count. -/
  | slli (q : QuireId) (rd rs1 : GReg) (sh : BitVec 6)
  /-- SRLI (R83): SHI sub-function 1: logical right shift by an immediate count. -/
  | srli (q : QuireId) (rd rs1 : GReg) (sh : BitVec 6)
  /-- SRAI (R83): SHI sub-function 2: arithmetic right shift by an immediate count. -/
  | srai (q : QuireId) (rd rs1 : GReg) (sh : BitVec 6)
  /-- RORI (R83): SHI sub-function 3: rotate right by an immediate count. -/
  | rori (q : QuireId) (rd rs1 : GReg) (sh : BitVec 6)
  /-- LI (R83): Loads a sign-extended immediate into g[rd]. -/
  | li (q : QuireId) (rd : GReg) (imm : Imm)
  /-- LIH (R83): Writes IMM32 into the upper half of g[rd] and keeps the lower half. -/
  | lih (q : QuireId) (rd : GReg) (imm : BitVec 32)
  /-- MUL (R84): Tehus low 64 bits of a product. -/
  | mul (q : QuireId) (rd rs1 rs2 : GReg)
  /-- MULH (R84): Tehus high 64 bits of a signed product. -/
  | mulh (q : QuireId) (rd rs1 rs2 : GReg)
  /-- MULHU (R84): Tehus high 64 bits of an unsigned product. -/
  | mulhu (q : QuireId) (rd rs1 rs2 : GReg)
  /-- MULHSU (R84): Tehus high 64 bits of a signed-by-unsigned product. -/
  | mulhsu (q : QuireId) (rd rs1 rs2 : GReg)
  /-- MULO (R84): Tehus checked signed multiply. -/
  | mulo (q : QuireId) (rd rs1 rs2 : GReg)
  /-- MULW (R84): Tehus 32-bit multiply, sign-extended. -/
  | mulw (q : QuireId) (rd rs1 rs2 : GReg)
  /-- DIV (R84): Tehus signed division with the R35 rules for zero and overflow. -/
  | div (q : QuireId) (rd rs1 rs2 : GReg)
  /-- DIVU (R84): Tehus unsigned division. -/
  | divu (q : QuireId) (rd rs1 rs2 : GReg)
  /-- REM (R84): Tehus signed remainder. -/
  | rem (q : QuireId) (rd rs1 rs2 : GReg)
  /-- REMU (R84): Tehus unsigned remainder. -/
  | remu (q : QuireId) (rd rs1 rs2 : GReg)
  /-- DIVW (R84): Tehus 32-bit signed division. -/
  | divw (q : QuireId) (rd rs1 rs2 : GReg)
  /-- DIVUW (R84): Tehus 32-bit unsigned division. -/
  | divuw (q : QuireId) (rd rs1 rs2 : GReg)
  /-- REMW (R84): Tehus 32-bit signed remainder. -/
  | remw (q : QuireId) (rd rs1 rs2 : GReg)
  /-- REMUW (R84): Tehus 32-bit unsigned remainder. -/
  | remuw (q : QuireId) (rd rs1 rs2 : GReg)
  /-- LB (R85): Loads a byte and sign-extends it. -/
  | lb (q : QuireId) (rd rs1 : GReg) (imm : Imm)
  /-- LBU (R85): Loads a byte and zero-extends it. -/
  | lbu (q : QuireId) (rd rs1 : GReg) (imm : Imm)
  /-- LH (R85): Loads a halfword and sign-extends it. -/
  | lh (q : QuireId) (rd rs1 : GReg) (imm : Imm)
  /-- LHU (R85): Loads a halfword and zero-extends it. -/
  | lhu (q : QuireId) (rd rs1 : GReg) (imm : Imm)
  /-- LW (R85): Loads a word and sign-extends it. -/
  | lw (q : QuireId) (rd rs1 : GReg) (imm : Imm)
  /-- LWU (R85): Loads a word and zero-extends it. -/
  | lwu (q : QuireId) (rd rs1 : GReg) (imm : Imm)
  /-- LD (R85): Loads a doubleword into g[rd]. -/
  | ld (q : QuireId) (rd rs1 : GReg) (imm : Imm)
  /-- FLW (R85): Loads 32 bits into an FP register. -/
  | flw (q : QuireId) (fd : FReg) (rs1 : GReg) (imm : Imm)
  /-- FLD (R85): Loads 64 bits into an FP register. -/
  | fld (q : QuireId) (fd : FReg) (rs1 : GReg) (imm : Imm)
  /-- SB (R85): Stores a byte. -/
  | sb (q : QuireId) (rs2 rs1 : GReg) (imm : Imm)
  /-- SH (R85): Stores a halfword. -/
  | sh (q : QuireId) (rs2 rs1 : GReg) (imm : Imm)
  /-- SW (R85): Stores a word. -/
  | sw (q : QuireId) (rs2 rs1 : GReg) (imm : Imm)
  /-- SD (R85): Stores a doubleword. -/
  | sd (q : QuireId) (rs2 rs1 : GReg) (imm : Imm)
  /-- FSW (R85): Stores 32 bits from an FP register. -/
  | fsw (q : QuireId) (fs2 : FReg) (rs1 : GReg) (imm : Imm)
  /-- FSD (R85): Stores 64 bits from an FP register. -/
  | fsd (q : QuireId) (fs2 : FReg) (rs1 : GReg) (imm : Imm)
  /-- SWAP (R87): Atomic swap; it executes near or far under R285. -/
  | swap (q : QuireId) (rd rs1 rs2 : GReg) (dbl : Bool)
  /-- AADD (R87): Atomic wrapping add. -/
  | aadd (q : QuireId) (rd rs1 rs2 : GReg) (dbl : Bool)
  /-- AAND (R87): Atomic AND. -/
  | aand (q : QuireId) (rd rs1 rs2 : GReg) (dbl : Bool)
  /-- AOR (R87): Atomic OR. -/
  | aor (q : QuireId) (rd rs1 rs2 : GReg) (dbl : Bool)
  /-- AXOR (R87): Atomic exclusive-or. -/
  | axor (q : QuireId) (rd rs1 rs2 : GReg) (dbl : Bool)
  /-- AMIN (R87): Atomic signed minimum. -/
  | amin (q : QuireId) (rd rs1 rs2 : GReg) (dbl : Bool)
  /-- AMAX (R87): Atomic signed maximum. -/
  | amax (q : QuireId) (rd rs1 rs2 : GReg) (dbl : Bool)
  /-- AMINU (R87): Atomic unsigned minimum. -/
  | aminu (q : QuireId) (rd rs1 rs2 : GReg) (dbl : Bool)
  /-- AMAXU (R87): Atomic unsigned maximum. -/
  | amaxu (q : QuireId) (rd rs1 rs2 : GReg) (dbl : Bool)
  /-- CAS (R87): Atomic compare-and-swap against g[rd]. -/
  | cas (q : QuireId) (rd rs1 rs2 : GReg) (dbl : Bool)
  /-- ATOMIC_FADD (R87): Atomic floating-point add, rounded RNE with subnormals flushed. -/
  | atomicFadd (q : QuireId) (rd rs1 rs2 : GReg) (dbl : Bool)
  /-- FAR_ATOMIC_EXECUTE (R286): A queued far atomic executes at its far-atomic unit once it reaches the head of the queue. -/
  | farAtomicExecute (unit : BitVec 16)
  /-- ATOMIC_RESULT (R570): An atomic's old value returns to the issuing quire's g[rd]. -/
  | atomicResult (q : QuireId)
  /-- BEQ (R89): Branch if equal. -/
  | beq (q : QuireId) (rs1 rs2 : GReg) (off : Imm)
  /-- BNE (R89): Branch if not equal. -/
  | bne (q : QuireId) (rs1 rs2 : GReg) (off : Imm)
  /-- BLT (R89): Branch if signed less-than. -/
  | blt (q : QuireId) (rs1 rs2 : GReg) (off : Imm)
  /-- BGE (R89): Branch if signed greater-or-equal. -/
  | bge (q : QuireId) (rs1 rs2 : GReg) (off : Imm)
  /-- BLTU (R89): Branch if unsigned less-than. -/
  | bltu (q : QuireId) (rs1 rs2 : GReg) (off : Imm)
  /-- BGEU (R89): Branch if unsigned greater-or-equal. -/
  | bgeu (q : QuireId) (rs1 rs2 : GReg) (off : Imm)
  /-- JAL (R89): Jump relative and link. -/
  | jal (q : QuireId) (rd : GReg) (off : JOff)
  /-- JALR (R89): Jump to a register plus an offset, and link. -/
  | jalr (q : QuireId) (rd rs1 : GReg) (imm : Imm)
  /-- FENCE_D (R288): Orders every earlier data access before every later one. -/
  | fenceD (q : QuireId)
  /-- FENCE_S (R288): As FENCE.D, and waits for stores to complete, making a pending store error precise. -/
  | fenceS (q : QuireId)
  /-- FENCE_T (R288): Orders earlier PRESSCLK-engine work and its stores before later accesses. -/
  | fenceT (q : QuireId)
  /-- SYSCALL (R94): Raises SYSTEM_CALL. -/
  | syscall (q : QuireId)
  /-- BREAK (R94): Raises BREAKPOINT. -/
  | brk (q : QuireId)
  /-- ERET (R244): Returns from an exception or an escalation. -/
  | eret (q : QuireId)
  /-- CSYNC (R94): Completes deferred control-register writes and refetches. -/
  | csync (q : QuireId)
  /-- WAIT (R94): Suspends the Tehus core until an interrupt is pending. -/
  | wait (q : QuireId)
  /-- HALT (R249): Stops the quire and notifies the headband. -/
  | halt (q : QuireId)
  /-- CINV (R273): Invalidate-all of L1I, L1D or L2, selected by rs2. -/
  | cinv (q : QuireId) (sel : BitVec 6)
  /-- CINV_L2_COMPLETE (R273): The clean and invalidation of an L2 finish, and accesses held behind them proceed. -/
  | cinvL2Complete (q : QuireId)
  /-- CRW (R70): Control-register swap, checked under R69. -/
  | crw (q : QuireId) (rd : GReg) (cr : BitVec 12) (rs1 : GReg)
  /-- CRS (R70): Control-register read and set bits. -/
  | crs (q : QuireId) (rd : GReg) (cr : BitVec 12) (rs1 : GReg)
  /-- CRC (R70): Control-register read and clear bits. -/
  | crc (q : QuireId) (rd : GReg) (cr : BitVec 12) (rs1 : GReg)
  /-- FADD (R90): FP.D or FP.S addition. -/
  | fadd (q : QuireId) (dbl : Bool) (fd fs1 fs2 : FReg) (rm : Ext)
  /-- FSUB (R90): FP subtraction. -/
  | fsub (q : QuireId) (dbl : Bool) (fd fs1 fs2 : FReg) (rm : Ext)
  /-- FMUL (R90): FP multiplication. -/
  | fmul (q : QuireId) (dbl : Bool) (fd fs1 fs2 : FReg) (rm : Ext)
  /-- FDIV (R90): FP division. -/
  | fdiv (q : QuireId) (dbl : Bool) (fd fs1 fs2 : FReg) (rm : Ext)
  /-- FSQRT (R90): FP square root. -/
  | fsqrt (q : QuireId) (dbl : Bool) (fd fs1 : FReg) (rm : Ext)
  /-- FMIN (R90): FP minimumNumber. -/
  | fmin (q : QuireId) (dbl : Bool) (fd fs1 fs2 : FReg) (rm : Ext)
  /-- FMAX (R90): FP maximumNumber. -/
  | fmax (q : QuireId) (dbl : Bool) (fd fs1 fs2 : FReg) (rm : Ext)
  /-- FSGN (R90): Magnitude of a with the sign of b. -/
  | fsgn (q : QuireId) (dbl : Bool) (fd fs1 fs2 : FReg) (rm : Ext)
  /-- FSGNN (R90): Magnitude of a with the inverted sign of b. -/
  | fsgnn (q : QuireId) (dbl : Bool) (fd fs1 fs2 : FReg) (rm : Ext)
  /-- FSGNX (R90): Magnitude of a with the xor of the two signs. -/
  | fsgnx (q : QuireId) (dbl : Bool) (fd fs1 fs2 : FReg) (rm : Ext)
  /-- FEQ (R90): FP equality comparison into g[rd]. -/
  | feq (q : QuireId) (dbl : Bool) (rd : GReg) (fs1 fs2 : FReg) (rm : Ext)
  /-- FLT (R90): FP less-than comparison into g[rd]. -/
  | flt (q : QuireId) (dbl : Bool) (rd : GReg) (fs1 fs2 : FReg) (rm : Ext)
  /-- FLE (R90): FP less-or-equal comparison into g[rd]. -/
  | fle (q : QuireId) (dbl : Bool) (rd : GReg) (fs1 fs2 : FReg) (rm : Ext)
  /-- FCLASS (R90): Writes the class mask of an FP value. -/
  | fclass (q : QuireId) (dbl : Bool) (rd : GReg) (fs1 : FReg) (rm : Ext)
  /-- FMV_G (R90): Copies FP register bits into a general register. -/
  | fmvG (q : QuireId) (dbl : Bool) (rd : GReg) (fs1 : FReg) (rm : Ext)
  /-- FMV_F (R90): Copies general register bits into an FP register. -/
  | fmvF (q : QuireId) (dbl : Bool) (fd : FReg) (rs1 : GReg) (rm : Ext)
  /-- FCVT (R91): Converts between integer and FP types. -/
  | fcvt (q : QuireId) (dst src : BitVec 3) (rd rs1 : BitVec 6) (rm : Ext)
  /-- FMADD (R92): Fused (a × b) + c. -/
  | fmadd (q : QuireId) (dbl : Bool) (fd fs1 fs2 fs3 : FReg) (rm : Ext)
  /-- FMSUB (R92): Fused (a × b) − c. -/
  | fmsub (q : QuireId) (dbl : Bool) (fd fs1 fs2 fs3 : FReg) (rm : Ext)
  /-- FNMADD (R92): Fused −(a × b) − c. -/
  | fnmadd (q : QuireId) (dbl : Bool) (fd fs1 fs2 fs3 : FReg) (rm : Ext)
  /-- FNMSUB (R92): Fused −(a × b) + c. -/
  | fnmsub (q : QuireId) (dbl : Bool) (fd fs1 fs2 fs3 : FReg) (rm : Ext)
  /-- INTERRUPT_ENTRY (R236): At an instruction boundary a pending interrupt or asynchronous STORE_ERROR above ML is taken. -/
  | interruptEntry (q : QuireId)
  /-- TIMER (R241): The TIMER interrupt becomes pending when GTIME reaches TCMP.COMPARE with EN set. -/
  | timer (q : QuireId)
  /-- STORE_ERROR_LATCH (R247): A late bus error on a buffered store is latched as a pending STORE_ERROR. -/
  | storeErrorLatch (q : QuireId) (timeout : Bool)
  /-- RESPONSE_TIMEOUT (R265): The spine's 2 µs timeout ends an access that received no response. -/
  | responseTimeout (q : QuireId)
  /-- L1D_LINE_FILL (R269): A whole 64-byte line arrives in L1D and releases the loads waiting on it. -/
  | l1dLineFill (q : QuireId) (addr : W64)
  /-- L2_WRITEBACK_ACK (R271): A memory controller acknowledges a write-back, and the eviction-buffer entry frees. -/
  | l2WritebackAck (q : QuireId) (addr : W64)
  /-- VFADD (R112): Element-wise vector FP add (.VV or .VF). -/
  | vfadd (q : QuireId) (m scalar : Bool) (vd vs1 : VReg) (rs2 : Fin 32) (rm : Ext)
  /-- VFSUB (R112): Vector FP subtract. -/
  | vfsub (q : QuireId) (m scalar : Bool) (vd vs1 : VReg) (rs2 : Fin 32) (rm : Ext)
  /-- VFMUL (R112): Vector FP multiply. -/
  | vfmul (q : QuireId) (m scalar : Bool) (vd vs1 : VReg) (rs2 : Fin 32) (rm : Ext)
  /-- VFDIV (R112): Vector FP divide. -/
  | vfdiv (q : QuireId) (m scalar : Bool) (vd vs1 : VReg) (rs2 : Fin 32) (rm : Ext)
  /-- VFSQRT (R112): Vector FP square root. -/
  | vfsqrt (q : QuireId) (m : Bool) (vd vs1 : VReg) (rm : Ext)
  /-- VFMIN (R112): Vector FP minimumNumber. -/
  | vfmin (q : QuireId) (m scalar : Bool) (vd vs1 : VReg) (rs2 : Fin 32) (rm : Ext)
  /-- VFMAX (R112): Vector FP maximumNumber. -/
  | vfmax (q : QuireId) (m scalar : Bool) (vd vs1 : VReg) (rs2 : Fin 32) (rm : Ext)
  /-- VFSGN (R112): Vector sign injection. -/
  | vfsgn (q : QuireId) (m scalar : Bool) (vd vs1 : VReg) (rs2 : Fin 32) (rm : Ext)
  /-- VFSGNN (R112): Vector inverted sign injection. -/
  | vfsgnn (q : QuireId) (m scalar : Bool) (vd vs1 : VReg) (rs2 : Fin 32) (rm : Ext)
  /-- VFSGNX (R112): Vector xor sign injection. -/
  | vfsgnx (q : QuireId) (m scalar : Bool) (vd vs1 : VReg) (rs2 : Fin 32) (rm : Ext)
  /-- VFMADD (R112): Vector fused (a × b) + vd. -/
  | vfmadd (q : QuireId) (m scalar : Bool) (vd vs1 : VReg) (rs2 : Fin 32) (rm : Ext)
  /-- VFMSUB (R112): Vector fused (a × b) − vd. -/
  | vfmsub (q : QuireId) (m scalar : Bool) (vd vs1 : VReg) (rs2 : Fin 32) (rm : Ext)
  /-- VFNMADD (R112): Vector fused −(a × b) − vd. -/
  | vfnmadd (q : QuireId) (m scalar : Bool) (vd vs1 : VReg) (rs2 : Fin 32) (rm : Ext)
  /-- VFNMSUB (R112): Vector fused −(a × b) + vd. -/
  | vfnmsub (q : QuireId) (m scalar : Bool) (vd vs1 : VReg) (rs2 : Fin 32) (rm : Ext)
  /-- VFEXP2 (R113): Vector fast exp2 within the stated error bounds. -/
  | vfexp2 (q : QuireId) (m : Bool) (vd vs1 : VReg) (rm : Ext)
  /-- VADD (R114): Vector integer add. -/
  | vadd (q : QuireId) (m scalar : Bool) (vd vs1 : VReg) (rs2 : BitVec 6)
  /-- VSUB (R114): Vector integer subtract. -/
  | vsub (q : QuireId) (m scalar : Bool) (vd vs1 : VReg) (rs2 : BitVec 6)
  /-- VAND (R114): Vector bitwise AND. -/
  | vand (q : QuireId) (m scalar : Bool) (vd vs1 : VReg) (rs2 : BitVec 6)
  /-- VOR (R114): Vector bitwise OR. -/
  | vor (q : QuireId) (m scalar : Bool) (vd vs1 : VReg) (rs2 : BitVec 6)
  /-- VXOR (R114): Vector bitwise exclusive-or. -/
  | vxor (q : QuireId) (m scalar : Bool) (vd vs1 : VReg) (rs2 : BitVec 6)
  /-- VSLL (R114): Vector left shift. -/
  | vsll (q : QuireId) (m scalar : Bool) (vd vs1 : VReg) (rs2 : BitVec 6)
  /-- VSRL (R114): Vector logical right shift. -/
  | vsrl (q : QuireId) (m scalar : Bool) (vd vs1 : VReg) (rs2 : BitVec 6)
  /-- VSRA (R114): Vector arithmetic right shift. -/
  | vsra (q : QuireId) (m scalar : Bool) (vd vs1 : VReg) (rs2 : BitVec 6)
  /-- VMIN (R114): Vector signed minimum. -/
  | vmin (q : QuireId) (m scalar : Bool) (vd vs1 : VReg) (rs2 : BitVec 6)
  /-- VMAX (R114): Vector signed maximum. -/
  | vmax (q : QuireId) (m scalar : Bool) (vd vs1 : VReg) (rs2 : BitVec 6)
  /-- VMINU (R114): Vector unsigned minimum. -/
  | vminu (q : QuireId) (m scalar : Bool) (vd vs1 : VReg) (rs2 : BitVec 6)
  /-- VMAXU (R114): Vector unsigned maximum. -/
  | vmaxu (q : QuireId) (m scalar : Bool) (vd vs1 : VReg) (rs2 : BitVec 6)
  /-- VMUL (R114): Vector low-half multiply. -/
  | vmul (q : QuireId) (m scalar : Bool) (vd vs1 : VReg) (rs2 : BitVec 6)
  /-- VMULH (R114): Vector signed high-half multiply. -/
  | vmulh (q : QuireId) (m scalar : Bool) (vd vs1 : VReg) (rs2 : BitVec 6)
  /-- VMULHU (R114): Vector unsigned high-half multiply. -/
  | vmulhu (q : QuireId) (m scalar : Bool) (vd vs1 : VReg) (rs2 : BitVec 6)
  /-- VDIV (R114): Vector signed divide. -/
  | vdiv (q : QuireId) (m scalar : Bool) (vd vs1 : VReg) (rs2 : BitVec 6)
  /-- VDIVU (R114): Vector unsigned divide. -/
  | vdivu (q : QuireId) (m scalar : Bool) (vd vs1 : VReg) (rs2 : BitVec 6)
  /-- VREM (R114): Vector signed remainder. -/
  | vrem (q : QuireId) (m scalar : Bool) (vd vs1 : VReg) (rs2 : BitVec 6)
  /-- VREMU (R114): Vector unsigned remainder. -/
  | vremu (q : QuireId) (m scalar : Bool) (vd vs1 : VReg) (rs2 : BitVec 6)
  /-- VSADD (R114): Vector signed saturating add. -/
  | vsadd (q : QuireId) (m scalar : Bool) (vd vs1 : VReg) (rs2 : BitVec 6)
  /-- VSADDU (R114): Vector unsigned saturating add. -/
  | vsaddu (q : QuireId) (m scalar : Bool) (vd vs1 : VReg) (rs2 : BitVec 6)
  /-- VSSUB (R114): Vector signed saturating subtract. -/
  | vssub (q : QuireId) (m scalar : Bool) (vd vs1 : VReg) (rs2 : BitVec 6)
  /-- VSSUBU (R114): Vector unsigned saturating subtract. -/
  | vssubu (q : QuireId) (m scalar : Bool) (vd vs1 : VReg) (rs2 : BitVec 6)
  /-- VMACC (R114): Vector wrapping multiply-accumulate. -/
  | vmacc (q : QuireId) (m scalar : Bool) (vd vs1 : VReg) (rs2 : BitVec 6)
  /-- VCMP (R115): Vector comparison, with the condition as a parameter, writing a mask. -/
  | vcmp (q : QuireId) (m scalar : Bool) (cond : BitVec 4) (md : MReg) (vs1 : VReg) (rs2 : BitVec 6)
  /-- MAND (R116): Mask AND. -/
  | mand (q : QuireId) (md ms1 ms2 : MReg)
  /-- MOR (R116): Mask OR. -/
  | mor (q : QuireId) (md ms1 ms2 : MReg)
  /-- MXOR (R116): Mask exclusive-or. -/
  | mxor (q : QuireId) (md ms1 ms2 : MReg)
  /-- MANDN (R116): Mask AND NOT. -/
  | mandn (q : QuireId) (md ms1 ms2 : MReg)
  /-- MNOT (R116): Mask NOT. -/
  | mnot (q : QuireId) (md ms1 : MReg)
  /-- MMV (R116): Mask copy. -/
  | mmv (q : QuireId) (md ms1 : MReg)
  /-- MSET (R116): Sets a mask to all ones. -/
  | mset (q : QuireId) (md : MReg)
  /-- MCLR (R116): Sets a mask to all zeros. -/
  | mclr (q : QuireId) (md : MReg)
  /-- MPOPC (R116): Counts the set bits of a mask below VL. -/
  | mpopc (q : QuireId) (rd : GReg) (ms1 : MReg)
  /-- MFIRST (R116): Finds the lowest set bit of a mask below VL. -/
  | mfirst (q : QuireId) (rd : GReg) (ms1 : MReg)
  /-- MLD (R116): Loads a mask from memory. -/
  | mld (q : QuireId) (mr : MReg) (rs1 : GReg)
  /-- MST (R116): Stores a mask to memory. -/
  | mst (q : QuireId) (mr : MReg) (rs1 : GReg)
  /-- VCVT (R117): Vector type conversion. -/
  | vcvt (q : QuireId) (dst src : BitVec 4) (sat : Bool) (rm : BitVec 3) (vd vs1 : VReg)
  /-- VMV (R118): Vector move. -/
  | vmv (q : QuireId) (m : Bool) (vd vs1 : VReg)
  /-- VMERGE (R118): Vector merge under the mask. -/
  | vmerge (q : QuireId) (vd vs1 vs2 : VReg)
  /-- VSLIDEUP (R118): Slides a vector up by k. -/
  | vslideup (q : QuireId) (m : Bool) (vd vs1 : VReg) (rs2 : GReg)
  /-- VSLIDEDOWN (R118): Slides a vector down by k. -/
  | vslidedown (q : QuireId) (m : Bool) (vd vs1 : VReg) (rs2 : GReg)
  /-- VSLIDE1UP_F (R118): Slides up by one, inserting an f register. -/
  | vslide1upF (q : QuireId) (m : Bool) (vd vs1 : VReg) (rs2 : FReg)
  /-- VSLIDE1DOWN_F (R118): Slides down by one, inserting an f register. -/
  | vslide1downF (q : QuireId) (m : Bool) (vd vs1 : VReg) (rs2 : FReg)
  /-- VSLIDE1UP_G (R118): Slides up by one, inserting a g register. -/
  | vslide1upG (q : QuireId) (m : Bool) (vd vs1 : VReg) (rs2 : GReg)
  /-- VSLIDE1DOWN_G (R118): Slides down by one, inserting a g register. -/
  | vslide1downG (q : QuireId) (m : Bool) (vd vs1 : VReg) (rs2 : GReg)
  /-- VGATHER (R118): Gathers vector elements by index. -/
  | vgather (q : QuireId) (m : Bool) (vd vs1 vs2 : VReg)
  /-- VCOMPRESS (R118): Compresses the active elements of a vector. -/
  | vcompress (q : QuireId) (vd vs1 : VReg)
  /-- VBCAST_F (R118): Broadcasts an f register to a vector. -/
  | vbcastF (q : QuireId) (m : Bool) (vd : VReg) (rs1 : FReg)
  /-- VBCAST_G (R118): Broadcasts a g register to a vector. -/
  | vbcastG (q : QuireId) (m : Bool) (vd : VReg) (rs1 : GReg)
  /-- VEXTR_G (R118): Extracts element k into a g register. -/
  | vextrG (q : QuireId) (rd : GReg) (vs1 : VReg) (rs2 : GReg)
  /-- VEXTR_F (R118): Extracts element k into an f register. -/
  | vextrF (q : QuireId) (fd : FReg) (vs1 : VReg) (rs2 : GReg)
  /-- VINS_G (R118): Inserts a g register at element k. -/
  | vinsG (q : QuireId) (vd : VReg) (rs1 rs2 : GReg)
  /-- VFREDSUM_O (R120): Ordered FP sum reduction. -/
  | vfredsumO (q : QuireId) (m : Bool) (vd vs1 vs2 : VReg) (rm : Ext)
  /-- VFREDSUM_T (R120): Tree FP sum reduction. -/
  | vfredsumT (q : QuireId) (m : Bool) (vd vs1 vs2 : VReg) (rm : Ext)
  /-- VFREDMAX (R119): FP maximum reduction. -/
  | vfredmax (q : QuireId) (m : Bool) (vd vs1 vs2 : VReg) (rm : Ext)
  /-- VFREDMIN (R119): FP minimum reduction. -/
  | vfredmin (q : QuireId) (m : Bool) (vd vs1 vs2 : VReg) (rm : Ext)
  /-- VREDSUM (R119): Integer wrapping sum reduction. -/
  | vredsum (q : QuireId) (m : Bool) (vd vs1 vs2 : VReg) (rm : Ext)
  /-- VREDAND (R119): AND reduction. -/
  | vredand (q : QuireId) (m : Bool) (vd vs1 vs2 : VReg) (rm : Ext)
  /-- VREDOR (R119): OR reduction. -/
  | vredor (q : QuireId) (m : Bool) (vd vs1 vs2 : VReg) (rm : Ext)
  /-- VREDXOR (R119): Exclusive-or reduction. -/
  | vredxor (q : QuireId) (m : Bool) (vd vs1 vs2 : VReg) (rm : Ext)
  /-- VREDMAX (R119): Signed maximum reduction. -/
  | vredmax (q : QuireId) (m : Bool) (vd vs1 vs2 : VReg) (rm : Ext)
  /-- VREDMIN (R119): Signed minimum reduction. -/
  | vredmin (q : QuireId) (m : Bool) (vd vs1 vs2 : VReg) (rm : Ext)
  /-- VREDMAXU (R119): Unsigned maximum reduction. -/
  | vredmaxu (q : QuireId) (m : Bool) (vd vs1 vs2 : VReg) (rm : Ext)
  /-- VREDMINU (R119): Unsigned minimum reduction. -/
  | vredminu (q : QuireId) (m : Bool) (vd vs1 vs2 : VReg) (rm : Ext)
  /-- VSETVL (R110): Sets VTYPE, VL and VSTART in one step. -/
  | vsetvl (q : QuireId) (rd rs1 : GReg) (imm : BitVec 12)
  /-- VLD (R123): Vector load in unit-stride, strided, indexed or segment mode, restartable from VSTART. -/
  | vld (q : QuireId) (m : Bool) (mode : BitVec 2) (ff : Bool) (w : BitVec 2) (vd : VReg) (rs1 : GReg) (rs2 : BitVec 6)
  /-- VST (R123): Vector store, restartable from VSTART. -/
  | vst (q : QuireId) (m : Bool) (mode : BitVec 2) (ff : Bool) (w : BitVec 2) (vd : VReg) (rs1 : GReg) (rs2 : BitVec 6)
  /-- TCFG (R136): Configures or unconfigures every tile of a mask, all or nothing. -/
  | tcfg (q : QuireId) (rs1 rs2 : GReg)
  /-- TDESC (R139): Returns the descriptor of a tile. -/
  | tdesc (q : QuireId) (rd : GReg) (tn : TReg)
  /-- TRELALL (R139): Unconfigures every tile. -/
  | trelall (q : QuireId)
  /-- TZERO (R139): Zeroes a tile's data and scales. -/
  | tzero (q : QuireId) (td : TReg)
  /-- TLD (R141): Loads tile rows with a stride, restartable from TSTART. -/
  | tld (q : QuireId) (td : TReg) (rs1 rs2 : GReg)
  /-- TLD_P (R141): Loads tile rows packed. -/
  | tldP (q : QuireId) (td : TReg) (rs1 : GReg)
  /-- TST (R141): Stores tile rows with a stride. -/
  | tst (q : QuireId) (td : TReg) (rs1 rs2 : GReg)
  /-- TST_P (R141): Stores tile rows packed. -/
  | tstP (q : QuireId) (td : TReg) (rs1 : GReg)
  /-- TLDS (R144): Loads a tile's scale bytes. -/
  | tlds (q : QuireId) (td : TReg) (rs1 : GReg)
  /-- TSTS (R144): Stores a tile's scale bytes. -/
  | tsts (q : QuireId) (td : TReg) (rs1 : GReg)
  /-- MMA (R166): Matrix multiply-accumulate of two tiles into an accumulator. -/
  | mma (q : QuireId) (ovw fine sat sgna sgnb : Bool) (ta tb : TReg) (co ro : BitVec 2) (acc : Fin 2) (rm : Ext)
  /-- ACCZ (R175): Zeroes an accumulator and sets its tag. -/
  | accz (q : QuireId) (acc : Fin 2) (int32 : Bool)
  /-- PLOUGH (R186): Drains an accumulator region with scaling, statistics and conversion. -/
  | plough (q : QuireId) (dst : PlDst) (co ro : BitVec 2) (acc : Fin 2) (rm : Ext)
  /-- PLOUGH_N (R191): Drains an accumulator region in normalisation mode for streaming attention. -/
  | ploughN (q : QuireId) (dst : PlDst) (co ro : BitVec 2) (acc : Fin 2) (rm : Ext)
  /-- SLC (R212): Slices an FP64 or FP32 tile into slice planes. -/
  | slc (q : QuireId) (tn : TReg) (vb : VReg)
  /-- MMA_S (R217): Multiplies slice planes into the class words of both accumulators. -/
  | mmaS (q : QuireId) (ovw : Bool) (ta tb : TReg) (co ro : BitVec 2)
  /-- PLOUGH_S (R224): Reassembles slice classes and rounds each output once. -/
  | ploughS (q : QuireId) (dst : PlDst) (co ro : BitVec 2) (rm : Ext)
  /-- PRESS_AUTO_GATE (R508): PRESS_nn enters GATED after 4,096 PRESSCLK with no press-major instruction. -/
  | pressAutoGate (q : QuireId)
  /-- CTX_CREATE (R252): Q_CTX_CTL CREATE starts a fresh context on a quire. -/
  | ctxCreate (q : QuireId) (src : Source) (ctx : CtxId) (full : Bool)
  /-- CTX_RESTORE (R258): Q_CTX_CTL RESTORE loads a context from its save image. -/
  | ctxRestore (q : QuireId) (src : Source) (ctx : CtxId) (full : Bool)
  /-- CTX_STOP_SAVE (R256): Q_CTX_CTL STOP_SAVE stops the context and saves it. -/
  | ctxStopSave (q : QuireId) (src : Source) (ctx : CtxId) (full : Bool)
  /-- CTX_STOP_DISCARD (R254): Q_CTX_CTL STOP_DISCARD stops the context without saving it. -/
  | ctxStopDiscard (q : QuireId) (src : Source) (ctx : CtxId) (full : Bool)
  /-- CTX_PREEMPT (R255): Q_CTX_CTL PREEMPT starts the grace phase and raises the PREEMPT interrupt. -/
  | ctxPreempt (q : QuireId) (src : Source) (ctx : CtxId) (full : Bool)
  /-- CTX_CHECKPOINT (R252): Q_CTX_CTL CHECKPOINT saves the context and resumes it. -/
  | ctxCheckpoint (q : QuireId) (src : Source) (ctx : CtxId) (full : Bool)
  /-- CTX_RESUME (R252): Q_CTX_CTL RESUME resumes a HELD context. -/
  | ctxResume (q : QuireId) (src : Source) (ctx : CtxId) (full : Bool)
  /-- GRACE_EXPIRY (R255): The PREEMPT grace time expires, and STOP_SAVE begins whatever the handler is doing. -/
  | graceExpiry (q : QuireId)
  /-- QUIESCE_COMPLETE (R254): A stopping quire finishes quiescing its units, stores and atomics. -/
  | quiesceComplete (q : QuireId)
  /-- SAVE_COMMIT (R256): The header write of a save completes, committing the image and clearing the dirty bits. -/
  | saveCommit (q : QuireId)
  /-- RESTORE_COMPLETE (R258): A restore finishes loading its sections and replays the pending list. -/
  | restoreComplete (q : QuireId)
  /-- TIP_IN (R259): The headband starts moving a running context to a spare quire. -/
  | tipIn (logical : Fin 32) (spare : QuireId)
  /-- TIP_IN_COMMIT (R259): The colophon update commits the tip-in, and the spare resumes the context. -/
  | tipInCommit (logical : Fin 32)
  /-- TIP_IN_FAILURE (R260): A failure during tip-in rolls the context back or loses it. -/
  | tipInFailure (logical : Fin 32) (what : TipFail)
  /-- Q_IRQ_SET (R253): A write raises interrupt NUM in the running context of the quire. -/
  | qIrqSet (q : QuireId) (src : Source) (num : BitVec 8)
  /-- Q_END (R394): The supervisor ends a launch on its quire, with a fence and STOP_DISCARD. -/
  | qEnd (q : QuireId) (src : Source) (writer : QuireId) (code : W32)
  /-- Q_CACHE_CTL (R277): A write requests disabling or enabling L2, or changing its powered ways. -/
  | qCacheCtl (q : QuireId) (src : Source) (v : W32)
  /-- CACHE_CFG_COMPLETE (R277): An L2 configuration change finishes, BUSY clears, and held accesses are released. -/
  | cacheCfgComplete (q : QuireId)
  /-- REFRESH_INTERVAL (R282): A text-block channel's refresh interval ends; the refresh is performed, postponed or forced. -/
  | refreshInterval (ch : Fin 32) (postponed : Bool)
  /-- REFRESH_CATCH_UP (R282): A channel idle for 100 MEMCLK performs an owed refresh. -/
  | refreshCatchUp (ch : Fin 32)
  /-- REFRESH_RATE_CHANGE (R16): A channel's sensor crosses 85 °C, and the refresh rate changes at the next interval. -/
  | refreshRateChange (ch : Fin 32) (temp : BitVec 8)
  /-- SCRUB_ROW_STEP (R477): The scrubber reads, corrects and classifies one row. -/
  | scrubRowStep (ch : Fin 32) (ces : List (Fin 64 × BitVec 15 × Byte)) (ues : List (Fin 64))
  /-- REPAIR_ROW_STEP (R478): One row is rewritten with its column steered to the guard column. -/
  | repairRowStep (ch : Fin 32)
  /-- ROW_SPARED (R479): A row reaching ROWCE corrected errors is copied into a spare row. -/
  | rowSpared (ch : Fin 32)
  /-- CALIBRATION (R482): A memory channel that is due runs its calibration blackout, at idle or forced rank. -/
  | calibration (type inst : Byte) (forced : Bool) (ns : BitVec 12)
  /-- TARGETED_ROW_REFRESH (R482): The neighbours of a heavily activated row are refreshed. -/
  | targetedRowRefresh (type inst : Byte)
  /-- TELEMETRY_SHADOW_COPY (R482): Every 10 µs each unit copies its counters into shadow registers. -/
  | telemetryShadowCopy
  /-- XLAT_INV_ALL (R304): GLB_XLAT_INV scope 0b000 invalidates every translation and context-table entry. -/
  | xlatInvAll
  /-- XLAT_INV_CTX (R304): Invalidates every translation of one CTXID and its context-table entry. -/
  | xlatInvCtx (ctx : CtxId)
  /-- XLAT_INV_SEG (R304): Invalidates one segment of one CTXID. -/
  | xlatInvSeg (ctx : CtxId) (seg : BitVec 4)
  /-- XLAT_INV_PAGE (R304): Invalidates one page of one segment. -/
  | xlatInvPage (ctx : CtxId) (seg : BitVec 4) (vpn : BitVec 27)
  /-- XLAT_INV_CTXTBL (R304): Invalidates only the context-table entry of one CTXID. -/
  | xlatInvCtxtbl (ctx : CtxId)
  /-- XLAT_INV_COMPLETE (R305): An invalidation completes and BUSY returns to 0. -/
  | xlatInvComplete
  /-- XFQ_RECORD_WRITE (R308): A held fault record is written into a free queue slot and the interrupt raised. -/
  | xfqRecordWrite
  /-- XFQ_RETRY (R307): GLB_XFQ_RESUME ACTION 0b01 retries translation of a stalled stream. -/
  | xfqRetry (ctx : CtxId) (id : W16)
  /-- XFQ_FAIL (R307): GLB_XFQ_RESUME ACTION 0b10 fails a stalled stream. -/
  | xfqFail (ctx : CtxId) (id : W16)
  /-- SF_SCREATE (R354): A stream creation request block is read, checked and given a result. -/
  | sfScreate (f : Fin 4) (src : Source) (q : QuireId) (v : W64)
  /-- CANCEL (R361): SF_SCTL CANCEL ends a stream according to its state. -/
  | cancel (f : Fin 4) (src : Source) (q : QuireId) (ctx : CtxId) (id : W16)
  /-- DOORBELL (R356): SF_SCTL DOORBELL raises the DOORBELL event in the stream's bank. -/
  | doorbell (f : Fin 4) (src : Source) (q : QuireId) (ctx : CtxId) (id : W16)
  /-- STREAM_DISPATCH (R355): A QUEUED stream is dispatched to a free context bank. -/
  | streamDispatch (f : Fin 4)
  /-- MOVER_OPERATION_COMPLETE (R357): A mover operation is performed or abandoned, updating progress and raising MOVER. -/
  | moverOperationComplete (id : W16) (fail : Option Bool)
  /-- STREAM_COMPLETION (R360): A DRAINING stream's operations end; ERR, the completion record and interrupt are written, and the entry frees. -/
  | streamCompletion (id : W16)
  /-- SLD (R358): Pushes a word of the stream's entry. -/
  | sld (e : EngineId) (b : Fin 9) (m : Byte)
  /-- SST (R358): Writes CREDIT or a PARAM word of the stream's entry. -/
  | sst (e : EngineId) (b : Fin 9) (m : Byte)
  /-- MVGO (R358): Issues the next bytes of the stream to a mover slot, blocking for a slot or credit. -/
  | mvgo (e : EngineId) (b : Fin 9) (m : Byte)
  /-- MVGO_RESUME (R358): A blocked MVGO proceeds once a slot or credits become available. -/
  | mvgoResume (e : EngineId) (b : Fin 9)
  /-- MVSET (R358): Changes a word of the bank's working mover descriptor. -/
  | mvset (e : EngineId) (b : Fin 9) (m : Byte)
  /-- MVPEND (R358): Pushes the count of the bank's outstanding mover operations. -/
  | mvpend (e : EngineId) (b : Fin 9) (m : Byte)
  /-- CRRET (R359): Returns credits to the peer SEND stream. -/
  | crret (e : EngineId) (b : Fin 9) (m : Byte)
  /-- SDONE (R360): Ends the bank's stream with OK or HANDLER_ERROR. -/
  | sdone (e : EngineId) (b : Fin 9) (m : Byte)
  /-- SIGNAL (R358): Raises the SIGNAL event in a named bank of the frame. -/
  | signal (e : EngineId) (b : Fin 9) (m : Byte)
  /-- BKILL (R358): Fast bank ends the stream of a context bank and frees it. -/
  | bkill (e : EngineId) (b : Fin 9) (m : Byte)
  /-- PUSHI8 (R322): Pushes a sign-extended 8-bit immediate. -/
  | pushi8 (e : EngineId) (b : Fin 9) (m : Byte)
  /-- PUSHI16 (R322): Pushes a sign-extended 16-bit immediate. -/
  | pushi16 (e : EngineId) (b : Fin 9) (m : Byte) (w : W16)
  /-- PUSHI32 (R322): Pushes a 32-bit immediate. -/
  | pushi32 (e : EngineId) (b : Fin 9) (m : Byte) (w : W32)
  /-- PICK (R322): Pushes a copy of stack entry n. -/
  | pick (e : EngineId) (b : Fin 9) (m : Byte)
  /-- DROP (R322): Removes n stack entries. -/
  | drop (e : EngineId) (b : Fin 9) (m : Byte)
  /-- S_SWAP (R322): Exchanges the two top stack words. -/
  | sSwap (e : EngineId) (b : Fin 9) (m : Byte)
  /-- ROLL (R322): Moves stack entry n to the top. -/
  | roll (e : EngineId) (b : Fin 9) (m : Byte)
  /-- DEPTH (R322): Pushes the stack depth. -/
  | depth (e : EngineId) (b : Fin 9) (m : Byte)
  /-- S_ADD (R323): Tehus-S add, optionally checked. -/
  | sAdd (e : EngineId) (b : Fin 9) (m : Byte)
  /-- ADC (R323): Tehus-S add with carry. -/
  | adc (e : EngineId) (b : Fin 9) (m : Byte)
  /-- S_SUB (R323): Tehus-S subtract. -/
  | sSub (e : EngineId) (b : Fin 9) (m : Byte)
  /-- SBC (R323): Tehus-S subtract with borrow. -/
  | sbc (e : EngineId) (b : Fin 9) (m : Byte)
  /-- S_AND (R323): Tehus-S bitwise AND. -/
  | sAnd (e : EngineId) (b : Fin 9) (m : Byte)
  /-- S_OR (R323): Tehus-S bitwise OR. -/
  | sOr (e : EngineId) (b : Fin 9) (m : Byte)
  /-- S_XOR (R323): Tehus-S bitwise exclusive-or. -/
  | sXor (e : EngineId) (b : Fin 9) (m : Byte)
  /-- S_ANDN (R323): Tehus-S AND NOT. -/
  | sAndn (e : EngineId) (b : Fin 9) (m : Byte)
  /-- CMP (R323): Sets the flags of a − b. -/
  | cmp (e : EngineId) (b : Fin 9) (m : Byte)
  /-- S_TST (R323): Sets the flags of a AND b. -/
  | sTst (e : EngineId) (b : Fin 9) (m : Byte)
  /-- S_ADDI (R323): Adds a sign-extended 8-bit immediate. -/
  | sAddi (e : EngineId) (b : Fin 9) (m : Byte)
  /-- NEG (R323): Negates the top word. -/
  | neg (e : EngineId) (b : Fin 9) (m : Byte)
  /-- NOT (R323): Inverts the top word. -/
  | not (e : EngineId) (b : Fin 9) (m : Byte)
  /-- SHL (R325): Tehus-S left shift. -/
  | shl (e : EngineId) (b : Fin 9) (m : Byte)
  /-- SHR (R325): Tehus-S logical right shift. -/
  | shr (e : EngineId) (b : Fin 9) (m : Byte)
  /-- SAR (R325): Tehus-S arithmetic right shift. -/
  | sar (e : EngineId) (b : Fin 9) (m : Byte)
  /-- S_ROR (R325): Tehus-S rotate right. -/
  | sRor (e : EngineId) (b : Fin 9) (m : Byte)
  /-- S_MUL (R326): Issues a multiply whose product lands in MPH and MPL later. -/
  | sMul (e : EngineId) (b : Fin 9) (m : Byte)
  /-- MUL_PRODUCT_LAND (R316): A pipelined product lands in MPH and MPL of its issuing bank. -/
  | mulProductLand (e : EngineId) (b : Fin 9)
  /-- S_DIV (R326): Tehus-S division. -/
  | sDiv (e : EngineId) (b : Fin 9) (m : Byte)
  /-- S_REM (R326): Tehus-S remainder. -/
  | sRem (e : EngineId) (b : Fin 9) (m : Byte)
  /-- BR (R327): Short relative branch. -/
  | br (e : EngineId) (b : Fin 9) (m : Byte)
  /-- BRL (R327): Long relative branch. -/
  | brl (e : EngineId) (b : Fin 9) (m : Byte) (w : W16)
  /-- CALL (R317): Relative call through the return stack. -/
  | call (e : EngineId) (b : Fin 9) (m : Byte) (w : W16)
  /-- CALLI (R317): Indirect call through the return stack. -/
  | calli (e : EngineId) (b : Fin 9) (m : Byte)
  /-- RET (R317): Return from the return stack. -/
  | ret (e : EngineId) (b : Fin 9) (m : Byte)
  /-- JMPI (R327): Indirect jump. -/
  | jmpi (e : EngineId) (b : Fin 9) (m : Byte)
  /-- RETI (R366): Returns from a Tehus-S exception, or makes bank 8 IDLE. -/
  | reti (e : EngineId) (b : Fin 9) (m : Byte)
  /-- BCC (R327): Conditional branch on condition c. -/
  | bcc (e : EngineId) (b : Fin 9) (c : BitVec 4) (m : Byte)
  /-- S_LD (R328): Tehus-S load from local RAM, interface region or far window. -/
  | sLd (e : EngineId) (b : Fin 9) (m : Byte)
  /-- S_ST (R328): Tehus-S store. -/
  | sSt (e : EngineId) (b : Fin 9) (m : Byte)
  /-- LDL (R328): Loads a local word at 4n. -/
  | ldl (e : EngineId) (b : Fin 9) (m : Byte)
  /-- STL (R328): Stores a local word at 4n. -/
  | stl (e : EngineId) (b : Fin 9) (m : Byte)
  /-- RDSR (R331): Reads a special register. -/
  | rdsr (e : EngineId) (b : Fin 9) (m : Byte)
  /-- WRSR (R331): Writes a special register. -/
  | wrsr (e : EngineId) (b : Fin 9) (m : Byte)
  /-- S_NOP (R330): Tehus-S no operation. -/
  | sNop (e : EngineId) (b : Fin 9) (m : Byte)
  /-- SYNC (R330): Completes earlier SYNC-class writes and far stores. -/
  | sync (e : EngineId) (b : Fin 9) (m : Byte)
  /-- S_WAIT (R365): Yields the bank until an event in the mask is pending. -/
  | sWait (e : EngineId) (b : Fin 9) (m : Byte)
  /-- SWI (R366): Raises SOFTWARE with a code. -/
  | swi (e : EngineId) (b : Fin 9) (m : Byte)
  /-- DCINV (R329): Discards every data-cache line. -/
  | dcinv (e : EngineId) (b : Fin 9) (m : Byte)
  /-- FADDS (R333): Saturating fractional add. -/
  | fadds (e : EngineId) (b : Fin 9) (m : Byte)
  /-- FSUBS (R333): Saturating fractional subtract. -/
  | fsubs (e : EngineId) (b : Fin 9) (m : Byte)
  /-- FMULR (R333): Rounded saturating fractional multiply. -/
  | fmulr (e : EngineId) (b : Fin 9) (m : Byte)
  /-- ACCLD (R333): Loads ACC from a word. -/
  | accld (e : EngineId) (b : Fin 9) (m : Byte)
  /-- ACCADD (R333): Adds a word into ACC, saturating. -/
  | accadd (e : EngineId) (b : Fin 9) (m : Byte)
  /-- MAC (R333): Multiply-accumulates into ACC. -/
  | mac (e : EngineId) (b : Fin 9) (m : Byte)
  /-- MSU (R333): Multiply-subtracts from ACC. -/
  | msu (e : EngineId) (b : Fin 9) (m : Byte)
  /-- ACCST (R333): Pushes ACC, saturated or truncated. -/
  | accst (e : EngineId) (b : Fin 9) (m : Byte)
  /-- ACCSHR (R333): Shifts ACC right with rounding. -/
  | accshr (e : EngineId) (b : Fin 9) (m : Byte)
  /-- ACCCLR (R333): Clears ACC. -/
  | accclr (e : EngineId) (b : Fin 9) (m : Byte)
  /-- ACCGET (R333): Pushes a part of ACC. -/
  | accget (e : EngineId) (b : Fin 9) (m : Byte)
  /-- ACCPUT (R333): Writes a part of ACC. -/
  | accput (e : EngineId) (b : Fin 9) (m : Byte)
  /-- S_CRC (R334): Steps a CRC over 8, 16 or 32 data bits. -/
  | sCrc (e : EngineId) (b : Fin 9) (m : Byte)
  /-- PAR (R335): Computes parity of the low bits. -/
  | par (e : EngineId) (b : Fin 9) (m : Byte)
  /-- S_BREV (R335): Reverses the low n bits. -/
  | sBrev (e : EngineId) (b : Fin 9) (m : Byte)
  /-- S_POPC (R335): Tehus-S population count. -/
  | sPopc (e : EngineId) (b : Fin 9) (m : Byte)
  /-- S_CLZ (R335): Tehus-S count of leading zeros. -/
  | sClz (e : EngineId) (b : Fin 9) (m : Byte)
  /-- S_BSWAP (R335): Tehus-S byte swap. -/
  | sBswap (e : EngineId) (b : Fin 9) (m : Byte)
  /-- DADD (R336): Packed-decimal add. -/
  | dadd (e : EngineId) (b : Fin 9) (m : Byte)
  /-- DSUB (R336): Packed-decimal subtract. -/
  | dsub (e : EngineId) (b : Fin 9) (m : Byte)
  /-- DADJ (R336): Decimal adjustment after a binary add or subtract. -/
  | dadj (e : EngineId) (b : Fin 9) (m : Byte)
  /-- CUSTOM_OPCODE (R347): Runs a decode-RAM micro-op list as one instruction. -/
  | customOpcode (e : EngineId) (b : Fin 9) (n : BitVec 4) (m : Byte) (x : W32)
  /-- EVENT (R366): At a boundary the EVENT exception is taken where EVPEND and EVIRQ share a bit. -/
  | event (e : EngineId) (b : Fin 9)
  /-- STREAM_FAULT (R366): An abandoned mover operation raises STREAM_FAULT in the stream's bank at a boundary. -/
  | streamFault (e : EngineId) (b : Fin 9)
  /-- FAST_INTERRUPT (R366): A headband request enters bank 8 of an engine. -/
  | fastInterrupt (e : EngineId)
  /-- BANK_TIMER_EXPIRY (R365): A bank's TIMER special register reaches 0 and sets the TIMER event. -/
  | bankTimerExpiry (e : EngineId) (b : Fin 9)
  /-- PATCH_START (R372): SF_PATCH_CTL GO starts a patch and holds the frame's engines at boundaries. -/
  | patchStart (f : Fin 4) (src : Source) (countm1 : BitVec 11)
  /-- PATCH_APPLY (R373): Once every engine is held (and decode SYNCs done), the records are applied and engines released. -/
  | patchApply (f : Fin 4)
  /-- HOST_READ (R375): A host read of the register window is performed and answered. -/
  | hostRead (tag : BitVec 10) (addr : BitVec 28) (wide : Bool)
  /-- HOST_READ_TIMEOUT (R375): A host read unanswered for 2 µs receives an error response. -/
  | hostReadTimeout (tag : BitVec 10)
  /-- REGISTER_WRITE (R5): A write to a register with no row of its own is applied or rejected and logged. -/
  | registerWrite (src : Source) (who : Writer) (addr : BitVec 28) (wide : Bool) (v : W64)
  /-- HOST_RESPONSE (R555): A response from the host to an Apnyx read or atomic arrives. -/
  | hostResponse (tag : BitVec 10) (err poison : Bool) (data : BitVec 1024)
  /-- HST_DB_SQTAIL (R387): A doorbell write submits entries to a queue. -/
  | hstDbSqtail (src : Source) (n : CtxId) (v : W32)
  /-- HST_DB_CQHEAD (R387): A doorbell write frees completion slots. -/
  | hstDbCqhead (src : Source) (n : CtxId) (v : W32)
  /-- HST_DB_QIRQ (R386): A doorbell write raises HOST_DOORBELL on the context's quires in the mask. -/
  | hstDbQirq (src : Source) (n : CtxId) (v : W32)
  /-- SUBMISSION_FETCH (R390): The port fetches and judges a submission entry when room allows. -/
  | submissionFetch (n : CtxId) (fail : Option Bool)
  /-- COMMAND_START (R400): A free execution slot or met condition starts a queue's oldest command by weighted service. -/
  | commandStart
  /-- NOP (R389): Host command that does nothing and completes. -/
  | nop (n : CtxId)
  /-- LAUNCH (R393): Starts the queue's entry program on the named quires. -/
  | launch (n : CtxId)
  /-- STREAM (R395): Creates a stream from a request block on behalf of the context. -/
  | stream (n : CtxId)
  /-- SCTL (R396): Performs CANCEL or DOORBELL on a stream through SF_SCTL. -/
  | sctl (n : CtxId)
  /-- BIND (R397): Binds quires to a context, all or nothing. -/
  | bind
  /-- RELEASE_SAVE (R397): RELEASE with MODE 0x01 preempts, saves and unbinds quires. -/
  | releaseSave
  /-- RELEASE_DISCARD (R397): RELEASE with MODE 0x00 stops, discards and unbinds quires. -/
  | releaseDiscard
  /-- RESTORE (R397): Management command that binds quires and restores images onto them. -/
  | restore
  /-- QUERY (R397): Writes a 256-byte device, context or quire report. -/
  | query
  /-- KILL (R397): Ends a context as a context-fatal error. -/
  | kill
  /-- ENABLE (R384): HST_QCMD ENABLE reads the queue-table entry and enables the queue. -/
  | enable (src : Source) (n : CtxId)
  /-- DISABLE (R384): HST_QCMD DISABLE stops fetching and drains the queue. -/
  | disable (src : Source) (n : CtxId)
  /-- RESET (R384): HST_QCMD RESET returns a DISABLED or FATAL queue to DISABLED. -/
  | reset (src : Source) (n : CtxId)
  /-- REFRESH (R384): HST_QCMD REFRESH re-reads a queue's changeable fields. -/
  | refresh (src : Source) (n : CtxId)
  /-- REFRESH_MSI (R384): HST_QCMD REFRESH_MSI discards cached message-interrupt entries. -/
  | refreshMsi (src : Source) (n : CtxId)
  /-- LANE_SIGNAL_DETECT (R419): Signal is detected on a DOWN port, which starts PHY training. -/
  | laneSignalDetect (p : PortId)
  /-- LANE_LOCK (R406): A lane locks in training, moving the port toward ALIGN. -/
  | laneLock (p : PortId) (lane : Fin 4)
  /-- LANE_TRAINING_TIMEOUT (R406): A lane not locked within 200 ms fails its training. -/
  | laneTrainingTimeout (p : PortId) (lane : Fin 4)
  /-- ALIGN_COMPLETE (R419): FEC lock and deskew complete, and the port enters STANDBY or CAPEX. -/
  | alignComplete (p : PortId)
  /-- PORT_RELEASE (R424): The headband sets RTE_BOOT.REL, releasing all ports to capability exchange. -/
  | portRelease (src : Source)
  /-- BACKOFF_EXPIRY (R423): A CAPEX port's back-off wait expires and it sends CAP_REQ. -/
  | backoffExpiry (p : PortId)
  /-- CAP_REQ (R421): A received capability request is answered READY, NOT_READY, INCOMPATIBLE or MISWIRED. -/
  | capReq (p : PortId) (m : CapMsg)
  /-- CAP_RSP (R421): A received capability response makes the link ACTIVE or schedules a retry. -/
  | capRsp (p : PortId) (m : CapMsg)
  /-- BOOT_NAK (R422): A received BOOT_NAK returns the sender to CAPEX with its replay buffer kept. -/
  | bootNak (p : PortId)
  /-- DATA_FLIT (R409): A received DATA flit is accepted in SEQ order or triggers RETRY_REQ. -/
  | dataFlit (p : PortId) (raw : BitVec 2048) (unc : Bool)
  /-- NULL_FLIT (R408): A received NULL flit delivers acknowledgements and credits. -/
  | nullFlit (p : PortId) (raw : BitVec 2048) (unc : Bool)
  /-- RETRY_REQ (R409): A received retry request makes the sender resend from the named SEQ. -/
  | retryReq (p : PortId) (raw : BitVec 2048) (unc : Bool)
  /-- RETRY_TIMEOUT (R409): No acknowledgement progress for 2 µs makes the sender resend. -/
  | retryTimeout (p : PortId)
  /-- RETRAIN (R434): A retry limit or lane failure moves the port to RETRAIN at a narrower width. -/
  | retrain (p : PortId) (failed : BitVec 4)
  /-- RETRAIN_TIMEOUT (R419): No lane locks within 50 ms of RETRAIN, and the port goes DOWN. -/
  | retrainTimeout (p : PortId)
  /-- LOSS_OF_SIGNAL (R433): A port leaves ACTIVE, and its route choices become unusable. -/
  | lossOfSignal (p : PortId)
  /-- LNK_HOLD_EXPIRY (R433): The replay hold expires, and the buffer is discarded with held packets rerouted. -/
  | lnkHoldExpiry (p : PortId)
  /-- RD (R431): A received read packet is checked, forwarded or performed and answered. -/
  | rd (port : Option PortId)
  /-- WR (R431): A received write packet is checked, forwarded or performed and acknowledged. -/
  | wr (port : Option PortId)
  /-- WRBE (R431): A received byte-enabled write packet. -/
  | wrbe (port : Option PortId)
  /-- ATOM (R431): A received atomic packet. -/
  | atom (port : Option PortId)
  /-- SDATA (R432): Received stream data lands in a RECEIVE stream or is refused. -/
  | sdata (port : Option PortId)
  /-- SCRED (R432): Received stream credits are added to a SEND stream. -/
  | scred (port : Option PortId)
  /-- COLL (R439): A received collective partial is checked and combined. -/
  | coll (port : Option PortId)
  /-- SNAK (R418): A received SNAK ends the named sending stream. -/
  | snak (port : Option PortId)
  /-- RSP (R418): A received response completes its tagged request. -/
  | rsp (port : Option PortId)
  /-- MGMT (R431): A received management packet enters the headband mailbox ring. -/
  | mgmt (port : Option PortId)
  /-- STREAM_REQUEST_TIMEOUT (R418): A mover request without response within RTE_CTL.STMO is abandoned. -/
  | streamRequestTimeout (tag : BitVec 12)
  /-- FLIP (R429): RTE_EPOCH FLIP switches the route epoch at each port. -/
  | flip (src : Source) (v : W32)
  /-- ORDERED_HOLD_RELEASE (R429): Held ordered packets proceed once acknowledged and ODRAIN has passed. -/
  | orderedHoldRelease
  /-- LNK_CTL (R440): A write enables, disables, loops back or limits a port. -/
  | lnkCtl (p : PortId) (src : Source) (v : W32)
  /-- CXL_LINK_UP (R453): The licensee's CXL controller reports link up or down. -/
  | cxlLinkUp (x : Fin 4) (up : Bool)
  /-- TIER_ENABLE (R456): Setting a tier's EN resolves its interleave and enables it. -/
  | tierEnable (t : Fin 3) (src : Source) (v : W32)
  /-- TIER_DISABLE (R457): Clearing a tier's EN makes every address of the tier unbacked. -/
  | tierDisable (t : Fin 3) (src : Source) (v : W32)
  /-- ROLE_CHANGE (R464): A GLB_ROLE write applies a new role profile. -/
  | roleChange (src : Source) (v : W32)
  /-- TEST (R488): HB_SVC TEST runs a unit's isolated test. -/
  | test (src : Source) (type inst : Byte)
  /-- TEST_COMPLETE (R488): A unit test finishes and sets RESULT. -/
  | testComplete (pass : Bool)
  /-- ADMIT (R488): HB_SVC ADMIT places a tested unit in service at its quiescent point. -/
  | admitUnit (src : Source) (type inst : Byte)
  /-- RETIRE (R488): HB_SVC RETIRE removes a unit from service as a failure does. -/
  | retire (src : Source) (type inst : Byte)
  /-- UNIT_FAILED (R487): A failed unit is removed from service and the colophon updated. -/
  | unitFailed (type inst : Byte) (mover : Option (Fin 16))
  /-- JOURNAL_ACK_TIMEOUT (R489): No standby acknowledgement within 100 µs; the standby is declared failed. -/
  | journalAckTimeout
  /-- STANDBY_SYNCED (R490): A standby headband finishes applying the journal and becomes SYNCED. -/
  | standbySynced
  /-- HB_FAILOVER (R491): Missed heartbeats or a reported failure make the standby take over. -/
  | hbFailover
  /-- SPINE_HANG (R492): No spine transfer progress for 10 ms is detected. -/
  | spineHang
  /-- MRESET_ARM (R492): HB_CTL value 0x5 arms the management reset. -/
  | mresetArm (src : Source)
  /-- MANAGEMENT_RESET (R492): HB_CTL value 0xA within 1 ms of arming reboots both headbands and warm-resets the domains. -/
  | managementReset (src : Source) (env : BootEnv)
  /-- MRESET_ARM_EXPIRY (R492): 1 ms passes after arming without 0xA, and the arming lapses. -/
  | mresetArmExpiry
  /-- CLK_PP (R498): A write bounds or targets the performance point. -/
  | clkPp (src : Source) (v : W32)
  /-- VOLTAGE_SETTLE (R499): Rails read back within 10 mV of a request and the dividers change to the faster point. -/
  | voltageSettle
  /-- VOLTAGE_TIMEOUT (R499): A rail fails to reach its request within 100 µs and the transition is abandoned. -/
  | voltageTimeout
  /-- GOVERNOR_LOOP (R529): Each 1 ms loop the power governor applies or undoes one step. -/
  | governorLoop (power : W16)
  /-- DROOP_ASSERT (R530): pw_droop_n falls and press issue is throttled within 100 ns. -/
  | droopAssert
  /-- DROOP_RELEASE (R530): pw_droop_n rises and the press returns to the DUTY rate. -/
  | droopRelease
  /-- THERMAL_SAMPLE (R531): The hottest sensor is sampled every 10 µs, and the thermal trip applied when reached. -/
  | thermalSample (temp : Byte)
  /-- DOMAIN_REQUEST (R505): A PWR_DOMd write requests a domain state transition. -/
  | domainRequest (d : Fin 86) (src : Source) (v : W32)
  /-- DOMAIN_TRANSITION_COMPLETE (R507): A domain finishes its save, switching or restore and reaches its new state. -/
  | domainTransitionComplete (d : Fin 86)
  /-- ACTIVE (R512): PWR_DEV REQ ACTIVE leaves IDLE for the ACTIVE configuration. -/
  | active (src : Source)
  /-- IDLE (R512): PWR_DEV REQ IDLE enters IDLE when every quire is unbound. -/
  | idle (src : Source)
  /-- SLEEP (R513): PWR_DEV REQ SLEEP runs the SLEEP entry sequence. -/
  | sleep (src : Source)
  /-- WAKE (R515): A wake source wakes Apnyx from SLEEP, or aborts entry. -/
  | wake (cause : BitVec 3) (p : PortId)
  /-- RAIL_FAILURE (R520): A rail or switched supply fails, invalidating saves or causing a reset. -/
  | railFailure (rail : Rail) (env : BootEnv)
  /-- COLD_RESET (R521): rst_por_n or an always-on failure resets everything, then boot runs. -/
  | coldReset (cause : RstCause) (straps : W32) (env : BootEnv)
  /-- BLOCK_RESET (R521): A block reset resets every switched domain and reboots the headbands. -/
  | blockReset (env : BootEnv)
  /-- FACTORY_RESTORE (R527): PWR_CALCTL FACTORY_RESTORE invalidates TRAIN and LINKEQ records. -/
  | factoryRestore (src : Source)
  /-- FACTORY_RESTORE_COMMIT (R527): The flash invalidation of a restore commits. -/
  | factoryRestoreCommit (ok : Bool)
  /-- MARK (R536): A DBG_MARK write puts a MARK event into the selected ring. -/
  | mark (src : Source) (v : W64)
  /-- FREEZE (R535): A DBG_RING_CTL write freezes or resumes the selected ring. -/
  | freeze (src : Source) (v : W32)
  /-- RING_EVENT (R534): A unit's event is delivered into its margin ring, or dropped. -/
  | ringEvent (u : W16)
  /-- COUNTER_WRITE (R538): A write replaces a counter's count. -/
  | counterWrite (src : Source) (n : Fin 16) (v : W64)
  /-- DEBUG_ACCESS (R548): A dbg_ port access reads or writes a reachable register. -/
  | debugAccess (we : Bool) (addr : BitVec 26) (wdata : W32)
  /-- WS_BYPASS (R550): Wrapper instruction with no effect on the block. -/
  | wsBypass (env : BootEnv)
  /-- WS_IJTAG (R550): Selects the IEEE 1687 instrument network. -/
  | wsIjtag (env : BootEnv)
  /-- WS_PRELOAD (R550): Loads the boundary cells while the block runs. -/
  | wsPreload (env : BootEnv)
  /-- WS_EXTEST (R550): Stops the block with the boundary cells driving the ports. -/
  | wsExtest (env : BootEnv)
  /-- WS_INTEST (R550): Stops the block for internal test. -/
  | wsIntest (env : BootEnv)
  /-- WS_CLAMP (R550): Stops the block with outputs clamped. -/
  | wsClamp (env : BootEnv)
  /-- WS_SAFE (R550): Stops the block with outputs in safe state. -/
  | wsSafe (env : BootEnv)
  /-- ILLEGAL_INSTRUCTION (R66): The Tehus core reaches a word with an illegal or reserved major, func or field. It raises ILLEGAL_INSTRUCTION precisely, with no state change. -/
  | illegalInstruction (q : QuireId)
  /-- ILLEGAL (R320): A Tehus-S engine reaches opcode 0x00, 0xF0 to 0xFF or an unassigned opcode. It raises ILLEGAL with no effect. -/
  | illegal (e : EngineId) (b : Fin 9) (w : W16)
  /-- SCRUB_LATE (R480): Elapsed pass time gets ahead of the rows scrubbed by more than 1/64. TXB_SCRUB.LATE sets and the scrubber moves to its raised rank. -/
  | scrubLate (ch : Fin 32)
  /-- DATA_CACHE_FILL (R364): A far-window load that missed the stitcher data cache receives its line. The BLOCKED bank becomes READY again. -/
  | dataCacheFill (e : EngineId) (b : Fin 9)
  /-- TAG_HOLD_EXPIRY (R418): A tag held after a mover request timed out returns to the node's tag pool once 4 × STMO has passed without a response. -/
  | tagHoldExpiry (tag : BitVec 12)
  /-- HEADBAND_REBOOT (R490): A headband that is returned, or is rebooted after a failure, enters TESTING and runs its self-test. It then becomes STANDBY with SYNC = SYNCING, and the snapshot transfer begins. -/
  | headbandReboot (h : Fin 2)
  deriving DecidableEq, Repr

end Sys2Proof
end

