-- ==== Sys2Proof/Decode.lean ====
section
/-!
DEFINITION. The two decoders. The table of this block's operations gives its rows no bits (spec/opcode_table.json),
so no word of the table's bits spells a command (`decodeTableWord`). The words of a Tehus instruction (R61 to R66)
spell the command that executes it (`decodeTehus`); the words of R66 spell none, and a quire that reaches one is sent
ILLEGAL_INSTRUCTION. What depends on a value (the mode a DYN names, the types of a conversion, a pair of registers
that an instruction does not accept) is judged by the instruction's meaning.
-/
namespace Sys2Proof

/-- The command that a word of the table's bits spells: none, since no row has bits. -/
def decodeTableWord (_nbits _w : Nat) : Option Instr := none

/-- The long bit (R61). -/
def wLong (w : W32) : Bool := w.getLsbD 7
/-- A major with no long form is illegal with the long bit (R66). -/
def wShort (w : W32) : Option Unit := guard (!wLong w)
/-- A field that must be zero (R66). -/
def wZero (w : W32) (lo n : Nat) : Option Unit := guard (w.extractLsb' lo n = 0)
/-- A field that names a general register (R62). -/
def wG (w : W32) (lo : Nat) : GReg := (w.extractLsb' lo 6).toFin
/-- A field that names an FP or a vector register, which accepts 0 to 31 (R62, R108). -/
def wF (w : W32) (lo : Nat) : Option (Fin 32) :=
  if w.getLsbD (lo + 5) then none else some (w.extractLsb' lo 5).toFin
/-- A field that names a mask register, which accepts 0 to 7 (R108). -/
def wM (w : W32) (lo : Nat) : Option MReg := do
  wZero w (lo + 3) 3
  return (w.extractLsb' lo 3).toFin
/-- A field that names a tile, which accepts 0 to 15 (R139). -/
def wT (w : W32) (lo : Nat) : Option TReg := do
  wZero w (lo + 4) 2
  return (w.extractLsb' lo 4).toFin
/-- The func field of format RR (R62). -/
def wFunc (w : W32) : Nat := (w.extractLsb' 26 6).toNat
/-- The immediate of an IMM32 major: the second word in the long form, whose short field must be zero (R63). -/
def wImm (w0 w1 : W32) (short : BitVec 12) : Option Imm :=
  if wLong w0 then (if short = 0 then some (.long w1) else none) else some (.short short)
/-- The immediate of format RI (R62). -/
def wRI (w0 w1 : W32) : Option Imm := wImm w0 w1 (w0.extractLsb' 20 12)
/-- The immediate or offset of formats ST and BR (R62). -/
def wST (w0 w1 : W32) : Option Imm := wImm w0 w1 (w0.extractLsb' 26 6 ++ w0.extractLsb' 8 6)
/-- The offset of format JP (R62). -/
def wJP (w0 w1 : W32) : Option JOff :=
  let short := w0.extractLsb' 26 6 ++ w0.extractLsb' 20 6 ++ w0.extractLsb' 14 6
  if wLong w0 then (if short = 0 then some (.long w1) else none) else some (.short short)
/-- The EXT word of a major that has one: bits [28:0] must be zero (R63). -/
def wExt (w0 w1 : W32) : Option Ext :=
  if wLong w0 then (if w1.extractLsb' 0 29 = 0 then some (some (w1.extractLsb' 29 3)) else none) else some none

/-- OP (R81, R82). -/
def decodeOp (q : QuireId) (w : W32) : Option Instr :=
  let rd := wG w 8
  let rs1 := wG w 14
  let rs2 := wG w 20
  match wFunc w with
  | 0x00 => some (.add q rd rs1 rs2)
  | 0x01 => some (.sub q rd rs1 rs2)
  | 0x02 => some (.and q rd rs1 rs2)
  | 0x03 => some (.or q rd rs1 rs2)
  | 0x04 => some (.xor q rd rs1 rs2)
  | 0x05 => some (.andn q rd rs1 rs2)
  | 0x06 => some (.sll q rd rs1 rs2)
  | 0x07 => some (.srl q rd rs1 rs2)
  | 0x08 => some (.sra q rd rs1 rs2)
  | 0x09 => some (.ror q rd rs1 rs2)
  | 0x0A => some (.slt q rd rs1 rs2)
  | 0x0B => some (.sltu q rd rs1 rs2)
  | 0x0C => some (.min q rd rs1 rs2)
  | 0x0D => some (.max q rd rs1 rs2)
  | 0x0E => some (.minu q rd rs1 rs2)
  | 0x0F => some (.maxu q rd rs1 rs2)
  | 0x10 => some (.addw q rd rs1 rs2)
  | 0x11 => some (.subw q rd rs1 rs2)
  | 0x12 => some (.sllw q rd rs1 rs2)
  | 0x13 => some (.srlw q rd rs1 rs2)
  | 0x14 => some (.sraw q rd rs1 rs2)
  | 0x18 => some (.addo q rd rs1 rs2)
  | 0x19 => some (.subo q rd rs1 rs2)
  | 0x1A => do wZero w 20 6; return .nego q rd rs1
  | 0x1B => some (.addwo q rd rs1 rs2)
  | 0x20 => do wZero w 20 6; return .clz q rd rs1
  | 0x21 => do wZero w 20 6; return .ctz q rd rs1
  | 0x22 => do wZero w 20 6; return .popc q rd rs1
  | 0x23 => do wZero w 20 6; return .brev q rd rs1
  | 0x24 => do wZero w 20 6; return .bswap q rd rs1
  | _ => none

/-- MULDIV (R84). -/
def decodeMulDiv (q : QuireId) (w : W32) : Option Instr :=
  let rd := wG w 8
  let rs1 := wG w 14
  let rs2 := wG w 20
  match wFunc w with
  | 0x00 => some (.mul q rd rs1 rs2)
  | 0x01 => some (.mulh q rd rs1 rs2)
  | 0x02 => some (.mulhu q rd rs1 rs2)
  | 0x03 => some (.mulhsu q rd rs1 rs2)
  | 0x04 => some (.mulo q rd rs1 rs2)
  | 0x05 => some (.mulw q rd rs1 rs2)
  | 0x08 => some (.div q rd rs1 rs2)
  | 0x09 => some (.divu q rd rs1 rs2)
  | 0x0A => some (.rem q rd rs1 rs2)
  | 0x0B => some (.remu q rd rs1 rs2)
  | 0x0C => some (.divw q rd rs1 rs2)
  | 0x0D => some (.divuw q rd rs1 rs2)
  | 0x0E => some (.remw q rd rs1 rs2)
  | 0x0F => some (.remuw q rd rs1 rs2)
  | _ => none

/-- SHI (R83): the sub-function in imm[11:6], the shift count in imm[5:0]. -/
def decodeShi (q : QuireId) (w : W32) : Option Instr :=
  let rd := wG w 8
  let rs1 := wG w 14
  let sh := w.extractLsb' 20 6
  match wFunc w with
  | 0 => some (.slli q rd rs1 sh)
  | 1 => some (.srli q rd rs1 sh)
  | 2 => some (.srai q rd rs1 sh)
  | 3 => some (.rori q rd rs1 sh)
  | _ => none

/-- ATOMIC (R87): func[5] is the width, func[4:0] the operation. -/
def decodeAtomic (q : QuireId) (w : W32) : Option Instr :=
  let rd := wG w 8
  let rs1 := wG w 14
  let rs2 := wG w 20
  let dbl := w.getLsbD 31
  match (w.extractLsb' 26 5).toNat with
  | 0x00 => some (.swap q rd rs1 rs2 dbl)
  | 0x01 => some (.aadd q rd rs1 rs2 dbl)
  | 0x02 => some (.aand q rd rs1 rs2 dbl)
  | 0x03 => some (.aor q rd rs1 rs2 dbl)
  | 0x04 => some (.axor q rd rs1 rs2 dbl)
  | 0x05 => some (.amin q rd rs1 rs2 dbl)
  | 0x06 => some (.amax q rd rs1 rs2 dbl)
  | 0x07 => some (.aminu q rd rs1 rs2 dbl)
  | 0x08 => some (.amaxu q rd rs1 rs2 dbl)
  | 0x09 => some (.cas q rd rs1 rs2 dbl)
  | 0x0A => some (.atomicFadd q rd rs1 rs2 dbl)
  | _ => none

/-- FENCE (R93), with its kind in imm[11:0]. -/
def decodeFence (q : QuireId) (w : W32) : Option Instr := do
  wZero w 8 12
  match (w.extractLsb' 20 12).toNat with
  | 0 => some (.fenceD q)
  | 1 => some (.fenceS q)
  | 2 => some (.fenceT q)
  | _ => none

/-- SYSTEM (R94): the fields are 0 but for CINV's selector in rs2, whose values 3 to 63 are reserved. -/
def decodeSystem (q : QuireId) (w : W32) : Option Instr := do
  wZero w 8 12
  let sel := w.extractLsb' 20 6
  if wFunc w = 0x08 then
    if sel.toNat < 3 then some (.cinv q sel) else none
  else do
    wZero w 20 6
    match wFunc w with
    | 0x00 => some (.syscall q)
    | 0x01 => some (.brk q)
    | 0x02 => some (.eret q)
    | 0x03 => some (.csync q)
    | 0x04 => some (.wait q)
    | 0x05 => some (.halt q)
    | _ => none

/-- FP.D and FP.S (R90): an EXT word that names a mode for a function that does not round is judged by the meaning. -/
def decodeFp (q : QuireId) (dbl : Bool) (w w1 : W32) : Option Instr := do
  let rm ← wExt w w1
  match wFunc w with
  | 0x00 => return .fadd q dbl (← wF w 8) (← wF w 14) (← wF w 20) rm
  | 0x01 => return .fsub q dbl (← wF w 8) (← wF w 14) (← wF w 20) rm
  | 0x02 => return .fmul q dbl (← wF w 8) (← wF w 14) (← wF w 20) rm
  | 0x03 => return .fdiv q dbl (← wF w 8) (← wF w 14) (← wF w 20) rm
  | 0x05 => return .fmin q dbl (← wF w 8) (← wF w 14) (← wF w 20) rm
  | 0x06 => return .fmax q dbl (← wF w 8) (← wF w 14) (← wF w 20) rm
  | 0x08 => return .fsgn q dbl (← wF w 8) (← wF w 14) (← wF w 20) rm
  | 0x09 => return .fsgnn q dbl (← wF w 8) (← wF w 14) (← wF w 20) rm
  | 0x0A => return .fsgnx q dbl (← wF w 8) (← wF w 14) (← wF w 20) rm
  | 0x04 => wZero w 20 6; return .fsqrt q dbl (← wF w 8) (← wF w 14) rm
  | 0x10 => return .feq q dbl (wG w 8) (← wF w 14) (← wF w 20) rm
  | 0x11 => return .flt q dbl (wG w 8) (← wF w 14) (← wF w 20) rm
  | 0x12 => return .fle q dbl (wG w 8) (← wF w 14) (← wF w 20) rm
  | 0x13 => wZero w 20 6; return .fclass q dbl (wG w 8) (← wF w 14) rm
  | 0x18 => wZero w 20 6; return .fmvG q dbl (wG w 8) (← wF w 14) rm
  | 0x19 => wZero w 20 6; return .fmvF q dbl (← wF w 8) (wG w 14) rm
  | _ => none

/-- FCVT (R91): func[5:3] is the destination type, func[2:0] the source type. -/
def decodeFcvt (q : QuireId) (w w1 : W32) : Option Instr := do
  let rm ← wExt w w1
  wZero w 20 6
  return .fcvt q (w.extractLsb' 29 3) (w.extractLsb' 26 3) (w.extractLsb' 8 6) (w.extractLsb' 14 6) rm

/-- The fused majors, format FM (R92). -/
def decodeFma (q : QuireId) (w w1 : W32) : Option Instr := do
  let rm ← wExt w w1
  let fd ← wF w 8
  let fs1 ← wF w 14
  let fs2 ← wF w 20
  let fs3 ← wF w 26
  match (w.extractLsb' 0 7).toNat with
  | 0x34 => return .fmadd q true fd fs1 fs2 fs3 rm
  | 0x35 => return .fmsub q true fd fs1 fs2 fs3 rm
  | 0x36 => return .fnmadd q true fd fs1 fs2 fs3 rm
  | 0x37 => return .fnmsub q true fd fs1 fs2 fs3 rm
  | 0x38 => return .fmadd q false fd fs1 fs2 fs3 rm
  | 0x39 => return .fmsub q false fd fs1 fs2 fs3 rm
  | 0x3A => return .fnmadd q false fd fs1 fs2 fs3 rm
  | 0x3B => return .fnmsub q false fd fs1 fs2 fs3 rm
  | _ => none

/-- VF and VFS (R107, R112): func[5] is the mask bit; VFSQRT and VFEXP2 have no scalar form. -/
def decodeVf (q : QuireId) (scalar : Bool) (w w1 : W32) : Option Instr := do
  let rm ← wExt w w1
  let m := w.getLsbD 31
  let vd ← wF w 8
  let vs1 ← wF w 14
  let rs2 ← wF w 20
  match (w.extractLsb' 26 5).toNat with
  | 0x00 => return .vfadd q m scalar vd vs1 rs2 rm
  | 0x01 => return .vfsub q m scalar vd vs1 rs2 rm
  | 0x02 => return .vfmul q m scalar vd vs1 rs2 rm
  | 0x03 => return .vfdiv q m scalar vd vs1 rs2 rm
  | 0x05 => return .vfmin q m scalar vd vs1 rs2 rm
  | 0x06 => return .vfmax q m scalar vd vs1 rs2 rm
  | 0x08 => return .vfsgn q m scalar vd vs1 rs2 rm
  | 0x09 => return .vfsgnn q m scalar vd vs1 rs2 rm
  | 0x0A => return .vfsgnx q m scalar vd vs1 rs2 rm
  | 0x10 => return .vfmadd q m scalar vd vs1 rs2 rm
  | 0x11 => return .vfmsub q m scalar vd vs1 rs2 rm
  | 0x12 => return .vfnmadd q m scalar vd vs1 rs2 rm
  | 0x13 => return .vfnmsub q m scalar vd vs1 rs2 rm
  | 0x04 => guard (!scalar && rs2 == 0); return .vfsqrt q m vd vs1 rm
  | 0x18 => guard (!scalar && rs2 == 0); return .vfexp2 q m vd vs1 rm
  | _ => none

/-- VI and VIS (R107, R114): rs2 is a vector register of VI and a general register of VIS. -/
def decodeVi (q : QuireId) (scalar : Bool) (w : W32) : Option Instr := do
  let m := w.getLsbD 31
  let vd ← wF w 8
  let vs1 ← wF w 14
  guard (scalar || !w.getLsbD 25)
  let rs2 := w.extractLsb' 20 6
  match (w.extractLsb' 26 5).toNat with
  | 0x00 => return .vadd q m scalar vd vs1 rs2
  | 0x01 => return .vsub q m scalar vd vs1 rs2
  | 0x02 => return .vand q m scalar vd vs1 rs2
  | 0x03 => return .vor q m scalar vd vs1 rs2
  | 0x04 => return .vxor q m scalar vd vs1 rs2
  | 0x05 => return .vsll q m scalar vd vs1 rs2
  | 0x06 => return .vsrl q m scalar vd vs1 rs2
  | 0x07 => return .vsra q m scalar vd vs1 rs2
  | 0x08 => return .vmin q m scalar vd vs1 rs2
  | 0x09 => return .vmax q m scalar vd vs1 rs2
  | 0x0A => return .vminu q m scalar vd vs1 rs2
  | 0x0B => return .vmaxu q m scalar vd vs1 rs2
  | 0x0C => return .vmul q m scalar vd vs1 rs2
  | 0x0D => return .vmulh q m scalar vd vs1 rs2
  | 0x0E => return .vmulhu q m scalar vd vs1 rs2
  | 0x0F => return .vdiv q m scalar vd vs1 rs2
  | 0x10 => return .vdivu q m scalar vd vs1 rs2
  | 0x11 => return .vrem q m scalar vd vs1 rs2
  | 0x12 => return .vremu q m scalar vd vs1 rs2
  | 0x13 => return .vsadd q m scalar vd vs1 rs2
  | 0x14 => return .vsaddu q m scalar vd vs1 rs2
  | 0x15 => return .vssub q m scalar vd vs1 rs2
  | 0x16 => return .vssubu q m scalar vd vs1 rs2
  | 0x17 => return .vmacc q m scalar vd vs1 rs2
  | _ => none

/-- VCMP (R115): func[3:0] is the condition, func[4] its scalar form; 0x6 and 0x7 are reserved. -/
def decodeVcmp (q : QuireId) (w : W32) : Option Instr := do
  let cond := w.extractLsb' 26 4
  let scalar := w.getLsbD 30
  guard (cond ≠ 6 && cond ≠ 7)
  guard (!w.getLsbD 25 || (scalar && cond.getLsbD 3))
  return .vcmp q (w.getLsbD 31) scalar cond (← wM w 8) (← wF w 14) (w.extractLsb' 20 6)

/-- VMASK (R116). -/
def decodeVmask (q : QuireId) (w : W32) : Option Instr :=
  match wFunc w with
  | 0x00 => return .mand q (← wM w 8) (← wM w 14) (← wM w 20)
  | 0x01 => return .mor q (← wM w 8) (← wM w 14) (← wM w 20)
  | 0x02 => return .mxor q (← wM w 8) (← wM w 14) (← wM w 20)
  | 0x03 => return .mandn q (← wM w 8) (← wM w 14) (← wM w 20)
  | 0x04 => do wZero w 20 6; return .mnot q (← wM w 8) (← wM w 14)
  | 0x05 => do wZero w 20 6; return .mmv q (← wM w 8) (← wM w 14)
  | 0x06 => do wZero w 14 12; return .mset q (← wM w 8)
  | 0x07 => do wZero w 14 12; return .mclr q (← wM w 8)
  | 0x10 => do wZero w 20 6; return .mpopc q (wG w 8) (← wM w 14)
  | 0x11 => do wZero w 20 6; return .mfirst q (wG w 8) (← wM w 14)
  | 0x18 => do wZero w 20 6; return .mld q (← wM w 8) (wG w 14)
  | 0x19 => do wZero w 20 6; return .mst q (← wM w 8) (wG w 14)
  | _ => none

/-- VCVT (R117): the types, the SAT bit and the rounding mode stand in the immediate. -/
def decodeVcvt (q : QuireId) (w : W32) : Option Instr := do
  return .vcvt q (w.extractLsb' 28 4) (w.extractLsb' 24 4) (w.getLsbD 23) (w.extractLsb' 20 3) (← wF w 8) (← wF w 14)

/-- VPERM (R118): VMERGE and VCOMPRESS carry M = 1, VEXTR and VINS M = 0; the rs2 field of
VMV and of VCOMPRESS, which no rule requires to be 0, plays no part (log entry 190). -/
def decodeVperm (q : QuireId) (w : W32) : Option Instr := do
  let m := w.getLsbD 31
  match (w.extractLsb' 26 5).toNat with
  | 0x00 => return .vmv q m (← wF w 8) (← wF w 14)
  | 0x01 => guard m; return .vmerge q (← wF w 8) (← wF w 14) (← wF w 20)
  | 0x02 => return .vslideup q m (← wF w 8) (← wF w 14) (wG w 20)
  | 0x03 => return .vslidedown q m (← wF w 8) (← wF w 14) (wG w 20)
  | 0x04 => return .vslide1upF q m (← wF w 8) (← wF w 14) (← wF w 20)
  | 0x05 => return .vslide1downF q m (← wF w 8) (← wF w 14) (← wF w 20)
  | 0x06 => return .vslide1upG q m (← wF w 8) (← wF w 14) (wG w 20)
  | 0x07 => return .vslide1downG q m (← wF w 8) (← wF w 14) (wG w 20)
  | 0x08 => return .vgather q m (← wF w 8) (← wF w 14) (← wF w 20)
  | 0x09 => guard m; return .vcompress q (← wF w 8) (← wF w 14)
  | 0x0A => wZero w 20 6; return .vbcastF q m (← wF w 8) (← wF w 14)
  | 0x0B => wZero w 20 6; return .vbcastG q m (← wF w 8) (wG w 14)
  | 0x0C => guard (!m); return .vextrG q (wG w 8) (← wF w 14) (wG w 20)
  | 0x0D => guard (!m); return .vextrF q (← wF w 8) (← wF w 14) (wG w 20)
  | 0x0E => guard (!m); return .vinsG q (← wF w 8) (wG w 14) (wG w 20)
  | _ => none

/-- VRED (R119). -/
def decodeVred (q : QuireId) (w w1 : W32) : Option Instr := do
  let rm ← wExt w w1
  let m := w.getLsbD 31
  let vd ← wF w 8
  let vs1 ← wF w 14
  let vs2 ← wF w 20
  match (w.extractLsb' 26 5).toNat with
  | 0x00 => return .vfredsumO q m vd vs1 vs2 rm
  | 0x01 => return .vfredsumT q m vd vs1 vs2 rm
  | 0x02 => return .vfredmax q m vd vs1 vs2 rm
  | 0x03 => return .vfredmin q m vd vs1 vs2 rm
  | 0x08 => return .vredsum q m vd vs1 vs2 rm
  | 0x09 => return .vredand q m vd vs1 vs2 rm
  | 0x0A => return .vredor q m vd vs1 vs2 rm
  | 0x0B => return .vredxor q m vd vs1 vs2 rm
  | 0x0C => return .vredmax q m vd vs1 vs2 rm
  | 0x0D => return .vredmin q m vd vs1 vs2 rm
  | 0x0E => return .vredmaxu q m vd vs1 vs2 rm
  | 0x0F => return .vredminu q m vd vs1 vs2 rm
  | _ => none

/-- VLD and VST (R121): func holds M, MODE, FF and W. -/
def decodeVmem (q : QuireId) (load : Bool) (w : W32) : Option Instr := do
  let v ← wF w 8
  let m := w.getLsbD 31
  let mode := w.extractLsb' 29 2
  let ff := w.getLsbD 28
  let wid := w.extractLsb' 26 2
  if load then return .vld q m mode ff wid v (wG w 14) (w.extractLsb' 20 6)
  else return .vst q m mode ff wid v (wG w 14) (w.extractLsb' 20 6)

/-- The tile majors (R139). -/
def decodeTile (q : QuireId) (w : W32) : Option Instr :=
  match (w.extractLsb' 0 7).toNat, wFunc w with
  | 0x50, 0x00 => do wZero w 8 6; return .tcfg q (wG w 14) (wG w 20)
  | 0x50, 0x01 => do wZero w 20 6; return .tdesc q (wG w 8) (← wT w 14)
  | 0x50, 0x02 => do wZero w 8 18; return .trelall q
  | 0x50, 0x03 => do wZero w 14 12; return .tzero q (← wT w 8)
  | 0x51, 0x00 => return .tld q (← wT w 8) (wG w 14) (wG w 20)
  | 0x51, 0x01 => do wZero w 20 6; return .tldP q (← wT w 8) (wG w 14)
  | 0x52, 0x00 => return .tst q (← wT w 8) (wG w 14) (wG w 20)
  | 0x52, 0x01 => do wZero w 20 6; return .tstP q (← wT w 8) (wG w 14)
  | 0x53, 0x00 => do wZero w 20 6; return .tlds q (← wT w 8) (wG w 14)
  | 0x53, 0x01 => do wZero w 20 6; return .tsts q (← wT w 8) (wG w 14)
  | _, _ => none

/-- The column-block and row-block offsets CO and RO (R174, R201, R220); rd[5] is 0. -/
def wCoRo (w : W32) : Option (BitVec 2 × BitVec 2) := do
  wZero w 13 1
  return (w.extractLsb' 11 2, w.extractLsb' 9 2)

/-- MMA (R174). -/
def decodeMma (q : QuireId) (w w1 : W32) : Option Instr := do
  let rm ← wExt w w1
  wZero w 26 1
  let (co, ro) ← wCoRo w
  return .mma q (w.getLsbD 31) (w.getLsbD 30) (w.getLsbD 29) (w.getLsbD 28) (w.getLsbD 27) (← wT w 14) (← wT w 20)
    co ro (w.extractLsb' 8 1).toFin rm

/-- ACC (R175): func 0 and 1 are ACCZ as FP32 and as INT32. -/
def decodeAcc (q : QuireId) (w : W32) : Option Instr := do
  wZero w 9 17
  wZero w 27 5
  return .accz q (w.extractLsb' 8 1).toFin (w.getLsbD 26)

/-- The destination of a plough instruction (R201). -/
def wPlDst (w : W32) (memOk : Bool) : Option PlDst := do
  wZero w 26 4
  match (w.extractLsb' 30 2).toNat with
  | 0 => wZero w 20 6; return .tile (← wT w 14)
  | 1 => wZero w 20 6; return .vec (← wF w 14)
  | 2 => guard memOk; return .mem (wG w 14) (wG w 20)
  | _ => none

/-- PLOUGH, PLOUGH.N and PLOUGH.S (R201, R221): PLOUGH.N has no memory destination, PLOUGH.S no ACC. -/
def decodePlough (q : QuireId) (w w1 : W32) : Option Instr := do
  let rm ← wExt w w1
  let (co, ro) ← wCoRo w
  match (w.extractLsb' 0 7).toNat with
  | 0x5C => return .plough q (← wPlDst w true) co ro (w.extractLsb' 8 1).toFin rm
  | 0x5D => return .ploughN q (← wPlDst w false) co ro (w.extractLsb' 8 1).toFin rm
  | 0x5F => wZero w 8 1; return .ploughS q (← wPlDst w true) co ro rm
  | _ => none

/-- SLC and MMA.S (R220). -/
def decodeSlice (q : QuireId) (w : W32) : Option Instr := do
  wZero w 28 3
  match (w.extractLsb' 26 2).toNat with
  | 0 => wZero w 31 1; wZero w 8 6; return .slc q (← wT w 14) (← wF w 20)
  | 1 =>
    wZero w 8 1
    let (co, ro) ← wCoRo w
    return .mmaS q (w.getLsbD 31) (← wT w 14) (← wT w 20) co ro
  | _ => none

/-- The command that the words of a Tehus instruction spell at quire q: the first word `w`, and the second word `w1`
of a long form (R61 to R64). None where R66 makes the word illegal; the major 0x00 and 0x7F among them (R65). -/
def decodeTehus (q : QuireId) (w w1 : W32) : Option Instr := do
  let rd := wG w 8
  let rs1 := wG w 14
  let rs2 := wG w 20
  match (w.extractLsb' 0 7).toNat with
  | 0x01 => wShort w; decodeOp q w
  | 0x02 => return .addi q rd rs1 (← wRI w w1)
  | 0x03 => return .andi q rd rs1 (← wRI w w1)
  | 0x04 => return .ori q rd rs1 (← wRI w w1)
  | 0x05 => return .xori q rd rs1 (← wRI w w1)
  | 0x06 => return .slti q rd rs1 (← wRI w w1)
  | 0x07 => return .sltiu q rd rs1 (← wRI w w1)
  | 0x08 => wShort w; decodeShi q w
  | 0x09 => wZero w 14 6; return .li q rd (← wRI w w1)
  | 0x0A => guard (wLong w); wZero w 14 18; return .lih q rd w1
  | 0x0B => wShort w; decodeMulDiv q w
  | 0x10 => return .lb q rd rs1 (← wRI w w1)
  | 0x11 => return .lbu q rd rs1 (← wRI w w1)
  | 0x12 => return .lh q rd rs1 (← wRI w w1)
  | 0x13 => return .lhu q rd rs1 (← wRI w w1)
  | 0x14 => return .lw q rd rs1 (← wRI w w1)
  | 0x15 => return .lwu q rd rs1 (← wRI w w1)
  | 0x16 => return .ld q rd rs1 (← wRI w w1)
  | 0x18 => return .sb q rs2 rs1 (← wST w w1)
  | 0x19 => return .sh q rs2 rs1 (← wST w w1)
  | 0x1A => return .sw q rs2 rs1 (← wST w w1)
  | 0x1B => return .sd q rs2 rs1 (← wST w w1)
  | 0x1C => return .flw q (← wF w 8) rs1 (← wRI w w1)
  | 0x1D => return .fld q (← wF w 8) rs1 (← wRI w w1)
  | 0x1E => return .fsw q (← wF w 20) rs1 (← wST w w1)
  | 0x1F => return .fsd q (← wF w 20) rs1 (← wST w w1)
  | 0x20 => return .beq q rs1 rs2 (← wST w w1)
  | 0x21 => return .bne q rs1 rs2 (← wST w w1)
  | 0x22 => return .blt q rs1 rs2 (← wST w w1)
  | 0x23 => return .bge q rs1 rs2 (← wST w w1)
  | 0x24 => return .bltu q rs1 rs2 (← wST w w1)
  | 0x25 => return .bgeu q rs1 rs2 (← wST w w1)
  | 0x26 => return .jal q rd (← wJP w w1)
  | 0x27 => return .jalr q rd rs1 (← wRI w w1)
  | 0x28 => wShort w; decodeAtomic q w
  | 0x29 => wShort w; decodeFence q w
  | 0x2A => wShort w; decodeSystem q w
  | 0x2B => wShort w; return .crw q rd (w.extractLsb' 20 12) rs1
  | 0x2C => wShort w; return .crs q rd (w.extractLsb' 20 12) rs1
  | 0x2D => wShort w; return .crc q rd (w.extractLsb' 20 12) rs1
  | 0x30 => decodeFp q true w w1
  | 0x31 => decodeFp q false w w1
  | 0x32 => decodeFcvt q w w1
  | 0x34 => decodeFma q w w1
  | 0x35 => decodeFma q w w1
  | 0x36 => decodeFma q w w1
  | 0x37 => decodeFma q w w1
  | 0x38 => decodeFma q w w1
  | 0x39 => decodeFma q w w1
  | 0x3A => decodeFma q w w1
  | 0x3B => decodeFma q w w1
  | 0x40 => decodeVf q false w w1
  | 0x41 => decodeVf q true w w1
  | 0x42 => wShort w; decodeVi q false w
  | 0x43 => wShort w; decodeVi q true w
  | 0x44 => wShort w; decodeVcmp q w
  | 0x45 => wShort w; decodeVmask q w
  | 0x46 => wShort w; decodeVcvt q w
  | 0x47 => wShort w; decodeVperm q w
  | 0x48 => decodeVred q w w1
  | 0x49 => wShort w; return .vsetvl q rd rs1 (w.extractLsb' 20 12)
  | 0x4A => wShort w; decodeVmem q true w
  | 0x4B => wShort w; decodeVmem q false w
  | 0x50 => wShort w; decodeTile q w
  | 0x51 => wShort w; decodeTile q w
  | 0x52 => wShort w; decodeTile q w
  | 0x53 => wShort w; decodeTile q w
  | 0x58 => decodeMma q w w1
  | 0x59 => wShort w; decodeAcc q w
  | 0x5C => decodePlough q w w1
  | 0x5D => decodePlough q w w1
  | 0x5E => wShort w; decodeSlice q w
  | 0x5F => decodePlough q w w1
  | _ => none

/-- Whether the first word alone is legal (R67): a long form is judged so before its second word is fetched. A second
word of 0 is accepted by every long form. -/
def tehusFirstOk (q : QuireId) (w : W32) : Bool := (decodeTehus q w 0).isSome

end Sys2Proof
end

