-- ==== Sys2Proof/Machine/Bits.lean ====
section
/-!
DEFINITION. Bit fields, sign extension, bit counts and byte order (00_scope.md, "Numbers, units and bit ranges").
-/
namespace Sys2Proof.Machine

/-- Field x[hi:lo] of a word, as a number. -/
def bits {n : Nat} (x : BitVec n) (hi lo : Nat) : Nat := x.toNat / 2 ^ lo % 2 ^ (hi + 1 - lo)

/-- Whether bit i is 1. -/
def bit {n : Nat} (x : BitVec n) (i : Nat) : Bool := x.getLsbD i

/-- The word whose bits [hi:lo] are 1. -/
def maskW (n hi lo : Nat) : BitVec n := BitVec.ofNat n (2 ^ (hi + 1) - 2 ^ lo)

/-- x with field [hi:lo] replaced by y. -/
def setBits {n : Nat} (x : BitVec n) (hi lo y : Nat) : BitVec n :=
  (x &&& ~~~ maskW n hi lo) ||| (BitVec.ofNat n (y * 2 ^ lo) &&& maskW n hi lo)

/-- x with bit i set to b. -/
def setBit {n : Nat} (x : BitVec n) (i : Nat) (b : Bool) : BitVec n :=
  setBits x i i (if b then 1 else 0)

/-- Sign extension of the low w bits to 64 bits. -/
def sext64 (w : Nat) (x : Nat) : W64 := (BitVec.ofNat w x).signExtend 64

/-- The immediate of a short or long form, sign-extended (R63). -/
def immVal : Imm → W64
  | .short i => i.signExtend 64
  | .long i => i.signExtend 64

/-- The length in bytes of a form with an immediate (R61). -/
def immLen : Imm → Nat
  | .short _ => 4
  | .long _ => 8

/-- The offset of JAL, sign-extended. -/
def joffVal : JOff → W64
  | .short i => i.signExtend 64
  | .long i => i.signExtend 64

/-- The length in bytes of JAL. -/
def joffLen : JOff → Nat
  | .short _ => 4
  | .long _ => 8

/-- The length in bytes of a form with an extension word. -/
def extLen : Ext → Nat
  | none => 4
  | some _ => 8

/-- The number of 1 bits. -/
def popCount {n : Nat} (x : BitVec n) : Nat := (List.range n).countP (fun i => x.getLsbD i)

/-- The number of leading zero bits, n for zero. -/
def leadZeros {n : Nat} (x : BitVec n) : Nat := if x = 0 then n else n - 1 - Nat.log2 x.toNat

/-- The number of trailing zero bits, n for zero. -/
def trailZeros {n : Nat} (x : BitVec n) : Nat := ((List.range n).find? (fun i => x.getLsbD i)).getD n

/-- The bits in the opposite order. -/
def bitReverse {n : Nat} (x : BitVec n) : BitVec n := x.reverse

/-- The bytes of a 64-bit word in the opposite order. -/
def byteSwap64 (x : W64) : W64 :=
  x.extractLsb' 0 8 ++ x.extractLsb' 8 8 ++ x.extractLsb' 16 8 ++ x.extractLsb' 24 8 ++
  x.extractLsb' 32 8 ++ x.extractLsb' 40 8 ++ x.extractLsb' 48 8 ++ x.extractLsb' 56 8

/-- Element i, w bits wide, of a packed value. -/
def elem {n : Nat} (x : BitVec n) (w i : Nat) : Nat := x.toNat / 2 ^ (i * w) % 2 ^ w

/-- The packed value whose element i, w bits wide, is f i, for i below k. -/
def packElems (n w : Nat) : Nat → (Nat → Nat) → BitVec n
  | 0, _ => 0
  | k + 1, f => packElems n w k f ||| BitVec.ofNat n (f k % 2 ^ w * 2 ^ (k * w))

/-- A packed value with element i, w bits wide, replaced. -/
def setElem {n : Nat} (x : BitVec n) (w i v : Nat) : BitVec n := setBits x (i * w + w - 1) (i * w) v

/-- Whether naturals a to a + n − 1 all lie in [lo, hi). -/
def within (a n lo hi : Nat) : Bool := decide (lo ≤ a) && decide (a + n ≤ hi)

/-- The number a list of bytes spells, least significant byte first. -/
def leNat : List Byte → Nat
  | [] => 0
  | b :: r => b.toNat + 256 * leNat r

/-- The n bytes of a number, least significant byte first. -/
def leBytes : Nat → Nat → List Byte
  | 0, _ => []
  | n + 1, x => BitVec.ofNat 8 x :: leBytes n (x / 256)

/-- Take the n-th element that satisfies `p` out of a list, counted from 0. -/
def pullNth {α : Type} (p : α → Bool) : Nat → List α → Option α × List α
  | _, [] => (none, [])
  | n, x :: r =>
    if p x then
      match n with
      | 0 => (some x, r)
      | n + 1 => let t := pullNth p n r; (t.1, x :: t.2)
    else let t := pullNth p n r; (t.1, x :: t.2)

end Sys2Proof.Machine
end

