-- ==== Sys2Proof/Machine/Sparse.lean ====
section
/-!
DEFINITION. Sparse maps from addresses or register numbers to values, held as lists of pairs with
strictly rising keys, none of them holding the value that an unlisted key reads as. Equal maps are
equal lists.
-/
namespace Sys2Proof.Machine

/-- The value at key `a`, `dflt` when the key is not listed. -/
def sGet {α : Type} (dflt : α) : List (Nat × α) → Nat → α
  | [], _ => dflt
  | (k, v) :: r, a => if a < k then dflt else if a = k then v else sGet dflt r a

/-- Remove key `a`. -/
def sErase {α : Type} : List (Nat × α) → Nat → List (Nat × α)
  | [], _ => []
  | (k, v) :: r, a => if a < k then (k, v) :: r else if a = k then r else (k, v) :: sErase r a

/-- Put `x` at key `a`, keeping the keys rising. -/
def sInsert {α : Type} : List (Nat × α) → Nat → α → List (Nat × α)
  | [], a, x => [(a, x)]
  | (k, v) :: r, a, x =>
    if a < k then (a, x) :: (k, v) :: r else if a = k then (a, x) :: r else (k, v) :: sInsert r a x

/-- Write `x` at key `a`, where an unlisted `a` reads as `dflt`. -/
def sSet {α : Type} [DecidableEq α] (dflt : α) (m : List (Nat × α)) (a : Nat) (x : α) :
    List (Nat × α) :=
  if x = dflt then sErase m a else sInsert m a x

/-- Every key is at least `lo`, the keys rise strictly, and no entry holds its unlisted value. -/
def sOk {α : Type} [DecidableEq α] (dflt : Nat → α) : Nat → List (Nat × α) → Bool
  | _, [] => true
  | lo, (k, v) :: r => decide (lo ≤ k) && decide (v ≠ dflt k) && sOk dflt (k + 1) r

end Sys2Proof.Machine
end

