-- ==== Sys2Proof/Config.lean ====
section
/-!
DEFINITION. What an implementation or an integrator fixes, and the values the spec leaves open.
Every `opaque` here has no body: nothing in Lean can evaluate it, so a statement about it holds
whatever the hardware does.
-/
namespace Sys2Proof.Config

/-- The n-th value the spec leaves open (log entry 2): applied to the counter `State.free`. -/
opaque freeValue : Nat → BitVec 64

/-- GLB_COLOPHON_ID.STEPPING (R18): the stepping an implementation reports. -/
opaque stepping : BitVec 8

/-- FREE (log entry 14): the operation, its width in bytes, the operand and the compare value that the data
slot of an ATOM packet holds (R416), whose layout the spec does not give. -/
opaque atomDecode : BitVec 128 → Nat × Nat × W64 × W64

/-- FREE (log entry 14): the data slot of an ATOM packet (R416). -/
opaque atomEncode : Nat → Nat → W64 → W64 → BitVec 128

/-- FREE (log entry 15): what memory holds after power or refresh was lost, for the n-th loss. -/
opaque lostMemory : Nat → List (Nat × Byte)

/-- FREE (log entry 15): the 64-byte lines that then read as poisoned, with their entry reference. -/
opaque lostPoison : Nat → List (Nat × W32)

/-- FREE (log entry 16): the signed instruction-memory image of a stitch frame, by word index. -/
opaque bootImem : Nat → List (Nat × W32)

/-- FREE (log entry 16): the signed decode image of a stitch frame. -/
opaque bootDec : Nat → List (Nat × W32)

/-- FREE (log entry 17): where in the text block the ECC word of a channel lies, by channel, row of the pass and
word of the row. -/
opaque txbWord : Nat → Nat → Nat → Nat

/-- FREE (log entry 12): the CRC-64 of R257 takes its data reflected. -/
opaque crc64Reflected : Bool

/-- FREE (log entry 12): the initial value of the CRC-64 of R257. -/
opaque crc64Init : W64

/-- FREE (log entry 12): the final exclusive-or of the CRC-64 of R257. -/
opaque crc64Final : W64

end Sys2Proof.Config
end

