-- ==== Sys2Proof/Machine/State.lean ====
section
/-!
DEFINITION. The state of the Apnyx block (INVENTORY.md, "## State"), and its state after reset.
Every field's default value is its value at reset. A register-window register lives in `State.win`
under its offset, a Tehus control register in `Quire.cr` under its number; both are sparse, and an
unlisted register reads as its reset value (Machine/Registers.lean).
-/
namespace Sys2Proof.Machine

/-- Q_STATUS.STATE (R253). -/
inductive QState where
  | idle | running | grace | quiesce | saving | restoring | held | halted
  | tipinSource | tipinTarget | offline
  deriving DecidableEq, Repr

/-- Where a load or an atomic delivers its value: a general register, with the width in bytes and
whether it is sign-extended, or an FP register of 4 or 8 bytes (R85, R87). -/
inductive LoadDst where
  | g (rd : GReg) (bytes : Nat) (signed : Bool)
  | f (fd : FReg) (bytes : Nat)
  deriving DecidableEq, Repr

/-- What keeps a quire from issuing its next instruction: WAIT (R94), a load or atomic that awaits a
response from the host (tag of R555) or from another node (link tag of R418), with the instruction's length, address and access
kind (R237), a far atomic that
returns a value (R570), or CINV of L2 (R273). -/
inductive Stall where
  | none
  | wait
  | host (tag : BitVec 10) (dst : LoadDst) (len : Nat) (va : W64) (acc : Nat)
  | remote (tag : BitVec 12) (dst : LoadDst) (len : Nat) (va : W64) (acc : Nat)
  | atomic (dst : LoadDst)
  | cinvL2
  deriving DecidableEq, Repr

/-- A pending STORE_ERROR (R247): the first byte's address, the entry reference and OVF. -/
structure StoreErr where
  addr : W64
  entry : W32
  ovf : Bool
  deriving DecidableEq, Repr

/-- One tile register (R130 to R137, R155 to R157). -/
structure Tile where
  /-- configured by TCFG -/
  cfg : Bool := false
  /-- descriptor (R134); 0 while unconfigured -/
  desc : BitVec 64 := 0
  data : BitVec 131072 := 0
  scales : BitVec 8192 := 0
  /-- row-poison mask (R157) -/
  rowPoison : BitVec 128 := 0
  /-- scale-poison mark (R157) -/
  scalePoison : Bool := false
  dirty : Bool := false
  /-- TSTAT.SLICED and the slice count (R137, R212) -/
  sliced : Bool := false
  slices : BitVec 4 := 0
  /-- ZERO: not written since its configure or TZERO (R156) -/
  zero : Bool := true
  deriving DecidableEq, Repr

/-- An accumulator (R170 to R173): 128 × 128 words, its tag, poison marks and dirty bit. -/
structure Acc where
  words : BitVec 524288 := 0
  /-- tag as PSTAT encodes it -/
  tag : BitVec 2 := 0
  poison : BitVec 16 := 0
  dirty : Bool := false
  deriving DecidableEq, Repr

/-- The 16 counters of a unit (R538). -/
structure Counters where
  event : Vector W16 16 := Vector.replicate 16 0
  count : Vector W64 16 := Vector.replicate 16 0
  shadow : Vector W64 16 := Vector.replicate 16 0
  /-- how many times its configuration changed, for CFGCHG of R540 -/
  cfgVer : Nat := 0
  deriving DecidableEq, Repr

/-- Directory state of a line held in an L2 (R272). -/
inductive LineSt where
  | modified | exclusive | shared
  deriving DecidableEq, Repr

/-- A committed instruction that had not reached its unit when its context stopped (R257). -/
structure PendingEntry where
  words : W64
  op1 : W64
  op2 : W64
  ctl : W64
  seq : W64
  deriving DecidableEq, Repr

/-- A quire: Tehus core, vector unit, tiles, press, caches and context engine. -/
structure Quire where
  /-- Q_STATUS.STATE; IDLE once a quire is in service, OFFLINE before (R253) -/
  st : QState := .offline
  /-- Q_STATUS.RESULT (R253) -/
  result : BitVec 8 := 0
  /-- QID.CTXID, Q_STATUS.CTXID (R78, R253) -/
  ctx : CtxId := 0
  /-- QID.LOGICAL of the context it holds (R78, R258) -/
  logical : BitVec 5 := 0
  /-- program counter, a multiple of 4 (R58) -/
  pc : BitVec 56 := 0
  g : Vector W64 64 := Vector.replicate 64 0
  f : Vector W64 32 := Vector.replicate 32 0
  /-- control registers by number (R68), unlisted ones at their reset value -/
  cr : List (Nat × W64) := []
  /-- deferred control-register writes before their CSYNC: number and old value (R72) -/
  deferred : List (Nat × W64) := []
  /-- those of them of which the instruction in execution uses the old value (R72) -/
  useOld : List Nat := []
  stall : Stall := .none
  /-- latched interrupts by number (R241) -/
  irq : BitVec 256 := 0
  /-- entry reference of the latched CORRECTED_ERROR (R234) -/
  ceEntry : W32 := 0
  storeErr : Option StoreErr := none
  /-- buffered stores to the host aperture or another node, oldest first: first byte's virtual
  address, 64-bit physical address, size in bytes and data (R247, R287) -/
  stores : List (W64 × Nat × Nat × Nat) := []
  v : Vector (BitVec 32768) 32 := Vector.replicate 32 0
  m : Vector (BitVec 4096) 8 := Vector.replicate 8 0
  /-- dirty bits of the groups v0-v3 to v28-v31 (bits 0 to 7) and of the masks (bit 8) (R106) -/
  vdirty : BitVec 9 := 0
  tile : Vector Tile 16 := Vector.replicate 16 {}
  acc : Vector Acc 2 := Vector.replicate 2 {}
  /-- lines held in L1I (R266) -/
  l1i : List Nat := []
  /-- lines held in L1D, with the data held (R267, R280) -/
  l1d : List (Nat × BitVec 512) := []
  /-- lines that replacement removed from L1D, with their data: the victim cache (R268) -/
  victim : List (Nat × BitVec 512) := []
  /-- coherent-tier lines held in L2, with their directory state and way (R270, R272) -/
  l2 : List (Nat × LineSt × Fin 16) := []
  /-- lines in the eviction buffer (R271) -/
  evict : List Nat := []
  /-- a clean and invalidation of L2 in progress: for CINV, and for an L2 or way change (R273, R277,
  R278) -/
  l2Cinv : Bool := false
  /-- that clean was asked for by R309: the CREATE, RESTORE or tip-in that needs it waits for it -/
  isoWait : Bool := false
  /-- segment cache: STBASE, segment and the 32 descriptor bytes (R302) -/
  segCache : List (Nat × Nat × BitVec 256) := []
  /-- quire TLB: STBASE, segment, page number with PS, and leaf entry (R302) -/
  tlb : List (Nat × Nat × Nat × W64) := []
  /-- the action the context engine is performing, by its Q_CTX_CTL code, and FULL (R250, R252) -/
  action : BitVec 4 := 0
  full : Bool := false
  /-- the context of a CREATE that waits for R309 -/
  nextCtx : CtxId := 0
  /-- GTIME at which the grace of R255 ends -/
  graceEnd : W64 := 0
  /-- committed instructions of a restored image, still to be replayed (R245, R257, R258) -/
  pendingList : List PendingEntry := []
  /-- save area the state was last saved to or restored from (R256) -/
  area : Option Nat := none
  /-- the context has been restored since its creation (R256) -/
  restored : Bool := false
  /-- the context last run since quire reset (R309) -/
  lastCtx : Option CtxId := none
  /-- counters of PRESSCLK that may have moved since they were last read or written (R185, R200) -/
  timed : List Nat := []
  /-- counter events of the instruction being executed, not yet added to the unit's counters (R538) -/
  events : List (W16 × Nat) := []
  deriving DecidableEq, Repr

/-- A tip-in in progress (R259): the logical quire, its source and spare, and how far it is. `image` is what
the spare restores: 0 the source's own, 1 an earlier committed image (R260). -/
structure TipIn where
  logical : Fin 32
  source : QuireId
  spare : QuireId
  quiesced : Bool := false
  saved : Bool := false
  restored : Bool := false
  rollback : Bool := false
  deriving DecidableEq, Repr

/-- An error-log record (R470). -/
structure ErrRec where
  gtime : W64
  unit : W16
  type : Byte
  flags : Byte
  seq : W32
  addr : W64
  synd : W32
  ctx : W16
  count : W16
  deriving DecidableEq, Repr

/-- A ring record (R533). -/
structure RingRec where
  gtime : W64
  code : W16
  info : W16
  seq : W32
  arg0 : W64
  arg1 : W64
  deriving DecidableEq, Repr

/-- An event on its way to a ring (R534): code, context if any, and arguments. -/
structure RingEvt where
  gtime : W64
  code : W16
  ctx : Option CtxId
  arg0 : W64
  arg1 : W64
  deriving DecidableEq, Repr

/-- A margin ring (R533 to R536), with the events its unit holds for the network (R534). -/
structure Ring where
  /-- the last 256 records, newest first; the first is RING_START (R535) -/
  recs : List RingRec := [⟨0, 1, 0, 0, 0, 0⟩]
  count : BitVec 40 := 1
  dropped : W16 := 0
  /-- events were dropped since the last record -/
  gap : Bool := false
  freeze : Bool := false
  autofrz : Bool := true
  frozen : Bool := false
  waiting : List RingEvt := []
  deriving DecidableEq, Repr

/-- An atomic in a far-atomic queue (R286): its target, operation, operands and who issued it. -/
structure FarAtomic where
  addr : Nat
  /-- width in bytes, 4 or 8 -/
  bytes : Nat
  op : BitVec 5
  b : W64
  /-- compare value of CAS -/
  cmp : W64
  /-- issuing quire, and whether it returns a value -/
  quire : Option QuireId
  posted : Bool
  /-- first byte's virtual address, for STORE_ERROR -/
  va : W64
  /-- the old value, once executed -/
  result : Option W64
  deriving DecidableEq, Repr

/-- A bank of a Tehus-S engine (R313, R363 to R367). Bank 8 is the fast bank: `ready` is ACTIVE, `free`
is IDLE. -/
inductive BankSt where
  | free | ready | running | waiting | blocked | frozen
  deriving DecidableEq, Repr

/-- Why a bank is BLOCKED (R364): MVGO waits for a slot or credits with its byte count, or a far load
missed the data cache: the address, and the instruction's modifier. -/
inductive Block where
  | none
  | mvgo (n : W32)
  | far (addr : W32) (modifier : Byte)
  deriving DecidableEq, Repr

/-- One bank of a Tehus-S engine. -/
structure Bank where
  /-- operand stack, top first, at most 16 words (R313) -/
  stack : List W32 := []
  pc : BitVec 18 := 0
  /-- FLAGS (R337) -/
  flags : W32 := 0
  acc : BitVec 40 := 0
  mph : W32 := 0
  mpl : W32 := 0
  /-- products not yet landed, oldest first, and whether a fractional one saturated (R316, R326) -/
  muls : List (W64 × Bool) := []
  rsp : W32 := 0
  rslimit : W32 := 0
  st : BankSt := .free
  stream : Option W16 := none
  /-- working mover descriptor, 16 words (R358, R363) -/
  mdesc : BitVec 512 := 0
  /-- stream-order position of the next byte MVGO issues -/
  issued : Nat := 0
  exc : Bool := false
  epc : W32 := 0
  eflags : W32 := 0
  ecause : W32 := 0
  eaddr : W32 := 0
  evpend : BitVec 6 := 0
  evirq : BitVec 6 := 0
  timer : W32 := 0
  /-- mask of the WAIT the bank is in (R365) -/
  waitMask : BitVec 6 := 0
  block : Block := .none
  /-- a pending STREAM_FAULT: status and stream (R366) -/
  fault : Option (Byte × W16) := none
  deriving DecidableEq, Repr

/-- A store of a Tehus-S instruction before it is performed: n bytes of the local data RAM or of a far-window physical
address, with their value, or a word of the register window (R328, R347). -/
inductive SStore where
  | ram (a n v : Nat)
  | far (p n v : Nat)
  | win (off : Nat) (v : W32)
  deriving DecidableEq, Repr

/-- A Tehus-S engine: a stitcher or a headband's engine (R312, R313, R331, R341). Engine reset enters vector 0
in bank 8 (R366). -/
structure Engine where
  banks : Vector Bank 9 := (Vector.replicate 9 {}).set 8 { st := .ready, exc := true }
  /-- banks that are READY, the one READY longest first (R364) -/
  order : List (Fin 9) := [8]
  sticky : W32 := 0
  trapen : W32 := 0
  crcCfg : W32 := 2
  crcLo : W32 := 0
  crcHi : W32 := 0
  decen : W32 := 0
  dwin : W32 := 0
  vbase : W32 := 0
  detctl : W32 := 0
  stwin : W32 := 0
  /-- SYNC-class writes not yet completed: special register and value, oldest first (R331) -/
  syncPend : List (Byte × W32) := []
  /-- deterministic mode in force (R371) -/
  det : Bool := false
  /-- local data RAM (R328), by byte address -/
  ram : List (Nat × Byte) := []
  /-- data-cache lines of the far window, at most 128, by local physical line address (R329) -/
  dcache : List (Nat × BitVec 512) := []
  halted : Bool := false
  /-- a headband's FAST_INTERRUPT request is pending (R366) -/
  fastReq : Bool := false
  /-- NESTING requests, oldest first: original vector and frozen bank (R366) -/
  nesting : List (BitVec 4 × Fin 9) := []
  /-- stopped at a boundary by a patch (R373) -/
  held : Bool := false
  /-- decodes custom opcodes from the image before the last commit (R374) -/
  oldImage : Bool := false
  /-- SYNC executed since the last decode commit (R374) -/
  synced : Bool := true
  /-- context banks receive streams: the first RETI of bank 8 is done (R366) -/
  open_ : Bool := false
  deriving DecidableEq, Repr

/-- What an outstanding read of a mover operation fetches from another node: source bytes, the prior destination of a
REDUCE, or an element of an index array (R352). -/
inductive Fetch where
  | src | dst | idx
  deriving DecidableEq, Repr

/-- A mover operation in a slot (R357, R358). -/
structure MoverOp where
  mover : Fin 16
  stream : W16
  engine : EngineId
  bank : Fin 9
  /-- descriptor the bank used -/
  mdesc : BitVec 512
  /-- stream-order position of its first byte -/
  start : Nat := 0
  /-- position of its next byte, and how many are left -/
  pos : Nat
  len : Nat
  /-- bytes contributed to a reduction that are not yet performed or abandoned (R358, R362) -/
  wait : Nat := 0
  /-- lands bytes that came from peers, and was not issued by the bank (R359, R362, R438) -/
  land : Bool := false
  /-- waits on a translation fault (R307) -/
  stalled : Bool
  /-- link tag of a request to another node, and how many bytes an outstanding write covers -/
  tag : Option (BitVec 12) := none
  wr : Nat := 0
  /-- an outstanding read: what for, offset in its first slot, and bytes -/
  fetch : Fetch × Nat × Nat := (.src, 0, 0)
  /-- bytes fetched from other nodes for the next positions: source, and prior destination of a REDUCE -/
  buf : List Byte := []
  dbuf : List Byte := []
  /-- the element of the index array for the present run, fetched from another node (R352) -/
  ibuf : List Byte := []
  deriving DecidableEq, Repr

/-- A stitch frame: instruction memory, decode images, movers and patch unit. -/
structure Frame where
  /-- instruction memory, by word index (R312, R372) -/
  imem : List (Nat × W32) := []
  /-- decode image in force and the one before the last commit, by word index (R374) -/
  dec : List (Nat × W32) := []
  decOld : List (Nat × W32) := []
  ops : List MoverOp := []
  /-- movers in service (R487) -/
  movers : BitVec 16 := 0xFFFF
  /-- the frame is in service -/
  inService : Bool := true
  patchBuf : List (Nat × W32) := []
  patchBusy : Bool := false
  patchDhold : Bool := false
  patchResult : Byte := 0
  patchCount : Nat := 0
  deriving DecidableEq, Repr

/-- The command a stream came from, when a host queue created it (R395). -/
structure Origin where
  queue : CtxId
  cid : W16
  quiet : Bool
  snap : W16
  /-- serial number of the STREAM command -/
  cmd : Nat
  deriving DecidableEq, Repr

/-- A stream-table entry that is not FREE (R349, R351), with what the frame keeps beside it. -/
structure Stream where
  /-- the 128 bytes of the entry, byte 0 in bits [7:0] -/
  raw : BitVec 1024 := 0
  /-- creation order (R355) -/
  order : Nat := 0
  /-- a DOORBELL held for dispatch (R356) -/
  doorbell : Bool := false
  origin : Option Origin := none
  /-- final status and detail, once it has ended (R360) -/
  ending : Option (Byte × W32) := none
  /-- snapshot sections latched at the start (R539) -/
  latch : List (Nat × W64 × Counters) := []
  /-- bytes of the landing buffer for which credits were granted, as a stream-order position (R359, R417) -/
  granted : Nat := 0
  /-- this member's contribution to a collated or collective reduction, by stream-order position (R362, R438) -/
  contrib : List (Nat × Byte) := []
  /-- effective priority (R463) -/
  prio : Nat := 0
  /-- the stitcher that ran it (R539) -/
  ran : Option EngineId := none
  /-- partials received from other ranks: tree level, position and bytes (R438) -/
  parts : List (Nat × Nat × List Byte) := []
  /-- chunks to land at the destination that wait for a mover slot: position and bytes (R357, R362, R438) -/
  rdy : List (Nat × List Byte) := []
  /-- the result of an all-reduce, by position, not yet sent down the tree (R437) -/
  down : List (Nat × Byte) := []
  /-- status and error-log entry of its first mover error (R360, R366) -/
  err : Option (Byte × W32) := none
  /-- progress records that wait for a link tag (R359, R416) -/
  recDue : List Nat := []
  deriving DecidableEq, Repr

/-- A translation-fault record held or written (R308). -/
structure FaultRec where
  stream : W16
  ctx : CtxId
  detail : W32
  va : W64
  gtime : W64
  kind : Byte
  deriving DecidableEq, Repr

/-- HST_DB_STAT.STATE (R386). -/
inductive QueueSt where
  | disabled | enabled | draining | fatal
  deriving DecidableEq, Repr

/-- An accepted command that has not completed (R390, R392). -/
structure Cmd where
  /-- the 64 bytes of the submission entry -/
  entry : BitVec 512
  /-- serial number, in submission order of the queue -/
  serial : Nat
  started : Bool := false
  /-- holds an execution slot (R400) -/
  slot : Bool := false
  /-- end codes that the quires of a LAUNCH wrote: logical quire and code (R394) -/
  ends : List (Nat × W32) := []
  /-- the stream a STREAM command created -/
  stream : Option W16 := none
  /-- quires still to act for a management command, and those that failed (R397) -/
  waiting : W32 := 0
  failed : W32 := 0
  /-- snapshot sections latched at the start: unit code, GTIME and counters, and those of quires latched at
  their Q_END (R539) -/
  latch : List (Nat × W64 × Counters) := []
  stop : List (Nat × W64 × Counters) := []
  deriving DecidableEq, Repr

/-- A submission queue and its completion ring (R384 to R388). -/
structure Queue where
  st : QueueSt := .disabled
  /-- the queue-table entry in force, 64 bytes (R385) -/
  cfg : BitVec 512 := 0
  sqTail : W16 := 0
  cqHead : W16 := 0
  sqHead : W16 := 0
  cqTail : W16 := 0
  phase : Bool := true
  busySt : Bool := false
  cmds : List Cmd := []
  /-- stream completions owed: stream and origin (R388) -/
  owed : List W16 := []
  /-- streams created by its commands and not ended (R395) -/
  streams : List W16 := []
  /-- credit of weighted service (R400) -/
  credit : Int := 0
  serial : Nat := 0
  deriving DecidableEq, Repr

/-- An outstanding Apnyx-to-host request that awaits a response (R555); a posted atomic's keeps its virtual address
for STORE_ERROR (R88, R247). -/
structure HostReq where
  tag : BitVec 10
  quire : QuireId
  post : Option W64 := none
  deriving DecidableEq, Repr

/-- The kinds of an Apnyx-to-host request, in the order of their codes 0x0 to 0x3 (R555). -/
inductive HostKind where
  | read | write | atomic | message
  deriving DecidableEq, Repr

/-- An Apnyx-to-host request as its header and beats give it (R375, R378, R555): tag 0 for a write or a message; the host
address of the first byte and the size in bytes; the operation and, in 16 bytes, the operands of an atomic; the CTXID; the
bytes that a write or a message writes. -/
structure HostTxn where
  kind : HostKind
  tag : BitVec 10
  addr : W64
  len : Nat
  op : BitVec 4 := 0
  ctx : CtxId
  data : List Byte := []
  deriving DecidableEq, Repr

/-- A host request into the register window (R375): a read under its tag; a write, whose tag is answered only when it is not
naturally aligned; or the second write of a management reset, with what the boot then finds. -/
inductive HostAsk where
  | read (tag : BitVec 10) (off : Nat) (wide : Bool)
  | write (tag : BitVec 10) (off : Nat) (wide : Bool) (v : W64)
  | reset (env : BootEnv)
  deriving DecidableEq, Repr

/-- A packet (R415): its header's fields and its data slots, whose number is LEN. -/
structure Packet where
  dest : BitVec 18
  src : BitVec 18
  pkey : W16
  ptype : BitVec 6
  tag : BitVec 12
  ord : Bool
  ph : Bool
  hops : BitVec 5
  addr : BitVec 46
  data : List (BitVec 128)
  deriving DecidableEq, Repr

/-- Who made a request that awaits its RSP (R416, R418): a quire's load or returning atomic; a quire's
store or posted atomic, by its virtual address; a mover operation of a stream. -/
inductive Requester where
  | load (i : QuireId)
  | store (i : QuireId) (va : W64)
  | mover (stream : W16)
  /-- a progress or completion record of a stream (R359, R360) -/
  | record (stream : W16)
  /-- abandoned by a timeout, its tag held (R418) -/
  | held
  deriving DecidableEq, Repr

/-- An outstanding tag (R416, R431). -/
structure Tag where
  tag : BitVec 12
  dest : BitVec 18
  pkey : W16
  who : Requester
  deriving DecidableEq, Repr

/-- A packet that waits at a port to be sent. -/
structure TxPkt where
  vc : Fin 8
  pkt : Packet
  /-- queued with ORD = 1 before an epoch switch with ORDHOLD (R429) -/
  old : Bool := false
  deriving DecidableEq, Repr

/-- A DATA flit in a replay buffer (R409): its SEQ, channel, credit, first header slot and slots. -/
structure TxFlit where
  seq : BitVec 12
  vc : Fin 8
  sh : Bool
  first : BitVec 4
  slots : List (BitVec 128)
  /-- the packet that begins in it -/
  pkt : Option Packet
  /-- an ORD = 1 packet sent before an epoch switch with ORDHOLD (R429) -/
  old : Bool := false
  /-- its count of R543 -/
  n : Nat := 0
  deriving DecidableEq, Repr

/-- A received packet, with the buffer credits that its consumption frees: shared or dedicated (R412). -/
structure RxPkt where
  vc : Fin 8
  pkt : Packet
  frees : List Bool
  deriving DecidableEq, Repr

/-- A packet of a virtual channel that has not yet arrived whole (R415). -/
structure RxPart where
  pkt : Packet
  missing : Nat
  frees : List Bool
  deriving DecidableEq, Repr

/-- A Lorotte port. -/
structure Port where
  /-- LNK_STATE.STATE (R442) -/
  st : BitVec 4 := 1
  /-- lanes locked, and lanes that failed their training (R406) -/
  locked : BitVec 4 := 0
  failed : BitVec 4 := 0
  /-- lanes in use: 0, 1, 2 or 4 (R407), and the number agreed (R421) -/
  lanes : Nat := 0
  agreed : Nat := 0
  reason : BitVec 4 := 0
  pnode : BitVec 18 := 0
  pport : BitVec 5 := 0
  pgen : W32 := 0
  ver : Byte := 0
  /-- back-off step, the HINT of the last NOT_READY, and GTIME at which the next CAP_REQ is due (R423) -/
  k : Nat := 0
  hint : Byte := 0
  capAt : Option W64 := none
  /-- packets waiting to be sent, oldest first -/
  txq : List TxPkt := []
  replay : List TxFlit := []
  nextSeq : BitVec 12 := 0
  expSeq : BitVec 12 := 0
  /-- RETRY_REQ sent, and no flit of the SEQ it named accepted since (R409) -/
  asked : Bool := false
  /-- an acknowledgement is owed -/
  ackDue : Bool := false
  /-- consecutive resends from the SEQ of the oldest unacknowledged flit -/
  resends : Nat := 0
  /-- credits held: dedicated per channel, and shared (R412) -/
  cred : Vector Nat 8 := Vector.replicate 8 0
  credSh : Nat := 0
  /-- credits to return -/
  ret : Vector Nat 8 := Vector.replicate 8 0
  retSh : Nat := 0
  part : Vector (Option RxPart) 8 := Vector.replicate 8 none
  rx : List RxPkt := []
  /-- DATA flits first sent, and accepted, since ACTIVE was entered (R543) -/
  nTx : Nat := 0
  nRx : Nat := 0
  /-- out of ACTIVE within LNK_HOLD.MS, with the packets held meanwhile (R433) -/
  holding : Bool := false
  held : List Packet := []
  /-- flits sent, newest first -/
  wire : List (BitVec 2048) := []
  deriving DecidableEq, Repr

/-- A text-block channel's scrubber and repair map (R477 to R480). Rows of a pass are numbered subarray by
subarray, subarray u = 32 × bank + subarray. -/
structure Txb where
  /-- next row of the pass -/
  row : Nat := 0
  /-- GTIME at which the pass began -/
  passStart : W64 := 0
  /-- column signature of the subarray being visited: column, symbols, corrected errors, rows seen -/
  sig : List (Nat × Byte × Nat × List Nat) := []
  /-- columns of the subarray classified in this pass -/
  classified : List Nat := []
  /-- corrected-error counts of rows, summed over passes -/
  rowCe : List (Nat × Nat) := []
  /-- guard columns assigned, by subarray -/
  guards : List (Nat × Nat) := []
  /-- spare rows used, by bank -/
  spares : List (Nat × Nat) := []
  /-- repairs in progress: subarray, column, symbols and the next row to rewrite -/
  repairs : List (Nat × Nat × Byte × Nat) := []
  /-- rows that wait to be spared, with the syndrome that made them due -/
  spareDue : List (Nat × W32) := []
  retAdv : W16 := 0
  deriving DecidableEq, Repr

/-- The wrapper instruction in force (R550). -/
inductive Wir where
  | bypass | ijtag | preload | extest | intest | clamp | safe
  deriving DecidableEq, Repr

/-- The whole block. -/
structure State where
  quires : Vector Quire 34 := Vector.replicate 34 {}
  /-- memory at local physical addresses, host aperture included (R261) -/
  mem : List Host.Cell := []
  /-- poisoned 64-byte lines, with the entry reference of the detection or 0 (R467, R469) -/
  poison : List (Nat × W32) := []
  /-- register-window registers by offset, unlisted ones at their reset value (00, R2) -/
  win : List (Nat × W64) := []
  /-- global time in nanoseconds (R79, R496) -/
  gtime : W64 := 0
  /-- far-atomic queue entries, oldest first (R286) -/
  atomics : List FarAtomic := []
  /-- cached leaf entries: CTXID, STBASE, segment, page number with PS, entry (R302) -/
  xlat : List (CtxId × Nat × Nat × Nat × W64) := []
  /-- cached context-table entries, 16 bytes (R293) -/
  ctxCache : List (CtxId × BitVec 128) := []
  /-- error-log banks 0 to 3, by slot (R470, R473) -/
  errBanks : Vector (List (Nat × ErrRec)) 4 := Vector.replicate 4 []
  /-- margin rings by unit code (R472, R532) -/
  rings : List (Nat × Ring) := []
  /-- counters by unit code (R538) -/
  counters : List (Nat × Counters) := []
  engines : Vector Engine 66 := Vector.replicate 66 {}
  frames : Vector Frame 4 := Vector.replicate 4 {}
  /-- stream-table entries that are not FREE, by stream ID (R349) -/
  streams : List (Nat × Stream) := []
  /-- streams created so far, for creation order -/
  streamOrder : Nat := 0
  /-- owner last dispatched, for the rotation of R355 -/
  lastOwner : CtxId := 0
  /-- fault records held in PENDING, oldest first (R308) -/
  xfqHeld : List FaultRec := []
  /-- GLB_XLAT_INV writes with their writers: the one in progress, then those held behind BUSY (R305) -/
  xlatInv : List (Source × W64) := []
  /-- halts of engines of which the active headband has been notified, the last first (R368) -/
  notices : List EngineId := []
  /-- submission queues by CTXID (R384) -/
  queues : List (Nat × Queue) := []
  /-- the context each logical quire is bound to (R397) -/
  bound : Vector (Option CtxId) 32 := Vector.replicate 32 none
  /-- requests sent to the host, message interrupts among them, newest first (R375, R378, R398, R555) -/
  hostOut : List HostTxn := []
  /-- host requests that wait for an earlier write held behind BUSY, oldest first (R376) -/
  hostHeld : List HostAsk := []
  /-- cached message-interrupt entries by vector (R398) -/
  msiCache : List (Nat × BitVec 128) := []
  /-- phase of the event ring (R399) -/
  evPhase : Bool := true
  /-- Apnyx-to-host requests that await a response (R555) -/
  hostReqs : List HostReq := []
  /-- responses given to host reads: tag, data and error, newest first (R375) -/
  hostRsps : List (BitVec 10 × W64 × Bool) := []
  /-- corrected array errors of each quire within the last second, newest first (R475) -/
  ceTimes : List (QuireId × W64) := []
  /-- failed folio banks and text-block channels (R487) -/
  folioFailed : BitVec 64 := 0
  txbFailed : BitVec 32 := 0
  /-- map of the folio and of the text block since the last block reset: 0 the whole tier, 1 or 2 its
  half h = 0 or 1, 3 unbacked (R487) -/
  folioMap : BitVec 2 := 0
  txbMap : BitVec 2 := 0
  /-- the tip-in in progress (R259) -/
  tipin : Option TipIn := none
  /-- straps, sampled at the release of rst_por_n (R556): HBM4 [1:0], LPDDR5X [3:2], CXL [6:4], links [30:7],
  host atomics [31] -/
  straps : W32 := 0
  /-- ports out of service (R487) -/
  portFailed : BitVec 24 := 0
  /-- ways and granule code last in force in each tier (R457) -/
  tierLast : Vector (Nat × Nat) 3 := Vector.replicate 3 (0, 0)
  /-- MGMT packets in the active headband's ring (R431) -/
  mgmt : List Packet := []
  /-- the Lorotte ports -/
  ports : Vector Port 24 := Vector.replicate 24 {}
  /-- outstanding tags (R416) -/
  tags : List Tag := []
  /-- packets of this node for this node -/
  localQ : List Packet := []
  /-- ORDHOLD of an epoch switch is in force, with the packets it holds (R429) -/
  ordHold : Bool := false
  ordHeld : List Packet := []
  /-- member and group tables of both epochs, and the key table, by router-window offset (R449) -/
  rte : List (Nat × Byte) := []
  /-- LINKGEN (R420) -/
  linkGen : W32 := 0
  /-- GTIME at which ODRAIN of the last flip has passed (R429) -/
  odrainEnd : W64 := 0
  /-- blk_present_o (R557) -/
  present : Bool := true
  wir : Wir := .bypass
  /-- register writes held behind a BUSY bit, oldest first: offset, writer and value (R462, R498, R505, R511) -/
  heldWrites : List (Nat × Source × W64) := []
  /-- domain transitions in progress: domain and the state to reach, as STATE codes it (R505 to R507) -/
  domMove : List (Nat × Nat) := []
  /-- domains whose save is committed (R504), and those whose save was lost (R520) -/
  domSaved : BitVec 86 := 0
  domLost : BitVec 86 := 0
  /-- steps the governor has applied, the last first: true for a lower point, false for less duty (R529) -/
  govSteps : List Bool := []
  /-- consecutive loops below 0.95 × CAPW and not hot (R529) -/
  govLow : Nat := 0
  /-- the faster point whose voltage has been requested (R499) -/
  vreq : Option (BitVec 2) := none
  /-- pw_droop_n is asserted (R530) -/
  droop : Bool := false
  /-- doorbell writes held in SLEEP: page, register offset and value (R514) -/
  doorbells : List (CtxId × Nat × W32) := []
  /-- a doorbell write found that buffer full (R514) -/
  dbDrop : Bool := false
  /-- the management reset is armed (R492) -/
  armed : Bool := false
  /-- result of the last TEST of a unit, by unit code (R488) -/
  tested : List (Nat × Bool) := []
  /-- units admitted that await their quiescent point, by unit code (R488) -/
  admits : List Nat := []
  /-- HB_SVC action in progress: ACTION and unit code (R488) -/
  svc : Option (Nat × Nat) := none
  /-- user calibration: valid TRAIN records, HBM4 stacks [7:0] and LPDDR5X channels [23:8]; valid LINKEQ
  records by port; the NODE record (R526) -/
  calTrain : BitVec 24 := 0
  calLink : BitVec 24 := 0
  nodeRec : Option (BitVec 18 × List (Nat × Byte)) := none
  txb : Vector Txb 32 := Vector.replicate 32 {}
  /-- GTIME of the last calibration of a memory channel, by unit code (R482) -/
  calAt : List (Nat × W64) := []
  /-- CXL links that the licensee's controllers report up (R453) -/
  cxlUp : BitVec 4 := 0
  /-- the debug network's copies of DBG_RING_SEL and DBG_CNT_SEL (R536, R538, R549) -/
  dbgRingSel : W32 := 0x100
  dbgCntSel : W32 := 0x100
  /-- answers on the dbg_ port: data and error, newest first (R548) -/
  dbgRsps : List (W32 × Bool) := []
  /-- MODEL FIELD, not the spec's: how many free values have been drawn (log entry 2) -/
  free : Nat := 0
  /-- the commands waiting, first in, first out -/
  pending : List Instr := []
  deriving DecidableEq, Repr

/-- Why a command stops the model. -/
inductive Fault where
  /-- Never raised: every command of this block either has its effect, takes the exception the spec
  names, or leaves the state as it is. Safe. -/
  | never
  deriving DecidableEq, Repr

/-- Why a command has no meaning. -/
inductive Refusal where
  /-- Raised by Dispatch for a command that has no meaning yet. Safe: the model stops. -/
  | notModelled (mnemonic : String)
  /-- Raised by `exec`'s meanings for a command that WellFormed.lean rejects: it names a unit, a
  register or a form that the block does not have. Safe: the model stops. -/
  | illFormed (reason : String)
  deriving DecidableEq, Repr

/-- What a meaning answers. -/
abbrev Res (State : Type) := Host.Outcome State Fault Refusal

/-- The block right after reset (R521): every register at its reset value, memory unlisted, the queue
empty. -/
def State.reset : State := {}

end Sys2Proof.Machine
end

