-- ==== Sys2Proof/Machine/Registers.lean ====
section
/-!
DEFINITION. The registers of the register window: offset, width, reset value and fields with their
access codes (R2), as each chapter's field tables give them; and the reset values of the Tehus
control registers (R68).
-/
namespace Sys2Proof.Machine

/-- The access codes of R2. Bits in no field are RSV. -/
inductive Access where
  | ro | rw | w1c | wo
  deriving DecidableEq, Repr

/-- A register, or an array of registers of one layout `stride` bytes apart. -/
structure RegDesc where
  base : Nat
  stride : Nat
  count : Nat
  /-- width in bits, 32 or 64 -/
  bits : Nat
  reset : W64
  /-- fields: most significant bit, least significant bit, access -/
  fields : List (Nat × Nat × Access)
  deriving DecidableEq, Repr

/-- A single register. -/
def reg1 (base bits : Nat) (reset : W64) (fields : List (Nat × Nat × Access)) : RegDesc :=
  ⟨base, 1, 1, bits, reset, fields⟩

/-- Whether a register of the array lies at this offset. -/
def RegDesc.hits (r : RegDesc) (off : Nat) : Bool :=
  decide (r.base ≤ off) && decide ((off - r.base) % r.stride = 0) &&
    decide ((off - r.base) / r.stride < r.count)

/-- Colophon and global registers (R18, R19, R564, R565, R8, R476, R291, R304, R307, R462). -/
def glbRegs : List RegDesc :=
  [ reg1 0x000 32 0 [(31, 20, .ro), (19, 16, .ro), (15, 12, .ro), (11, 8, .ro)],
    reg1 0x004 32 0 [(31, 0, .ro)],
    reg1 0x008 64 0 [(39, 32, .ro), (31, 24, .ro), (23, 20, .ro), (19, 16, .ro), (11, 11, .ro), (10, 10, .ro),
      (9, 9, .ro), (8, 8, .ro), (7, 7, .ro), (6, 6, .ro), (5, 5, .ro), (4, 4, .ro), (3, 3, .ro), (2, 2, .ro),
      (1, 1, .ro), (0, 0, .ro)],
    reg1 0x010 64 0 [(33, 0, .ro)],
    reg1 0x018 64 0 [(63, 0, .ro)],
    reg1 0x020 64 0 [(59, 56, .ro), (55, 40, .ro), (39, 32, .ro), (31, 0, .ro)],
    reg1 0x028 64 0 [(47, 0, .ro)],
    ⟨0x030, 8, 4, 64, 0, [(63, 56, .ro), (55, 48, .ro), (47, 40, .ro), (39, 32, .ro), (31, 24, .ro), (23, 16, .ro),
      (15, 8, .ro), (7, 0, .ro)]⟩,
    reg1 0x100 32 0 [(31, 31, .ro), (8, 8, .ro), (7, 7, .w1c), (6, 6, .w1c), (5, 5, .w1c),
      (4, 4, .w1c), (3, 3, .w1c), (2, 2, .ro), (1, 1, .w1c), (0, 0, .w1c)],
    reg1 0x110 32 0 [(31, 31, .w1c), (30, 30, .ro), (29, 28, .ro), (27, 0, .ro)],
    reg1 0x200 64 0 [(45, 17, .rw), (0, 0, .rw)],
    reg1 0x208 64 0 [(63, 63, .ro), (62, 60, .wo), (59, 48, .wo), (47, 44, .wo), (43, 17, .wo)],
    reg1 0x220 64 0 [(45, 12, .rw), (3, 0, .rw)],
    reg1 0x228 32 0x40 [(31, 31, .rw), (13, 8, .rw), (7, 0, .rw)],
    reg1 0x230 64 0 [(63, 48, .ro), (31, 16, .ro), (15, 0, .rw)],
    reg1 0x238 64 0 [(63, 62, .wo), (59, 48, .wo), (15, 0, .wo)],
    reg1 0x300 32 0 [(31, 31, .ro), (10, 8, .ro), (2, 0, .rw)] ]

/-- Quire windows, PQ00 at 0x010_0000 and 0x1_0000 apart (R250, R253, R274, R275, R394). -/
def quireRegs : List RegDesc :=
  [ ⟨0x100000, 0x10000, 34, 64, 0, [(27, 16, .wo), (4, 4, .wo), (3, 0, .wo)]⟩,
    ⟨0x100008, 0x10000, 34, 64, 0, [(39, 32, .ro), (27, 16, .ro), (3, 0, .ro)]⟩,
    ⟨0x100010, 0x10000, 34, 64, 0, [(55, 2, .rw)]⟩,
    ⟨0x100018, 0x10000, 34, 64, 0, [(45, 12, .rw)]⟩,
    ⟨0x100020, 0x10000, 34, 32, 20, [(7, 0, .rw)]⟩,
    ⟨0x100024, 0x10000, 34, 32, 0, [(7, 0, .wo)]⟩,
    ⟨0x100028, 0x10000, 34, 32, 0, [(31, 0, .wo)]⟩,
    ⟨0x100100, 0x10000, 34, 32, 0xF1, [(7, 4, .rw), (0, 0, .rw)]⟩,
    ⟨0x100108, 0x10000, 34, 32, 0xF0001, [(19, 16, .ro), (8, 8, .w1c), (1, 1, .ro), (0, 0, .ro)]⟩ ]

/-- Memory controllers, tiers and text-block channels (R283, R284, R454, R455, R458). -/
def memRegs : List RegDesc :=
  [ ⟨0x800000, 0x10000, 8, 32, 0, [(31, 20, .ro), (11, 8, .ro), (3, 0, .ro)]⟩,
    ⟨0x880000, 0x10000, 4, 32, 0, [(31, 20, .ro), (11, 8, .ro), (3, 0, .ro)]⟩,
    ⟨0x880008, 0x10000, 4, 32, 0, [(31, 20, .ro), (11, 8, .ro), (3, 0, .ro)]⟩,
    ⟨0x880010, 0x10000, 4, 32, 0, [(31, 20, .ro), (11, 8, .ro), (3, 0, .ro)]⟩,
    ⟨0x880018, 0x10000, 4, 32, 0, [(31, 20, .ro), (11, 8, .ro), (3, 0, .ro)]⟩,
    ⟨0x900000, 0x10000, 4, 32, 0, [(31, 20, .ro), (11, 8, .ro), (3, 0, .ro)]⟩,
    ⟨0x900008, 0x10000, 4, 32, 0, [(31, 31, .rw), (11, 0, .rw)]⟩,
    ⟨0x940000, 8, 3, 32, 0, [(31, 31, .rw), (22, 20, .ro), (18, 16, .ro), (6, 4, .rw), (2, 0, .rw)]⟩,
    ⟨0xA00000, 0x1000, 32, 32, 0, [(23, 16, .ro), (8, 8, .ro), (3, 0, .ro)]⟩,
    ⟨0xA00008, 0x1000, 32, 32, 0, [(31, 0, .ro)]⟩ ]

/-- The error log (R473 to R475). -/
def errRegs : List RegDesc :=
  [ ⟨0x30000, 8, 4, 64, 0, [(63, 32, .ro), (24, 16, .ro), (8, 0, .rw)]⟩,
    reg1 0x30020 64 0x0000010000000041#64 [(63, 63, .rw), (59, 48, .rw), (41, 40, .rw),
      (31, 31, .rw), (13, 8, .rw), (7, 0, .rw)],
    reg1 0x30028 32 0x00100400#64 [(23, 16, .rw), (15, 8, .rw)] ]

/-- Debug and trace (R536, R538, R539). DBG_RING_CTL, DBG_MARK and the counter window act on the unit
that a selection register names. -/
def dbgRegs : List RegDesc :=
  [ reg1 0x40000 32 0x0100 [(15, 8, .rw), (7, 0, .rw)],
    reg1 0x40008 64 0 [(63, 48, .ro), (47, 47, .ro), (39, 0, .ro)],
    reg1 0x40010 32 2 [(1, 1, .rw), (0, 0, .rw)],
    reg1 0x40018 64 0 [(63, 0, .wo)],
    reg1 0x40100 32 0x0100 [(15, 8, .rw), (7, 0, .rw)],
    ⟨0x40200, 8, 4, 64, 0, [(63, 48, .rw), (47, 32, .rw), (31, 16, .rw), (15, 0, .rw)]⟩,
    ⟨0x58000, 4, 16, 32, 0, [(15, 0, .rw)]⟩,
    ⟨0x58100, 8, 16, 64, 0, [(63, 0, .rw)]⟩,
    ⟨0x58200, 8, 16, 64, 0, [(63, 0, .ro)]⟩ ]

/-- Lorotte ports and the router (R440 to R448, R542). -/
def lnkRegs : List RegDesc :=
  [ ⟨0xC00000, 0x10000, 24, 32, 0xE1, [(7, 6, .rw), (5, 5, .rw), (4, 4, .rw), (3, 3, .rw), (0, 0, .rw)]⟩,
    ⟨0xC00008, 0x10000, 24, 32, 0, [(17, 0, .rw)]⟩,
    ⟨0xC00010, 0x10000, 24, 64, 1, [(63, 46, .ro), (45, 41, .ro), (31, 24, .ro), (15, 12, .ro), (9, 8, .ro),
      (3, 0, .ro)]⟩,
    ⟨0xC00018, 0x10000, 24, 64, 0, [(63, 48, .rw), (47, 32, .rw), (31, 16, .rw), (15, 0, .rw)]⟩,
    ⟨0xC00020, 0x10000, 24, 32, 10, [(15, 0, .rw)]⟩,
    ⟨0xC00028, 0x10000, 24, 32, 20, [(31, 31, .rw), (4, 0, .rw)]⟩,
    reg1 0xD80000 32 0 [(31, 31, .ro), (17, 0, .rw)],
    reg1 0xD80008 32 0 [(31, 31, .rw), (7, 0, .rw)],
    reg1 0xD80010 32 0x2003E8 [(23, 16, .rw), (15, 0, .rw)],
    reg1 0xD80018 32 0x140 [(31, 31, .ro), (11, 4, .rw), (2, 2, .wo), (1, 1, .wo), (0, 0, .ro)],
    reg1 0xD80020 64 0 [(45, 12, .rw), (3, 0, .rw)] ]

/-- Host port (R380 to R384, R399), and doorbell pages (R386), whose values the queues hold. -/
def hstRegs : List RegDesc :=
  [ reg1 0x4000 64 0xFFFF0FFFFFF0#64 [(47, 32, .ro), (27, 16, .ro), (15, 4, .ro), (0, 0, .ro)],
    reg1 0x4008 32 256 [(12, 0, .rw)],
    reg1 0x4010 64 0 [(63, 44, .rw)],
    reg1 0x4018 64 0 [(45, 18, .rw), (0, 0, .rw)],
    reg1 0x4020 64 0 [(45, 16, .rw)],
    reg1 0x4028 64 0 [(63, 63, .ro), (55, 52, .ro), (51, 48, .wo), (11, 0, .wo)],
    reg1 0x4030 64 0 [(45, 12, .rw), (11, 8, .rw), (0, 0, .rw)],
    reg1 0x4038 64 0 [(63, 52, .rw), (47, 32, .ro), (31, 16, .ro), (15, 0, .rw)],
    ⟨0x1000000, 0x1000, 4096, 32, 0, [(15, 0, .rw)]⟩,
    ⟨0x1000008, 0x1000, 4096, 32, 0, [(15, 0, .rw)]⟩,
    ⟨0x1000010, 0x1000, 4096, 32, 0, [(31, 0, .wo)]⟩,
    ⟨0x1000018, 0x1000, 4096, 64, 0, [(63, 48, .ro), (47, 32, .ro), (31, 16, .ro), (4, 4, .ro), (3, 3, .ro), (2, 0, .ro)]⟩ ]

/-- Stitch-frame windows, 0x10_0000 apart (R353, R356, R368, R372). -/
def sfRegs : List RegDesc :=
  [ ⟨0x400000, 0x100000, 4, 64, 0, [(59, 48, .wo), (45, 7, .wo)]⟩,
    ⟨0x400008, 0x100000, 4, 64, 0, [(63, 62, .wo), (59, 48, .wo), (15, 0, .wo)]⟩,
    ⟨0x400010, 0x100000, 4, 64, 0, [(46, 32, .ro), (30, 16, .ro), (6, 0, .ro)]⟩,
    ⟨0x400018, 0x100000, 4, 32, 0, [(31, 16, .ro), (15, 0, .ro)]⟩,
    ⟨0x400100, 0x100000, 4, 64, 0, [(63, 63, .wo), (10, 0, .wo)]⟩,
    ⟨0x400108, 0x100000, 4, 64, 0, [(63, 63, .ro), (62, 62, .ro), (55, 48, .ro), (15, 0, .ro)]⟩ ]

/-- Headbands (R488, R492). -/
def hbRegs : List RegDesc :=
  [ reg1 0x20000 32 0 [(31, 31, .ro), (27, 24, .ro), (23, 16, .ro), (11, 8, .ro), (5, 4, .ro), (3, 2, .ro), (0, 0, .ro)],
    reg1 0x20008 32 0 [(3, 0, .wo)],
    reg1 0x20010 64 0 [(63, 63, .ro), (59, 56, .ro), (51, 48, .wo), (47, 40, .wo), (39, 32, .wo)] ]

/-- Text-block scrub and repair (R480). -/
def txbRegs : List RegDesc :=
  [ ⟨0xA00100, 0x1000, 32, 32, 0x80180000#64, [(31, 31, .rw), (30, 30, .ro), (23, 16, .rw), (15, 0, .ro)]⟩,
    ⟨0xA00108, 0x1000, 32, 64, 0, [(44, 32, .ro), (25, 16, .ro), (15, 0, .ro)]⟩ ]

/-- Power, clock and reset (R498, R505, R511, R518, R520, R522, R527 to R531). -/
def pwrRegs : List RegDesc :=
  [ reg1 0x10000 32 0 [(31, 31, .ro), (27, 24, .ro), (17, 16, .ro), (1, 0, .wo)],
    reg1 0x10008 32 0x230 [(31, 31, .ro), (9, 8, .ro), (5, 4, .rw), (1, 0, .rw)],
    reg1 0x10010 32 950 [(9, 0, .rw)],
    reg1 0x10018 64 0x100000000000#64 [(63, 48, .ro), (44, 40, .ro), (31, 16, .ro), (2, 2, .ro), (1, 1, .ro), (0, 0, .ro)],
    reg1 0x10020 32 0x695F6400#64 [(31, 24, .rw), (23, 16, .rw), (15, 8, .rw), (7, 0, .ro)],
    reg1 0x10028 32 0x13F [(8, 8, .rw), (5, 5, .ro), (4, 4, .rw), (3, 3, .rw), (2, 2, .rw), (1, 1, .rw), (0, 0, .rw)],
    reg1 0x10030 32 0 [(31, 31, .ro), (30, 30, .ro), (29, 29, .ro), (28, 28, .ro), (12, 8, .ro), (2, 0, .ro)],
    reg1 0x10038 64 0 [(63, 0, .ro)],
    reg1 0x10040 64 0 [(63, 63, .rw), (62, 0, .rw)],
    reg1 0x10048 64 0 [(63, 0, .w1c)],
    reg1 0x10050 32 0 [(21, 0, .w1c)],
    reg1 0x10058 32 0 [(5, 5, .w1c), (4, 4, .w1c), (2, 2, .w1c), (1, 1, .w1c), (0, 0, .w1c)],
    reg1 0x10060 32 0 [(31, 31, .ro), (27, 24, .ro), (8, 8, .ro), (3, 0, .wo)],
    ⟨0x10100, 8, 86, 32, 0, [(31, 31, .ro), (19, 18, .ro), (8, 8, .rw), (1, 0, .rw)]⟩ ]

/-- Every register of the register window. -/
def winTable : List RegDesc :=
  glbRegs ++ hstRegs ++ quireRegs ++ sfRegs ++ memRegs ++ txbRegs ++ errRegs ++ dbgRegs ++ hbRegs ++ pwrRegs ++ lnkRegs

/-- The register at an offset. -/
def findReg (off : Nat) : Option RegDesc := winTable.find? (fun r => r.hits off)

/-- The reset value of the register at an offset. -/
def winReset (off : Nat) : W64 :=
  match findReg off with
  | some r => r.reset
  | none => 0

/-- The raw value of a register-window register. -/
def State.reg (s : State) (off : Nat) : W64 := sGet (winReset off) s.win off

/-- Replace the raw value of a register-window register. -/
def State.setReg (s : State) (off : Nat) (x : W64) : State :=
  { s with win := sSet (winReset off) s.win off x }

/-- A field of a register. -/
def State.fld (s : State) (off hi lo : Nat) : Nat := bits (s.reg off) hi lo

/-- Replace a field of a register. -/
def State.setFld (s : State) (off hi lo x : Nat) : State := s.setReg off (setBits (s.reg off) hi lo x)

/-- The bits of a register whose fields have one access code. -/
def RegDesc.maskOf (r : RegDesc) (a : Access) : W64 :=
  (r.fields.filter (fun f => f.2.2 = a)).foldl (fun m f => m ||| maskW 64 f.1 f.2.1) 0

/-- What a write stores (R2): RW fields take the value, RW1C bits written 1 clear, and the rest stays. -/
def RegDesc.written (r : RegDesc) (old v : W64) : W64 :=
  let rw := r.maskOf .rw
  (((old &&& ~~~ rw) ||| (v &&& rw)) &&& ~~~ (v &&& r.maskOf .w1c))

/-- Store a write in a register by its access codes. -/
def State.applyWrite (s : State) (off : Nat) (v : W64) : State :=
  match findReg off with
  | some r => s.setReg off (r.written (s.reg off) v)
  | none => s

/-- Reset (context-creation) value of a control register: STATUS R73, VTYPE R103, PLCFG R197,
PLNORM R199, SLCFG (08), every other one 0. ISA_VER R76 and ISA_FEAT R77 are fixed. -/
def crReset (n : Nat) : W64 :=
  match n with
  | 0x000 => 0x000F2000#64
  | 0x001 => 0x01000000#64
  | 0x002 => 0x3FFF#64
  | 0x031 => 0x003#64
  | 0x056 => 0x00FF8001#64
  | 0x058 => 0x3FB8AA3B#64
  | 0x05B => 7#64
  | _ => 0

/-- The value of a control register as stored. -/
def Quire.crGet (c : Quire) (n : Nat) : W64 := sGet (crReset n) c.cr n

/-- Store a control register. -/
def Quire.crSet (c : Quire) (n : Nat) (x : W64) : Quire := { c with cr := sSet (crReset n) c.cr n x }

end Sys2Proof.Machine
end

