-- ==== Sys2Proof/Machine/Ops.lean ====
section
/-!
DEFINITION. The named operations over the state: quires, free values, margin-ring events, memory, poison,
the physical map, message interrupts, the event ring and the error log.
-/
namespace Sys2Proof.Machine

/-! ## Quires and free values -/

/-- The quire of a physical number. -/
def State.q (s : State) (i : QuireId) : Quire := s.quires[i]

/-- Replace a quire. -/
def State.setQ (s : State) (i : QuireId) (c : Quire) : State := { s with quires := s.quires.set i c }

/-- Change a quire. -/
def State.modQ (s : State) (i : QuireId) (f : Quire → Quire) : State := s.setQ i (f (s.q i))

/-- Draw a value the spec leaves open (log entry 2). -/
def State.fresh (s : State) : W64 × State := (Config.freeValue s.free, { s with free := s.free + 1 })

/-- Put an entry into a set of `n` ways; which entry a full set gives up is a free value (R268; log entry 166). The entry
given up, and the list. -/
def State.putWay {α : Type} (s : State) (n : Nat) (inSet : α → Bool) (x : α) (l : List α) :
    (Option α × List α) × State :=
  if l.countP inSet < n then ((none, x :: l), s)
  else
    let d := s.fresh
    let t := pullNth inSet (d.1.toNat % n) l
    ((t.1, x :: t.2), d.2)

/-- A cached entry is used, or is held no longer and is read again: a free value where it differs from memory (R303; log
entry 4). -/
def State.cachedUse {α : Type} (s : State) (old : Option α) (agrees : α → Bool) : Option α × State :=
  match old with
  | none => (none, s)
  | some e =>
    if agrees e then (some e, s)
    else
      let d := s.fresh
      (if bit d.1 0 then some e else none, d.2)

/-- Whether a context runs on the quire, so that interrupts reach it (R253, R255). -/
def Quire.runs (c : Quire) : Bool := c.st = .running || c.st = .grace

/-! ## Unit codes and margin rings (R472, R532 to R535) -/

/-- A unit code: type and number (R472). -/
def unitCode (type inst : Nat) : Nat := type * 256 + inst

/-- How many instances of a unit type have a ring (R532). -/
def ringCount : Nat → Nat
  | 0x01 => 34 | 0x02 => 64 | 0x03 => 4 | 0x05 => 32 | 0x06 => 8 | 0x07 => 16 | 0x08 => 4
  | 0x09 => 24 | 0x0A => 1 | 0x0B => 2 | 0x0E => 24 | _ => 0

/-- How many instances of a unit type have counters (R532). -/
def counterCount : Nat → Nat
  | 0x01 => 34 | 0x02 => 64 | 0x03 => 4 | 0x04 => 1 | 0x05 => 32 | 0x06 => 8 | 0x07 => 16
  | 0x08 => 4 | 0x09 => 24 | 0x0A => 1 | 0x0C => 1 | _ => 0

/-- Whether a unit has a margin ring. -/
def hasRing (u : Nat) : Bool := decide (u % 256 < ringCount (u / 256))

/-- Whether a unit has counters. -/
def hasCounters (u : Nat) : Bool := decide (u % 256 < counterCount (u / 256))

/-- The ring of a unit. -/
def State.ring (s : State) (u : Nat) : Ring := sGet {} s.rings u

/-- Replace the ring of a unit. -/
def State.setRing (s : State) (u : Nat) (r : Ring) : State := { s with rings := sSet {} s.rings u r }

/-- A unit sends an event towards its ring (R534): it waits for the debug network, or, with 8 events
waiting, is dropped and counted. -/
def State.emit (s : State) (u code : Nat) (ctx : Option CtxId) (a0 a1 : W64) : State :=
  if hasRing u then
    let r := s.ring u
    if r.waiting.length < 8 then
      s.setRing u { r with waiting := r.waiting ++ [⟨s.gtime, BitVec.ofNat 16 code, ctx, a0, a1⟩] }
    else
      s.setRing u { r with
        dropped := if r.dropped = 0xFFFF#16 then r.dropped else r.dropped + 1, gap := true }
  else s

/-- The counters of a unit. -/
def State.cnt (s : State) (u : Nat) : Counters := sGet {} s.counters u

/-- Replace the counters of a unit. -/
def State.setCnt (s : State) (u : Nat) (c : Counters) : State :=
  { s with counters := sSet {} s.counters u c }

/-- An event adds n to every counter of the unit that selects it (R538). -/
def State.countEvent (s : State) (u : Nat) (event : W16) (n : Nat) : State :=
  let c := s.cnt u
  s.setCnt u { c with count := Vector.ofFn (fun i =>
    if c.event[i] = event then c.count[i] + BitVec.ofNat 64 n else c.count[i]) }

/-- Counter events that the commands of the block count one by one (R538). Every other event counts clocks, or what caches,
the fabric and devices do at times that no command shows (log entry 40). -/
def eventsCounted : List Nat :=
  [0x0101, 0x0108, 0x010C, 0x0110, 0x0111, 0x0112, 0x0204, 0x0300, 0x0301, 0x0303, 0x0502, 0x0503, 0x0504, 0x0507,
    0x0900, 0x0901, 0x0904, 0x0905, 0x0A00, 0x0A01, 0x0C00, 0x0C01]

/-- A counter of a unit is looked at: one that counts what no command counts has advanced by a free amount (log entry
40). -/
def State.settleCount (s : State) (u : Nat) (i : Fin 16) : State :=
  let c := s.cnt u
  if c.event[i] = 0 || eventsCounted.contains c.event[i].toNat then s
  else
    let d := s.fresh
    d.2.setCnt u { c with count := c.count.set i (c.count[i] + d.1) }

/-- Every counter of a unit is looked at. -/
def State.settleCounts (s : State) (u : Nat) : State := (List.finRange 16).foldl (fun s i => s.settleCount u i) s

/-! ## Memory and poison (R261, R467) -/

/-- What a byte that nothing has written reads as (log entry 3). -/
abbrev unlistedByte : Byte := 0

/-- The canonical form of memory. -/
abbrev memOk (m : List Host.Cell) : Bool := sOk (fun _ => unlistedByte) 0 m

/-- The byte at a local physical address. -/
def State.byte (s : State) (a : Nat) : Byte := sGet unlistedByte s.mem a

/-- Write one byte. -/
def State.setByte (s : State) (a : Nat) (b : Byte) : State :=
  { s with mem := sSet unlistedByte s.mem a b }

/-- The n bytes from a local physical address, little-endian (00). -/
def State.readN (s : State) : Nat → Nat → Nat
  | _, 0 => 0
  | a, n + 1 => (s.byte a).toNat + 256 * s.readN (a + 1) n

/-- Write bytes at successive addresses. -/
def State.writeList (s : State) : Nat → List Byte → State
  | _, [] => s
  | a, b :: r => (s.setByte a b).writeList (a + 1) r

/-- The mark of the 64-byte line at an address: poisoned, with its entry reference. -/
def State.poisonOf (s : State) (a : Nat) : Option W32 :=
  (s.poison.find? (fun e => e.1 = a / 64)).map (·.2)

/-- Whether any of n bytes lies in a poisoned line. -/
def State.poisonedIn (s : State) (a n : Nat) : Option W32 :=
  ((List.range n).findSome? (fun i => s.poisonOf (a + i)))

/-- Mark a line poisoned. -/
def State.setPoison (s : State) (a : Nat) (entry : W32) : State :=
  { s with poison := sInsert s.poison (a / 64) entry }

/-- Clear the mark of a line. -/
def State.clearPoison (s : State) (a : Nat) : State := { s with poison := sErase s.poison (a / 64) }

/-- Clear the marks of the lines that n bytes from a cover whole (R467). -/
def State.clearCovered (s : State) (a n : Nat) : State :=
  { s with poison := s.poison.filter (fun e => !(decide (a ≤ e.1 * 64) && decide (e.1 * 64 + 64 ≤ a + n))) }

/-- Store a little-endian value of n bytes (R467: whole lines lose their mark). -/
def State.writeN (s : State) (a n v : Nat) : State :=
  (s.writeList a (leBytes n v)).clearCovered a n

/-! ## The physical map (R261 to R263, R281, R451, R455, R487) -/

/-- The regions of R261. -/
inductive Region where
  | folio | text | hbm | lpd | cxl | window | host | reserved
  deriving DecidableEq, Repr

/-- The region of a local physical address (R261). -/
def regionOf (a : Nat) : Region :=
  if a < 0x40000000 then .folio
  else if 0x800000000 ≤ a ∧ a < 0x1000000000 then .text
  else if 0x10000000000 ≤ a ∧ a < 0x18000000000 then .hbm
  else if 0x20000000000 ≤ a ∧ a < 0x30000000000 then .lpd
  else if 0x40000000000 ≤ a ∧ a < 0x70000000000 then .cxl
  else if 0xF0000000000 ≤ a ∧ a < 0xF0010000000 then .window
  else if 0x100000000000 ≤ a ∧ a < 0x200000000000 then .host
  else .reserved

/-- The coherent tiers: those L2 caches (R264). -/
def Region.coherent : Region → Bool
  | .text | .hbm | .lpd | .cxl => true
  | _ => false

/-- Whether a region holds memory of the block: page tables and queues may lie there. -/
def Region.memory : Region → Bool
  | .folio => true
  | r => r.coherent

/-- First address of a tier's range. -/
def Region.base : Region → Nat
  | .text => 0x800000000
  | .hbm => 0x10000000000
  | .lpd => 0x20000000000
  | .cxl => 0x40000000000
  | .window => 0xF0000000000
  | .host => 0x100000000000
  | _ => 0

/-- Folio bank of an address (R279), with the half map of R487. -/
def folioBank (map : BitVec 2) (a : Nat) : Nat :=
  if map = 0 then Nat.xor (a / 2 ^ 9 % 64) (a / 2 ^ 15 % 64)
  else 32 * (map.toNat - 1) + Nat.xor (a / 2 ^ 9 % 32) (a / 2 ^ 14 % 32)

/-- Text-block channel of a tier offset (R281), with the half map of R487. -/
def txbChannel (map : BitVec 2) (x : Nat) : Nat :=
  if map = 0 then Nat.xor (Nat.xor (x / 2 ^ 10 % 32) (x / 2 ^ 15 % 32)) (x / 2 ^ 20 % 32)
  else 16 * (map.toNat - 1) +
    Nat.xor (Nat.xor (x / 2 ^ 10 % 16) (x / 2 ^ 14 % 16)) (x / 2 ^ 18 % 16)

/-- Offset of the STAT register of a tier's unit (R458). -/
def tierStat (r : Region) (n : Nat) : Nat :=
  match r with
  | .hbm => 0x800000 + n * 0x10000
  | .lpd => 0x880000 + n / 4 * 0x10000 + n % 4 * 8
  | _ => 0x900000 + n * 0x10000

/-- Offset of a tier's configuration register (R455). -/
def tierReg : Region → Nat
  | .hbm => 0x940000
  | .lpd => 0x940008
  | _ => 0x940010

/-- How many units a tier can have, and its first bit in GLB_AVAIL_MEM (R565). -/
def tierMax : Region → Nat × Nat
  | .hbm => (8, 32)
  | .lpd => (16, 40)
  | _ => (4, 56)

/-- The populated units of a tier in ascending order, with their capacities in bytes (R456, R458). -/
def State.tierUnits (s : State) (r : Region) : List (Nat × Nat) :=
  ((List.range (tierMax r).1).map (fun n => (n, s.fld (tierStat r n) 31 20 * 0x10000000))).filter
    (fun u => u.2 ≠ 0)

/-- Ways that a WAYS code names (R455). -/
def waysOf : Nat → Nat
  | 1 => 1 | 2 => 2 | 3 => 4 | 4 => 8 | 5 => 16 | 6 => 3 | _ => 0

/-- Granule that a GRAN code names (R455). -/
def granOf : Nat → Nat
  | 1 => 256 | 2 => 4096 | 3 => 65536 | 4 => 0x2000000 | _ => 256

/-- The unit of a concatenated tier, one way (R456). -/
def oneWay : List (Nat × Nat) → Nat → Option (Nat × Nat)
  | [], _ => none
  | (u, c) :: r, x => if x < c then some (u, x) else oneWay r (x - c)

/-- The unit and the offset in it that a tier offset maps to (R456). -/
def State.tierUnit (s : State) (r : Region) (x : Nat) : Option (Nat × Nat) :=
  let us := s.tierUnits r
  let w := waysOf (s.fld (tierReg r) 22 20)
  let g := granOf (s.fld (tierReg r) 18 16)
  if w ≤ 1 then oneWay us x
  else
    let c := (us.headD (0, 1)).2
    let xs := x % (w * c)
    let gi := xs / g
    (us[x / (w * c) * w + gi % w]?).map (fun u => (u.1, gi / w * g + xs % g))

/-- Whether the populated units of GLB_AVAIL_MEM include this one (R451). -/
def State.unitUp (s : State) (r : Region) (n : Nat) : Bool := bit (s.reg 0x20) ((tierMax r).2 + n)

/-- Register-window regions that the window map reserves (R379). -/
def windowReserved (off : Nat) : Bool :=
  (0x80000 ≤ off && off < 0x100000) || (0x320000 ≤ off && off < 0x400000) ||
  (0xE00000 ≤ off && off < 0x1000000) || 0x2000000 ≤ off

/-! ## The caches of a quire and the directory (R266 to R272) -/

/-- Set of a line in L1I, L1D and L2: 256, 128 and 4,096 sets of lines that follow one another (R266, R267, R270; log
entry 166). -/
def l1iSet (line : Nat) : Nat := line % 256
/-- Set of a line in L1D. -/
def l1dSet (line : Nat) : Nat := line % 128
/-- Set of a line in L2. -/
def l2Set (line : Nat) : Nat := line % 4096

/-- Set of a leaf in the spine's translation cache, of 1,024 sets (R302; log entry 166), by its page number with PS. -/
def xlatSet (page : Nat) : Nat := page / 2 % 1024

/-- The copy of a line that L1D or the victim cache holds. -/
def Quire.l1Copy (c : Quire) (line : Nat) : Option (BitVec 512) :=
  ((c.l1d ++ c.victim).find? (fun e => e.1 = line)).map (·.2)

/-- Whether a line overlaps n bytes from `a`. -/
def lineIn (a n line : Nat) : Bool := decide (a < line * 64 + 64) && decide (line * 64 < a + n)

/-- Invalidate L1D and victim copies of the lines n bytes from `a` overlap (R267). -/
def Quire.l1dDrop (c : Quire) (a n : Nat) : Quire :=
  { c with l1d := c.l1d.filter (fun e => !lineIn a n e.1), victim := c.victim.filter (fun e => !lineIn a n e.1) }

/-- Lose the L2 lines that `p` selects, with their L1D and victim copies (R270). -/
def Quire.l2Lose (c : Quire) (p : Nat → Bool) : Quire :=
  let out (n : Nat) : Bool := p n && c.l2.any (fun e => e.1 = n)
  { c with l2 := c.l2.filter (fun e => !p e.1), l1d := c.l1d.filter (fun e => !out e.1),
           victim := c.victim.filter (fun e => !out e.1) }

/-- A write by another agent invalidates every copy of a line but the writer's own (R272). -/
def State.dirWrite (s : State) (line : Nat) (but_ : Option QuireId) : State :=
  { s with quires := Vector.ofFn (fun j =>
      let c := s.quires[j]
      if but_ = some j then c else c.l2Lose (· = line)) }

/-- A read of a line that another L2 holds Modified makes that copy Shared, and every Exclusive one
too (R272). -/
def State.dirRead (s : State) (line : Nat) (but_ : Option QuireId) : State :=
  { s with quires := Vector.ofFn (fun j =>
      let c := s.quires[j]
      if but_ = some j then c
      else { c with l2 := c.l2.map (fun e => if e.1 = line then (e.1, .shared, e.2.2) else e) }) }

/-- Another agent's access to n bytes of a coherent tier goes through the directory (R272): a write invalidates L2 copies,
a read makes them Shared. -/
def State.dirSpan (s : State) (a n : Nat) (write : Bool) : State :=
  if !(regionOf a).coherent then s
  else { s with quires := Vector.ofFn (fun j =>
    let c := s.quires[j]
    if write then c.l2Lose (lineIn a n)
    else { c with l2 := c.l2.map (fun e => if lineIn a n e.1 then (e.1, .shared, e.2.2) else e) }) }

/-- A write of bytes by a unit other than a quire. -/
def State.dmaWrite (s : State) (a : Nat) (bs : List Byte) : State :=
  ((s.writeList a bs).clearCovered a bs.length).dirSpan a bs.length true

/-- A read of n bytes by a unit other than a quire. -/
def State.dmaRead (s : State) (a n : Nat) : Nat × State := (s.readN a n, s.dirSpan a n false)

/-! ### Power domains (R503, R505, R509) -/

/-- Whether the block is in SAFE HOLD (R476, R492). -/
def State.safeHold (s : State) : Bool := bit (s.reg 0x100) 31

/-- Whether the block does not serve: in SAFE HOLD, in reset, or stopped by a wrapper instruction (R492, R550,
R557). -/
def State.down (s : State) : Bool := s.safeHold || !s.present

/-- Offset of PWR_DOM of a domain (R505). -/
def pwrDom (d : Nat) : Nat := 0x10100 + 8 * d

/-- State of a domain, as PWR_DOM.STATE codes it: 0 ON, 1 GATED, 2 RETAINED, 3 OFF. -/
def State.domState (s : State) (d : Nat) : Nat := s.fld (pwrDom d) 19 18

/-- Domain of a unit of a tier (R503). -/
def tierDomain (r : Region) (n : Nat) : Nat :=
  match r with
  | .hbm => 79 + n / 4
  | .lpd => 81
  | .cxl => 82
  | _ => 83

/-- Unit type of a tier (R472). -/
def tierType : Region → Nat
  | .hbm => 6 | .lpd => 7 | .cxl => 8 | _ => 5

/-- Units of a domain: those of a tier. -/
def domainUnits (d : Nat) : List (Region × Nat) :=
  if d = 79 then (List.range 4).map (fun n => (.hbm, n))
  else if d = 80 then (List.range 4).map (fun n => (.hbm, n + 4))
  else if d = 81 then (List.range 16).map (fun n => (.lpd, n))
  else if d = 82 then (List.range 4).map (fun n => (.cxl, n))
  else []

/-- Give a unit's status register a STATE, with its ring event (R458, R532). -/
def State.setUnitState (s : State) (r : Region) (n v : Nat) : State :=
  let old := s.fld (tierStat r n) 3 0
  if old = v then s
  else (s.setFld (tierStat r n) 3 0 v).emit (unitCode (tierType r) n) 0x0504 none (BitVec.ofNat 64 old)
    (BitVec.ofNat 64 v)

/-- The text block's domain leaves or returns to ON: while it is away no pass time elapses, and `passStart` holds the
time that had (R480, R507). -/
def State.pausePass (s : State) (d : Nat) : State :=
  if d = 83 then { s with txb := s.txb.map (fun x => { x with passStart := s.gtime - x.passStart }) } else s

/-- An access to a tier unit or the text block whose domain is RETAINED: the domain returns to ON, and the access
is then served (R509). -/
def State.wakeDomain (s : State) (d : Nat) : State :=
  if s.domState d = 2 then
    let s := s.pausePass d
    (domainUnits d).foldl (fun s u =>
      if s.fld (tierStat u.1 u.2) 3 0 = 6 || s.fld (tierStat u.1 u.2) 3 0 = 7 then s.setUnitState u.1 u.2 3 else s)
      (s.setFld (pwrDom d) 19 18 0)
  else s

/-- The same, by the address of the access. -/
def State.wakeFor (s : State) (a : Nat) : State :=
  match regionOf a with
  | .text => s.wakeDomain 83
  | .hbm | .lpd | .cxl =>
    match s.tierUnit (regionOf a) (a - (regionOf a).base) with
    | some u => s.wakeDomain (tierDomain (regionOf a) u.1)
    | none => s
  | _ => s

/-- Whether an address is backed (R263): its unit is in service, its tier enabled and its domain not OFF
(R509). A CXL port whose EN is 0 issues nothing, and counts as out of service. An access to a reserved region of the
register window is unbacked, and not logged as a write to it through the window is (R263 against R6; log entry 185). -/
def State.backed (s : State) (a : Nat) : Bool :=
  match regionOf a with
  | .folio => s.folioMap ≠ 3 && (s.folioMap = 0 || a < 0x20000000) &&
      !bit s.folioFailed (folioBank s.folioMap a)
  | .text =>
    let x := a - 0x800000000
    s.txbMap ≠ 3 && (s.txbMap = 0 || x < 0x400000000) && bit (s.reg 0x20) (txbChannel s.txbMap x)
  | .hbm | .lpd | .cxl =>
    bit (s.reg (tierReg (regionOf a))) 31 &&
      (match s.tierUnit (regionOf a) (a - (regionOf a).base) with
       | some u => s.unitUp (regionOf a) u.1 && s.domState (tierDomain (regionOf a) u.1) ≠ 3 &&
           (regionOf a ≠ .cxl || bit (s.reg (0x900008 + u.1 * 0x10000)) 31)
       | none => false)
  | .window => !windowReserved (a - 0xF0000000000)
  | .host => true
  | .reserved => false

/-- Whether n bytes lie wholly in the folio or the text block. -/
def inFolioText (a n : Nat) : Bool :=
  within a n 0 0x40000000 || within a n 0x800000000 0x1000000000

/-- Whether n bytes lie wholly in the folio, the text block or the host aperture. -/
def inQueueSpace (a n : Nat) : Bool :=
  inFolioText a n || within a n 0x100000000000 0x200000000000

/-- The unit code of the controller an address belongs to (R472). -/
def State.unitOf (s : State) (a : Nat) : Nat :=
  match regionOf a with
  | .folio => unitCode 0x04 (folioBank s.folioMap a)
  | .text => unitCode 0x05 (txbChannel s.txbMap (a - 0x800000000))
  | .hbm => unitCode 0x06 ((s.tierUnit .hbm (a - Region.hbm.base)).getD (0, 0)).1
  | .lpd => unitCode 0x07 ((s.tierUnit .lpd (a - Region.lpd.base)).getD (0, 0)).1
  | .cxl => unitCode 0x08 ((s.tierUnit .cxl (a - Region.cxl.base)).getD (0, 0)).1
  | .host => unitCode 0x0C 0
  | _ => unitCode 0x0A 0

/-- This device's node ID (R262, R445). -/
def State.nodeId (s : State) : Nat := s.fld 0xD80000 17 0

/-! ## Interrupts of a quire (R241, R253) -/

/-- Latch interrupt n in the running context of a quire; ignored while none runs (R241, R253). -/
def State.raiseIrq (s : State) (i : QuireId) (n : Nat) : State :=
  if (s.q i).runs then s.modQ i (fun c => { c with irq := c.irq ||| BitVec.ofNat 256 (2 ^ n) }) else s

/-- Latch interrupt n on the quire a register field names. -/
def State.raiseIrqN (s : State) (pq n : Nat) : State :=
  if h : pq < 34 then s.raiseIrq ⟨pq, h⟩ n else s

/-- Whether TIMER is pending on a quire (R241). -/
def State.timerPending (s : State) (c : Quire) : Bool :=
  bit (c.crGet 0x01F) 63 && decide (bits (c.crGet 0x01F) 62 0 ≤ s.gtime.toNat)

/-- Bytes at some addresses hold whatever they hold after a loss of power or refresh (log entry 15); `inside` takes
whole lines. -/
def State.loseIf (s : State) (inside : Nat → Bool) : State :=
  { s with
    mem := (Config.lostMemory s.free).foldl (fun m c => if inside c.1 then sSet unlistedByte m c.1 c.2 else m)
      (s.mem.filter (fun c => !inside c.1)),
    poison := (Config.lostPoison s.free).foldl (fun m c => if inside (64 * c.1) then sInsert m c.1 c.2 else m)
      (s.poison.filter (fun c => !inside (64 * c.1))),
    free := s.free + 1 }

/-- The same for an address range. -/
def State.loseRange (s : State) (lo hi : Nat) : State := s.loseIf (fun a => decide (lo ≤ a) && decide (a < hi))

/-- The tier of an address is disabled (R455). -/
def State.tierOff (s : State) (a : Nat) : Bool :=
  match regionOf a with
  | .hbm | .lpd | .cxl => !bit (s.reg (tierReg (regionOf a))) 31
  | _ => false

/-! ## The error log (R470 to R476) -/

/-- The severities of R465, coded as the banks. -/
def errSeverity : Nat → Nat
  | 0x01 | 0x03 | 0x05 | 0x06 | 0x0E | 0x10 => 0
  | 0x0D => 2
  | 0x0F => 3
  | _ => 1

/-- An entry reference (R471). -/
def entryRef (bank : Nat) (seq : W32) (slot : Nat) : W32 :=
  BitVec.ofNat 32 (bank * 2 ^ 30 + (seq.toNat % 2 ^ 21) * 2 ^ 9 + slot)

/-- The record that a CORRECTED event merges into (R472). -/
def State.mergeSlot (s : State) (unit type : Nat) (addr : W64) : Option (Nat × ErrRec) :=
  let head := s.fld 0x30000 8 0
  let tail := s.fld 0x30000 24 16
  s.errBanks[0].find? (fun e =>
    e.2.unit.toNat = unit && e.2.type.toNat = type && e.2.addr = addr &&
    s.gtime.toNat ≤ e.2.gtime.toNat + 1000000 &&
    (e.1 + 384 - head) % 384 < (tail + 384 - head) % 384)

/-- A bank of the error log has no free slot (R473). -/
def State.errFull (s : State) (sev : Fin 4) : Bool :=
  (s.fld (0x30000 + 8 * sev.val) 24 16 + 1) % 384 = s.fld (0x30000 + 8 * sev.val) 8 0

/-- Raise the interrupt that ERR_CTL selects for a record of this severity (R474). -/
def State.notifyQuire (s : State) (sev : Nat) : State :=
  if s.fld 0x30020 41 40 ≤ sev && bit (s.reg 0x30020) 31 then s.raiseIrqN (s.fld 0x30020 13 8) (s.fld 0x30020 7 0) else s

/-- Write a record to the bank of severity `sev`, with what R473, R474 and R476 attach to it but for its
message interrupt; the answer holds its entry reference, 0 when it is dropped. -/
def State.logRec (s : State) (sev : Fin 4) (unit type flags : Nat) (addr : W64) (synd : W32)
    (ctx : Option CtxId) : W32 × State :=
  let ptr := 0x30000 + 8 * sev.val
  let head := s.fld ptr 8 0
  let tail := s.fld ptr 24 16
  let seq : W32 := BitVec.ofNat 32 (s.fld ptr 63 32)
  let full := s.errFull sev
  let s := if full then s.setFld 0x100 3 3 1 else s
  if full && 2 ≤ sev.val then (0, s)
  else
    let r : ErrRec := ⟨s.gtime, BitVec.ofNat 16 unit, BitVec.ofNat 8 type,
      BitVec.ofNat 8 (flags ||| 1 ||| (if ctx.isSome then 2 else 0)), seq, addr, synd,
      (ctx.getD 0).setWidth 16, 1⟩
    let s := { s with errBanks := s.errBanks.set sev (sInsert s.errBanks[sev] tail r) }
    let s := if full then s.setFld ptr 8 0 ((head + 1) % 384) else s
    let s := s.setFld ptr 24 16 ((tail + 1) % 384)
    let s := s.setFld ptr 63 32 ((seq + 1).toNat)
    let s := s.setFld 0x100 (4 + sev.val) (4 + sev.val) 1
    let s := if type = 0x07 then s.setFld 0x100 1 1 1 else s
    let s := s.notifyQuire sev.val
    let ref := entryRef sev.val seq tail
    let s := if type = 0x01 && unit / 256 = 1 then
        (if h : unit % 256 < 34 then
          (if (s.q ⟨unit % 256, h⟩).runs then
            (s.raiseIrq ⟨unit % 256, h⟩ 36).modQ ⟨unit % 256, h⟩ (fun c => { c with ceEntry := ref })
           else s)
         else s)
      else s
    (ref, s)

/-! ## Requests to the host (R375, R378, R555) -/

/-- A run of n bytes cut at the boundaries of aligned blocks of `b` bytes; `f` bounds the number of pieces. -/
def cutBlocks (b : Nat) : Nat → Nat → Nat → List (Nat × Nat)
  | 0, a, n => [(a, n)]
  | f + 1, a, n =>
    let k := b - a % b
    if n ≤ k then [(a, n)] else (a, k) :: cutBlocks b f (a + k) (n - k)

/-- A tag of the host port that is not outstanding: any one (R555; log entry 6). -/
def State.hostTag (s : State) : Option (BitVec 10 × State) :=
  let d := s.fresh
  let taken (t : BitVec 10) : Bool := s.hostReqs.any (fun r => r.tag = t)
  let t : BitVec 10 := d.1.setWidth 10
  if !taken t then some (t, d.2)
  else ((List.range 1024).find? (fun n => !taken (BitVec.ofNat 10 n))).map (fun n => (BitVec.ofNat 10 n, d.2))

/-- The host address of a local physical address in the host aperture (R378): HST_APBASE.BASE above the offset. -/
def State.hostAddr (s : State) (a : Nat) : W64 := BitVec.ofNat 64 (s.fld 0x4010 63 44 * 2 ^ 44 + (a - Region.host.base) % 2 ^ 44)

/-- Send a request of one kind to the host. -/
def State.hostSend (s : State) (x : HostTxn) : State := { s with hostOut := x :: s.hostOut }

/-- Reads of n bytes of the host aperture that are answered within the command (R375): one for each aligned block of 256
bytes, with a tag each. Elsewhere nothing is sent. -/
def State.hostRead (s : State) (ctx : CtxId) (a n : Nat) : State :=
  if regionOf a ≠ .host then s
  else (cutBlocks 256 (n / 256 + 1) a n).foldl (fun s e =>
    match s.hostTag with
    | some (t, s) => s.hostSend { kind := .read, tag := t, addr := s.hostAddr e.1, len := e.2, ctx := ctx }
    | none => s) s

/-- Writes of bytes to the host aperture (R375): one for each aligned block of 256 bytes. -/
def State.hostWrite (s : State) (ctx : CtxId) (a : Nat) (bs : List Byte) : State :=
  if regionOf a ≠ .host then s
  else (cutBlocks 256 (bs.length / 256 + 1) a bs.length).foldl (fun s e =>
    s.hostSend { kind := .write, tag := 0, addr := s.hostAddr e.1, len := e.2, ctx := ctx, data := (bs.drop (e.1 - a)).take e.2 }) s

/-! ## Message interrupts and device events (R398, R399) -/

/-- Whether a message-interrupt entry is well formed (R398). -/
def msiOk (e : BitVec 128) : Bool := bits e 127 97 = 0

/-- Send the message of an entry that is not masked (R398, R555). -/
def State.sendEntry (s : State) (ctx : CtxId) (e : BitVec 128) : State :=
  if bit e 96 then s
  else s.hostSend { kind := .message, tag := 0, addr := e.extractLsb' 0 64, len := 4, ctx := ctx,
                    data := leBytes 4 (bits e 95 64) }

/-- Address of the message-interrupt entry of a vector (R383). -/
def State.msiAddr (s : State) (vec : Nat) : Nat := s.fld 0x4020 45 16 * 0x10000 + 16 * vec

/-- The record of a failed read of a message-interrupt entry (R398, R469): poison, or an error response. Its entry
reference is 0 where it fails for no reason of the memory. -/
def State.msiRecord (s : State) (ctx : CtxId) (vec : Nat) : State :=
  let a := s.msiAddr vec
  match s.poisonedIn a 16 with
  | some ref => (s.logRec 1 0x0C00 0x08 0 (BitVec.ofNat 64 a) ref (some ctx)).2
  | none => (s.logRec 1 0x0C00 0x09 0 (BitVec.ofNat 64 a) 0 (some ctx)).2

/-- The message of a vector (R398): a masked or malformed entry sends nothing; an entry is cached unless it is malformed
or cannot be read, which `false` reports. -/
def State.tryMsi (s : State) (ctx : CtxId) (vec : Nat) : Bool × State :=
  let a := s.msiAddr vec
  match s.msiCache.find? (fun e => e.1 = vec) with
  | some e => (true, s.sendEntry ctx e.2)
  | none =>
    let r := s.dmaRead a 16
    let e : BitVec 128 := BitVec.ofNat 128 r.1
    if (s.poisonedIn a 16).isSome || !s.backed a then (false, r.2.msiRecord ctx vec)
    else if !msiOk e then (true, r.2)
    else (true, { r.2.sendEntry ctx e with msiCache := (vec, e) :: s.msiCache })

/-- ERR_CTL.VEC is raised for a record of this severity (R474). -/
def State.errMsi (s : State) (sev : Nat) : Bool := decide (s.fld 0x30020 41 40 ≤ sev) && bit (s.reg 0x30020) 63

/-- Raise a vector on behalf of a context (R398). The record of a read that fails raises ERR_CTL's vector in turn, but for
the vector whose message is still being issued. -/
def State.sendMsi (s : State) (ctx : CtxId) (vec : Nat) : State :=
  let r := s.tryMsi ctx vec
  if r.1 || !r.2.errMsi 1 || r.2.fld 0x30020 59 48 = vec then r.2
  else (r.2.tryMsi 0 (r.2.fld 0x30020 59 48)).2

/-- Write a record (`State.logRec`) and raise the vector that ERR_CTL selects for it (R474); one that is dropped raises
none. -/
def State.logBank (s : State) (sev : Fin 4) (unit type flags : Nat) (addr : W64) (synd : W32) (ctx : Option CtxId) :
    W32 × State :=
  let r := s.logRec sev unit type flags addr synd ctx
  (r.1, if r.2.errMsi sev.val && !(s.errFull sev && 2 ≤ sev.val) then r.2.sendMsi 0 (r.2.fld 0x30020 59 48) else r.2)

/-- Record an error of a type at its severity (R470), merging a CORRECTED event where R472 says so. -/
def State.logErr (s : State) (unit type flags : Nat) (addr : W64) (synd : W32) (ctx : Option CtxId) :
    W32 × State :=
  let sev : Fin 4 := Fin.ofNat 4 (errSeverity type)
  match (if sev.val = 0 then s.mergeSlot unit type addr else none) with
  | some (slot, r) =>
    let r' := { r with count := if r.count = 0xFFFF#16 then r.count else r.count + 1 }
    (entryRef 0 r.seq slot, { s with errBanks := s.errBanks.set 0 (sInsert s.errBanks[0] slot r') })
  | none => s.logBank sev unit type flags addr synd ctx

/-- Entries of the event ring (R399). -/
def State.evqSize (s : State) : Nat := 256 * 2 ^ s.fld 0x4030 11 8

/-- Room in the event ring: slots that can still be written. -/
def State.evqRoom (s : State) : Nat :=
  (s.fld 0x4038 15 0 + s.evqSize - s.fld 0x4038 31 16 - 1) % s.evqSize

/-- Write one event entry at TAIL and raise its vector (R399); both go to the host with CTXID 0 (log entry 182). -/
def State.writeEvent (s : State) (code : Nat) (ctx : CtxId) (detail : W32) : State :=
  let tail := s.fld 0x4038 31 16
  let a := s.fld 0x4030 45 12 * 0x1000 + 16 * tail
  let v := code + ctx.toNat * 2 ^ 16 + detail.toNat * 2 ^ 32 +
    ((s.gtime.toNat % 2 ^ 63) + (if s.evPhase then 2 ^ 63 else 0)) * 2 ^ 64
  let s := (s.dmaWrite a (leBytes 16 v)).hostWrite 0 a (leBytes 16 v)
  let tail' := (tail + 1) % s.evqSize
  let s := { s with evPhase := if tail' = 0 then !s.evPhase else s.evPhase }
  (s.setFld 0x4038 31 16 tail').sendMsi 0 (s.fld 0x4038 63 52)

/-- A device event (R399): one slot is held back for FATAL_DEVICE, an event without room counts in
LOST, and LOST_EVENTS goes first once there is room. -/
def State.deviceEvent (s : State) (code : Nat) (ctx : CtxId) (detail : W32) : State :=
  if !bit (s.reg 0x4030) 0 || (s.safeHold && code ≠ 4) then s
  else if code = 4 then (if s.evqRoom = 0 then s else s.writeEvent code ctx detail)
  else
    let lost := s.fld 0x4038 47 32
    let need := if lost ≠ 0 then 3 else 2
    if need ≤ s.evqRoom then
      let s := if lost ≠ 0 then
        (s.writeEvent 5 0 (BitVec.ofNat 32 lost)).setFld 0x4038 47 32 0 else s
      s.writeEvent code ctx detail
    else s.setFld 0x4038 47 32 (if lost = 0xFFFF then lost else lost + 1)

/-- A write-back that reaches a disabled tier is discarded and recorded (R457, R472); what the line then holds is
open (log entry 15). -/
def State.loseWrite (s : State) (line : Nat) : State :=
  ((s.logErr (s.unitOf (64 * line)) 0x0B 0 (BitVec.ofNat 64 (64 * line)) 0 none).2).loseRange (64 * line) (64 * line + 64)

/-! ## Rejected register-window writes (R5, R8, R9) -/

/-- SOURCE code of R8. -/
def sourceCode : Source → Nat
  | .host => 0 | .quire => 1 | .stitcher => 2 | .headband => 3 | .debug => 3

/-- Discard a write and record it (R5, R8). -/
def State.reject (s : State) (src : Source) (off : Nat) : State :=
  let s := s.setFld 0x100 0 0 1
  if bit (s.reg 0x110) 30 then s.setFld 0x110 31 31 1
  else s.setReg 0x110 (BitVec.ofNat 64
    (off % 2 ^ 28 + sourceCode src * 2 ^ 28 + 2 ^ 30 + (if bit (s.reg 0x110) 31 then 2 ^ 31 else 0)))

/-! ## Who reaches a register (R509, R514, R525, R558) -/

/-- Registers that the host reaches before boot completes (R525): the colophon, the global control registers and the
power, clock and reset region. -/
def earlyReg (off : Nat) : Bool := decide (off < 0x4000) || (decide (0x10000 ≤ off) && decide (off < 0x20000))

/-- Registers that the host reaches in SLEEP (R514). -/
def sleepReg (off : Nat) : Bool :=
  (decide (0x10000 ≤ off) && decide (off < 0x20000)) || off = 0x20000 || off = 0x20008

/-- Whether the block is in SLEEP (R511). -/
def State.asleep (s : State) : Bool := s.fld 0x10000 17 16 = 2

/-- The colophon has been populated since block reset (R19, R525). -/
def State.booted (s : State) : Bool := s.fld 0x004 31 0 ≠ 0

/-- Registers that the dbg_ port reaches (R548). -/
def debugReaches (off : Nat) : Bool :=
  (decide (0x40000 ≤ off) && decide (off < 0x80000)) || off = 0x20000 || off = 0x20008 ||
    (decide (0x10000 ≤ off) && decide (off < 0x20000)) || off < 0x50

/-- Windows of the quires, the stitch frames and the memory controllers (R379). -/
def spineWindow (off : Nat) : Bool :=
  (decide (0x100000 ≤ off) && decide (off < 0x320000)) || (decide (0x400000 ≤ off) && decide (off < 0xC00000))

/-- The spine has hung, or its domain is not ON: the host reaches no quire, stitcher or memory (R12, R492). -/
def State.spineOut (s : State) : Bool := (s.safeHold && s.fld 0x20000 27 24 = 5) || s.domState 72 ≠ 0

/-- Whether a host request reaches an offset at all: not while the block is absent (R558); in SLEEP it reaches the
always-on registers (R514); and no unit behind a spine that is out (R12). -/
def State.hostReaches (s : State) (off : Nat) : Bool :=
  s.present && (!s.asleep || sleepReg off) && !(s.spineOut && spineWindow off)

/-- A write of a register by a source, where the source reaches it. A host write before boot completes is logged outside
the early registers (R525). The debug network writes where R548 lets it, so that it submits no work (R11). Doorbell pages
have rules of their own. -/
def State.gate (s : State) (src : Source) (off : Nat) (f : State → State) : State :=
  match src with
  | .host =>
    if !s.hostReaches off then s
    else if !s.booted && !earlyReg off && !s.asleep then s.reject .host off
    else f s
  | .debug => if debugReaches off then f s else s
  | _ => f s

/-! ## The order of host requests (R376) -/

/-- A host write waits behind a BUSY bit, or requests wait behind one: a later request waits too. -/
def State.hostBlocked (s : State) : Bool :=
  !s.hostHeld.isEmpty || s.heldWrites.any (fun e => e.2.1 = .host) || (s.xlatInv.drop 1).any (fun e => e.1 = .host)

/-- A request that the host may have made: its requests are performed in the order of their arrival (R376). -/
def State.inOrder (s : State) (src : Source) (c : HostAsk) (f : State → Res State) : Res State :=
  if src = .host && s.present && s.hostBlocked then .next { s with hostHeld := s.hostHeld ++ [c] } else f s

/-- Quire-window register of a quire. -/
def qwin (i : QuireId) (off : Nat) : Nat := 0x100000 + i.val * 0x10000 + off

/-- A write in a quire's window: discarded without logging while CORE_nn is not ON (R509). -/
def State.quireGate (s : State) (i : QuireId) (src : Source) (off : Nat) (f : State → State) : State :=
  s.gate src (0x100000 + i.val * 0x10000 + off) (fun s => if s.domState i.val = 0 then f s else s)

end Sys2Proof.Machine
end

