-- ==== Sys2Proof/Machine/Debug.lean ====
section
/-!
DEFINITION. Margin rings, marks and counters (19_debug_profiling.md, R532 to R538).
-/
namespace Sys2Proof.Machine

/-! ## Rings (R533 to R535) -/

/-- DBG_RING_STAT.FROZEN (R536): the ring does not record. -/
def Ring.stopped (r : Ring) : Bool := r.freeze || r.frozen

/-- A ring takes an event (R533 to R535): a record, or, while it does not record, a drop. -/
def Ring.take (r : Ring) (e : RingEvt) : Ring :=
  if r.stopped then { r with dropped := if r.dropped = 0xFFFF#16 then r.dropped else r.dropped + 1, gap := true }
  else
    let info : W16 := BitVec.ofNat 16 ((if e.ctx.isSome then 2 ^ 15 else 0) + (if r.gap then 2 ^ 14 else 0) +
      ((e.ctx.map BitVec.toNat).getD 0))
    { r with recs := (⟨e.gtime, e.code, info, r.count.setWidth 32, e.arg0, e.arg1⟩ :: r.recs).take 256,
             count := r.count + 1, gap := false,
             frozen := r.autofrz && (e.code = 0x0103#16 || e.code = 0x0204#16) }

/-- The DEBUG domain is ON, so that rings record (R535). -/
def State.debugOn (s : State) : Bool := s.domState 85 = 0

/-- An event reaches the ring of its unit at once. -/
def State.record (s : State) (u code : Nat) (a0 a1 : W64) : State :=
  if hasRing u && s.debugOn then s.setRing u ((s.ring u).take ⟨s.gtime, BitVec.ofNat 16 code, none, a0, a1⟩) else s

/-- RING_EVENT (R534): the oldest event that waits for the debug network reaches its ring; while DEBUG is not ON
none is recorded. -/
def execRingEvent (u : W16) (s : State) : Res State :=
  let r := s.ring u.toNat
  match r.waiting with
  | [] => .next s
  | e :: rest =>
    let r := { r with waiting := rest }
    .next (s.setRing u.toNat (if s.debugOn then r.take e else r))

/-- The unit codes that have rings. -/
def ringUnits : List Nat :=
  (List.range 15).flatMap (fun t => (List.range (ringCount t)).map (unitCode t))

/-- Every ring is cleared and records RING_START (R535); FREEZE and AUTOFRZ are those given. -/
def State.ringStart (s : State) (keep : Bool) : State :=
  { s with rings := ringUnits.foldl (fun m u =>
      let r := sGet {} m u
      let fresh : Ring := { recs := [⟨s.gtime, 1, 0, 0, 0, 0⟩], waiting := r.waiting }
      sSet {} m u (if keep then { fresh with freeze := r.freeze, autofrz := r.autofrz } else fresh)) s.rings }

/-! ## Selection (R536, R538, R549) -/

/-- The access path of a writer: the debug network has its own copies. -/
def viaDebug : Source → Bool
  | .debug => true
  | _ => false

/-- Unit that DBG_RING_SEL of a path names. -/
def State.ringSel (s : State) (debug : Bool) : Nat :=
  if debug then s.dbgRingSel.toNat else s.fld 0x40000 15 0

/-- Unit that DBG_CNT_SEL of a path names. -/
def State.cntSel (s : State) (debug : Bool) : Nat :=
  if debug then s.dbgCntSel.toNat else s.fld 0x40100 15 0

/-- MARK (R536): a MARK event into the selected ring, through its unit's queue (R534). The debug network's 32-bit
writes cannot write DBG_MARK (R7). -/
def execMark (src : Source) (v : W64) (s : State) : Res State :=
  s.inOrder src (.write 0 0x40018 true v) fun s =>
  if src = .debug then .next (s.reject src 0x40018)
  else .next (s.gate src 0x40018 (fun s => s.emit (s.ringSel false) 2 none v (BitVec.ofNat 64 (sourceCode src))))

/-- A write of DBG_RING_CTL (R535, R536). -/
def State.ringCtl (s : State) (debug : Bool) (v : W32) : State :=
  let u := s.ringSel debug
  let r := s.ring u
  s.setRing u { r with freeze := bit v 0, autofrz := bit v 1, frozen := bit v 0 && r.frozen }

/-- FREEZE (R535, R536). -/
def execFreeze (src : Source) (v : W32) (s : State) : Res State :=
  s.inOrder src (.write 0 0x40010 false (v.setWidth 64)) fun s =>
    .next (s.gate src 0x40010 (fun s => s.ringCtl (viaDebug src) v))

/-! ## Counters (R538) -/

/-- A write of DBG_CNTn of the selected unit. -/
def State.countWrite (s : State) (debug : Bool) (n : Fin 16) (v : W64) : State :=
  let u := s.cntSel debug
  let c := s.cnt u
  s.setCnt u { c with count := c.count.set n v }

/-- COUNTER_WRITE (R538, R7): the debug network's 32-bit writes cannot write a count. -/
def execCounterWrite (src : Source) (n : Fin 16) (v : W64) (s : State) : Res State :=
  s.inOrder src (.write 0 (0x58100 + 8 * n.val) true v) fun s =>
  if src = .debug then .next (s.reject src (0x58100 + 8 * n.val))
  else .next (s.gate src (0x58100 + 8 * n.val) (fun s => s.countWrite false n v))

/-- Counter events of a unit type: the last code's low byte (R538). -/
def lastEvent : Nat → Nat
  | 0x01 => 0x12 | 0x02 => 4 | 0x03 => 4 | 0x04 => 3 | 0x05 => 7 | 0x06 => 4 | 0x07 => 4 | 0x08 => 4
  | 0x09 => 5 | 0x0A => 4 | 0x0C => 3 | _ => 0

/-- Whether an EVENT code may be selected for a unit (R538). -/
def eventOk (u : Nat) (e : Nat) : Bool := e = 0 || (e / 256 = u / 256 && decide (e % 256 ≤ lastEvent (u / 256)))

/-- A write of DBG_CNTCFGn of the selected unit. -/
def State.countCfg (s : State) (src : Source) (n : Fin 16) (v : W32) : State :=
  let u := s.cntSel (viaDebug src)
  let c := s.cnt u
  if eventOk u (v.toNat % 65536) then
    s.setCnt u { c with event := c.event.set n (v.setWidth 16),
                        cfgVer := if c.event[n] = v.setWidth 16 then c.cfgVer else c.cfgVer + 1 }
  else s.reject src (0x58000 + 4 * n.val)

/-- Counts copied to the shadows, at a 10 µs boundary (R482, R538). -/
def Counters.copied (c : Counters) : Counters := { c with shadow := c.count }

/-- TELEMETRY_SHADOW_COPY (R482, R538): every unit copies its counts into its shadows. -/
def execTelemetryShadowCopy (s : State) : Res State :=
  let s := (s.counters.map (·.1)).foldl State.settleCounts s
  .next { s with counters := s.counters.filterMap (fun e =>
    if e.2.copied = ({} : Counters) then none else some (e.1, e.2.copied)) }

end Sys2Proof.Machine
end

