-- ==== Sys2Proof/Machine/Numbers.lean ====
section
/-!
DEFINITION. Number formats and arithmetic rules (02_number_formats.md, R23 to R50).
Codes are natural numbers; finite values are exact, (−1)^neg × m × 2^e with m a natural number, and
every operation rounds its exact result once (R38).
-/
namespace Sys2Proof.Machine

/-- The rounding modes of R41. DYN is resolved before arithmetic starts. -/
inductive RMode where
  | rne | rtz | rdn | rup | sr
  deriving DecidableEq, Repr

/-- A sticky-flag group, laid out as R54 gives: IOV, IDZ, DZ, INV, OVF, UNF, INX in bits 6 to 0. -/
abbrev Flags := BitVec 8

/-- INX (R51). -/
abbrev fINX : Flags := 0x01#8
/-- UNF (R51). -/
abbrev fUNF : Flags := 0x02#8
/-- OVF (R51). -/
abbrev fOVF : Flags := 0x04#8
/-- INV (R51). -/
abbrev fINV : Flags := 0x08#8
/-- DZ (R51). -/
abbrev fDZ : Flags := 0x10#8
/-- IDZ (R51). -/
abbrev fIDZ : Flags := 0x20#8
/-- IOV (R51). -/
abbrev fIOV : Flags := 0x40#8

/-- A floating-point format of R23. `top` is the largest biased exponent that holds finite values,
`sub` says that patterns with exponent field 0 have values of their own (FP4, R29). -/
structure Fmt where
  ebits : Nat
  fbits : Nat
  bias : Nat
  top : Nat
  ieee : Bool
  sub : Bool
  deriving DecidableEq, Repr

/-- FP64 (R23). -/
def fp64 : Fmt := ⟨11, 52, 1023, 2046, true, false⟩
/-- FP32 (R23). -/
def fp32 : Fmt := ⟨8, 23, 127, 254, true, false⟩
/-- FP16 (R23). -/
def fp16 : Fmt := ⟨5, 10, 15, 30, true, false⟩
/-- BF16 (R23). -/
def bf16 : Fmt := ⟨8, 7, 127, 254, true, false⟩
/-- FP8-V (R26). -/
def fp8v : Fmt := ⟨4, 3, 7, 15, false, false⟩
/-- FP8-G (R27). -/
def fp8g : Fmt := ⟨5, 2, 15, 31, false, false⟩
/-- FP4 (R29). -/
def fp4 : Fmt := ⟨2, 1, 1, 3, false, true⟩

/-- Width of a format in bits (R23). -/
def Fmt.width (f : Fmt) : Nat := 1 + f.ebits + f.fbits

/-- The STRICT profile reaches only binary32 and binary64 (R37). -/
def Fmt.long (f : Fmt) : Bool := f.fbits = 52 || f.fbits = 23

/-- The value a code stands for. A NaN keeps its sign, whether it signals, and its payload below the
quiet bit, left-aligned in 51 bits (R37). -/
inductive FVal where
  | nan (neg signalling : Bool) (payload : Nat)
  | inf (neg : Bool)
  | fin (neg : Bool) (m : Nat) (e : Int)
  deriving DecidableEq, Repr

/-- The sign bit's weight in a format. -/
def Fmt.signBit (f : Fmt) : Nat := 2 ^ (f.ebits + f.fbits)

/-- The code of a zero: formats without a negative zero have one zero (R40). -/
def Fmt.zero (f : Fmt) (neg : Bool) : Nat := if f.ieee && neg then f.signBit else 0

/-- The code of an infinity; in a format without infinities, its NaN (R49). -/
def Fmt.infinity (f : Fmt) (neg : Bool) : Nat :=
  if f.ieee then (2 ^ f.ebits - 1) * 2 ^ f.fbits + (if neg then f.signBit else 0) else f.signBit

/-- The largest finite code (02, long-format limits and special codes). -/
def Fmt.maxFin (f : Fmt) (neg : Bool) : Nat :=
  f.top * 2 ^ f.fbits + (2 ^ f.fbits - 1) + (if neg then f.signBit else 0)

/-- The canonical quiet NaN of a long format (R24), the one NaN code of a short one (R26, R27, R29). -/
def Fmt.qnan (f : Fmt) : Nat :=
  if f.ieee then (2 ^ f.ebits - 1) * 2 ^ f.fbits + 2 ^ (f.fbits - 1) else f.signBit

/-- A quiet NaN that keeps a sign and a payload (R37). -/
def Fmt.nanOf (f : Fmt) (neg : Bool) (payload : Nat) : Nat :=
  f.qnan + (if neg then f.signBit else 0) + payload >>> (52 - f.fbits)

/-- The value of a code (R23, R26, R27, R29). With `flush`, a subnormal is read as the zero of its
sign (R40). -/
def Fmt.decode (f : Fmt) (flush : Bool) (x : Nat) : FVal :=
  let neg := (x / f.signBit) % 2 = 1
  let ef := (x / 2 ^ f.fbits) % 2 ^ f.ebits
  let ff := x % 2 ^ f.fbits
  if f.ieee then
    if ef = 2 ^ f.ebits - 1 then
      if ff = 0 then .inf neg
      else .nan neg (ff < 2 ^ (f.fbits - 1)) ((ff % 2 ^ (f.fbits - 1)) <<< (52 - f.fbits))
    else if ef = 0 then
      if flush then .fin neg 0 0 else .fin neg ff (1 - (f.bias : Int) - f.fbits)
    else .fin neg (2 ^ f.fbits + ff) ((ef : Int) - f.bias - f.fbits)
  else if ef = 0 then
    if ff = 0 then (if neg then .nan false false 0 else .fin false 0 0)
    else if f.sub then .fin neg ff (1 - (f.bias : Int) - f.fbits)
    else .fin false 0 0
  else .fin neg (2 ^ f.fbits + ff) ((ef : Int) - f.bias - f.fbits)

/-- One rounding of m / 2^k to an integer, on the magnitude (R41, R45). -/
def roundAt (md : RMode) (neg : Bool) (m k r16 : Nat) : Nat :=
  let n := m / 2 ^ k
  let rem := m % 2 ^ k
  let up : Bool := match md with
    | .rne => decide (2 ^ k < 2 * rem) || (decide (2 * rem = 2 ^ k) && decide (n % 2 = 1))
    | .rtz => false
    | .rdn => neg && decide (rem ≠ 0)
    | .rup => !neg && decide (rem ≠ 0)
    | .sr => decide (65536 ≤ rem * 65536 / 2 ^ k + r16)
  if up then n + 1 else n

/-- The overflow result of R49. -/
def Fmt.overflow (f : Fmt) (md : RMode) (sat neg : Bool) : Nat :=
  if sat then f.maxFin neg
  else match md with
    | .rne | .sr => f.infinity neg
    | .rtz => f.maxFin neg
    | .rdn => if neg then f.infinity true else f.maxFin false
    | .rup => if neg then f.maxFin true else f.infinity false

/-- Round the exact value (−1)^neg × m × 2^e to a format (R40, R45, R48, R49). `honour`: tiny results
are delivered as subnormals; otherwise they are flushed before rounding. -/
def Fmt.round (f : Fmt) (md : RMode) (honour sat neg : Bool) (m : Nat) (e : Int) (r16 : Nat) :
    Nat × Flags :=
  if m = 0 then (f.zero neg, 0)
  else
    let top : Int := (Nat.log2 m : Int) + e
    let emin : Int := 1 - (f.bias : Int)
    let tiny := decide (top < emin)
    if tiny && !honour then (f.zero neg, fUNF ||| fINX)
    else
      let lsb : Int := max top emin - f.fbits
      let k : Nat := (lsb - e).toNat
      let n : Nat := if lsb ≤ e then m * 2 ^ (e - lsb).toNat else roundAt md neg m k r16
      let inexact := decide (e < lsb) && decide (m % 2 ^ k ≠ 0)
      let fl : Flags := (if inexact then fINX else 0) |||
        (if inexact && tiny && (!f.sub || n = 0) then fUNF else 0)
      if n = 0 then (f.zero neg, fl)
      else
        let top' : Int := (Nat.log2 n : Int) + lsb
        if (f.top : Int) - f.bias < top' then (f.overflow md sat neg, fOVF ||| fINX)
        else
          let s := if neg then f.signBit else 0
          if n < 2 ^ f.fbits then (s + n, fl)
          else
            let ef := (top' + f.bias).toNat
            let ff := n / 2 ^ (Nat.log2 n - f.fbits) - 2 ^ f.fbits
            (s + ef * 2 ^ f.fbits + ff, fl)

/-- How one arithmetic operation rounds: its mode, the profile, the draw of R44 and SAT (R49). -/
structure Rnd where
  mode : RMode
  strict : Bool
  r16 : Nat
  sat : Bool
  deriving DecidableEq, Repr

/-- Whether a format's subnormals are honoured under a profile (R40). -/
def Fmt.honours (f : Fmt) (strict : Bool) : Bool := f.sub || (strict && f.long)

/-- A code read as an operand (R40). -/
def Fmt.read (f : Fmt) (strict : Bool) (x : Nat) : FVal := f.decode (!(strict && f.long)) x

/-- Whether a value is a NaN. -/
def FVal.isNan : FVal → Bool
  | .nan .. => true
  | _ => false

/-- Whether a value is a signalling NaN. -/
def FVal.isSnan : FVal → Bool
  | .nan _ s _ => s
  | _ => false

/-- The NaN delivered for NaN operands, in operand order (R24, R37). -/
def nanFrom (f : Fmt) (strict : Bool) (xs : List FVal) : Nat × Flags :=
  let fl : Flags := if xs.any FVal.isSnan then fINV else 0
  match xs.find? FVal.isNan with
  | some (.nan neg _ p) => (if strict && f.long then f.nanOf neg p else f.qnan, fl)
  | _ => (f.qnan, fl)

/-- An invalid operation: the canonical quiet NaN and INV (R24, R51). -/
def invalidOp (f : Fmt) : Nat × Flags := (f.qnan, fINV)

/-- The exact sum of two finite values, signed, with a common exponent. -/
def exactSum (na : Bool) (ma : Nat) (ea : Int) (nb : Bool) (mb : Nat) (eb : Int) : Int × Int :=
  let e := min ea eb
  let a : Int := (ma * 2 ^ (ea - e).toNat : Nat)
  let b : Int := (mb * 2 ^ (eb - e).toNat : Nat)
  ((if na then -a else a) + (if nb then -b else b), e)

/-- Round a finite signed sum; an exact zero takes the sign IEEE 754-2019 gives it (R37). -/
def roundSum (f : Fmt) (r : Rnd) (na : Bool) (ma : Nat) (ea : Int) (nb : Bool) (mb : Nat) (eb : Int) :
    Nat × Flags :=
  let se := exactSum na ma ea nb mb eb
  if se.1 = 0 then
    (f.zero (if ma = 0 && mb = 0 && na = nb then na else r.mode = .rdn), 0)
  else f.round r.mode (f.honours r.strict) r.sat (se.1 < 0) se.1.natAbs se.2 r.r16

/-- a + b on values (R90). -/
def addVals (f : Fmt) (r : Rnd) (a b : FVal) : Nat × Flags :=
  match a, b with
  | .fin na ma ea, .fin nb mb eb => roundSum f r na ma ea nb mb eb
  | .inf na, .inf nb => if na = nb then (f.infinity na, 0) else invalidOp f
  | .inf na, .fin .. => (f.infinity na, 0)
  | .fin .., .inf nb => (f.infinity nb, 0)
  | _, _ => nanFrom f r.strict [a, b]

/-- A value with its sign inverted; a NaN keeps its sign. -/
def FVal.negate : FVal → FVal
  | .fin n m e => .fin (!n) m e
  | .inf n => .inf (!n)
  | v => v

/-- a × b on values (R90). -/
def mulVals (f : Fmt) (r : Rnd) (a b : FVal) : Nat × Flags :=
  match a, b with
  | .fin na ma ea, .fin nb mb eb =>
    f.round r.mode (f.honours r.strict) r.sat (na != nb) (ma * mb) (ea + eb) r.r16
  | .inf na, .inf nb => (f.infinity (na != nb), 0)
  | .inf na, .fin nb mb _ => if mb = 0 then invalidOp f else (f.infinity (na != nb), 0)
  | .fin na ma _, .inf nb => if ma = 0 then invalidOp f else (f.infinity (na != nb), 0)
  | _, _ => nanFrom f r.strict [a, b]

/-- (a × b) + c with one rounding (R38, R92): 0 × ∞ is invalid even beside a quiet NaN. -/
def fmaVals (f : Fmt) (r : Rnd) (a b c : FVal) : Nat × Flags :=
  let zeroTimesInf : Bool := match a, b with
    | .fin _ m _, .inf _ => m = 0
    | .inf _, .fin _ m _ => m = 0
    | _, _ => false
  if zeroTimesInf then invalidOp f
  else if a.isNan || b.isNan || c.isNan then nanFrom f r.strict [a, b, c]
  else match a, b, c with
    | .fin na ma ea, .fin nb mb eb, .fin nc mc ec =>
      roundSum f r (na != nb) (ma * mb) (ea + eb) nc mc ec
    | .fin .., .fin .., .inf nc => (f.infinity nc, 0)
    | .inf na, .inf nb, .inf nc | .inf na, .fin nb _ _, .inf nc | .fin na _ _, .inf nb, .inf nc =>
      if (na != nb) = nc then (f.infinity nc, 0) else invalidOp f
    | .inf na, .inf nb, _ | .inf na, .fin nb _ _, _ | .fin na _ _, .inf nb, _ =>
      (f.infinity (na != nb), 0)
    | _, _, _ => nanFrom f r.strict [a, b, c]

/-- a / b on values (R90); in FAST a division by zero sets no flag (R37, R51). The quotient is formed
with 200 bits below the dividend and a sticky bit, so that it rounds once and correctly. -/
def divVals (f : Fmt) (r : Rnd) (a b : FVal) : Nat × Flags :=
  match a, b with
  | .fin na ma ea, .fin nb mb eb =>
    if mb = 0 then
      if ma = 0 then invalidOp f
      else (f.infinity (na != nb), if r.strict && f.long then fDZ else 0)
    else
      let k := 200 + Nat.log2 mb
      let num := ma * 2 ^ k
      f.round r.mode (f.honours r.strict) r.sat (na != nb)
        (2 * (num / mb) + (if num % mb = 0 then 0 else 1)) (ea - eb - k - 1) r.r16
  | .inf _, .inf _ => invalidOp f
  | .inf na, .fin nb _ _ => (f.infinity (na != nb), 0)
  | .fin na _ _, .inf nb => (f.zero (na != nb), 0)
  | _, _ => nanFrom f r.strict [a, b]

/-- √a on a value (R90): √−0 is −0, and the root of any other negative value is invalid. -/
def sqrtVal (f : Fmt) (r : Rnd) (a : FVal) : Nat × Flags :=
  match a with
  | .nan .. => nanFrom f r.strict [a]
  | .inf neg => if neg then invalidOp f else (f.infinity false, 0)
  | .fin neg m e =>
    if m = 0 then (f.zero neg, 0)
    else if neg then invalidOp f
    else
      let odd : Nat := (e % 2).toNat
      let m' := m * 2 ^ (200 + odd)
      let e' : Int := (e - odd - 200) / 2
      let root := Nat.sqrt m'
      f.round r.mode (f.honours r.strict) r.sat false
        (2 * root + (if root * root = m' then 0 else 1)) (e' - 1) r.r16

/-- The order of two values, none when one is a NaN. -/
def cmpVals (a b : FVal) : Option Ordering :=
  match a, b with
  | .fin na ma ea, .fin nb mb eb =>
    let d := (exactSum na ma ea (!nb) mb eb).1
    some (if d < 0 then .lt else if d = 0 then .eq else .gt)
  | .inf na, .inf nb => some (if na = nb then .eq else if na then .lt else .gt)
  | .inf na, .fin .. => some (if na then .lt else .gt)
  | .fin .., .inf nb => some (if nb then .gt else .lt)
  | _, _ => none

/-- The sign of a value. -/
def FVal.isNeg : FVal → Bool
  | .nan n _ _ => n
  | .inf n => n
  | .fin n _ _ => n

/-- The code of a value that the format holds exactly. -/
def Fmt.encode (f : Fmt) (v : FVal) : Nat :=
  match v with
  | .nan .. => f.qnan
  | .inf neg => f.infinity neg
  | .fin neg m e => (f.round .rtz true false neg m e 0).1

/-- minimumNumber and maximumNumber (R90): a NaN loses to a number, two NaNs give the canonical quiet
NaN, −0 is below +0, and INV is set for a signalling NaN. -/
def minMaxVals (f : Fmt) (wantMax : Bool) (a b : FVal) : Nat × Flags :=
  let fl : Flags := if a.isSnan || b.isSnan then fINV else 0
  if a.isNan && b.isNan then (f.qnan, fl)
  else if a.isNan then (f.encode b, fl)
  else if b.isNan then (f.encode a, fl)
  else
    let aLess : Bool := match cmpVals a b with
      | some .lt => true
      | some .eq => a.isNeg && !b.isNeg
      | _ => false
    (f.encode (if aLess = wantMax then b else a), fl)

/-- The class mask of R90, on the encoding. -/
def Fmt.classMask (f : Fmt) (x : Nat) : Nat :=
  match f.decode false x with
  | .nan _ s _ => if s then 2 else 1
  | .inf neg => if neg then 512 else 4
  | .fin neg m _ =>
    if m = 0 then (if neg then 64 else 32)
    else if m < 2 ^ f.fbits then (if neg then 128 else 16)
    else (if neg then 256 else 8)

/-- Narrow or widen a value to a float format (R48, R49, R50). A signalling NaN sets INV in a conversion that is exact by
type too (R51 against R48; log entry 174). -/
def toFloat (f : Fmt) (r : Rnd) (v : FVal) : Nat × Flags :=
  match v with
  | .nan neg s p =>
    (if f.ieee && r.strict && f.long then f.nanOf neg p else f.qnan, if s then fINV else 0)
  | .inf neg =>
    if r.sat then (f.maxFin neg, 0)
    else (f.infinity neg, if f.ieee then 0 else fINV)
  | .fin neg m e => f.round r.mode (f.honours r.strict) r.sat neg m e r.r16

/-- Convert a value to an integer in [lo, hi] (R49, R50): round, then saturate with INV; a NaN gives 0
and INV; a discarded fraction sets INX. A result that saturates sets INV alone (R49 against R50; log entry 173). -/
def toInt (lo hi : Int) (r : Rnd) (v : FVal) : Int × Flags :=
  match v with
  | .nan .. => (0, fINV)
  | .inf neg => (if neg then lo else hi, fINV)
  | .fin neg m e =>
    let k := (-e).toNat
    let n : Nat := if 0 ≤ e then m * 2 ^ e.toNat else roundAt r.mode neg m k r.r16
    let x : Int := if neg then -(n : Int) else n
    if x < lo then (lo, fINV)
    else if hi < x then (hi, fINV)
    else (x, if e < 0 && m % 2 ^ k ≠ 0 then fINX else 0)

/-- Convert an exact integer to a float format (R91). -/
def ofInt (f : Fmt) (r : Rnd) (x : Int) : Nat × Flags :=
  f.round r.mode (f.honours r.strict) r.sat (x < 0) x.natAbs 0 r.r16

/-- The E8S code of a value (R49): floor(log2 |x|) + 127, clamped to 0x00 to 0xFE; INX when x, which a negative value
always does, differs from 2^(code − 127). -/
def toE8S (v : FVal) : Nat × Flags :=
  match v with
  | .nan .. => (0xFF, fINV)
  | .inf _ => (0xFF, fINV)
  | .fin neg m e =>
    if m = 0 then (0, 0)
    else
      let l : Int := (Nat.log2 m : Int) + e
      let c : Int := l + 127
      let pow2 := m = 2 ^ Nat.log2 m
      if c < 0 then (0, fUNF ||| fINX)
      else if 0xFE < c then (0xFE, fOVF ||| fINX)
      else (c.toNat, if pow2 && !neg then 0 else fINX)

/-- The value of an E8S code (R30); 0xFF is the NaN scale. -/
def ofE8S (x : Nat) : FVal :=
  if x = 0xFF then .nan false false 0 else .fin false 1 ((x : Int) - 127)

/-- fold of R44. -/
def srFold (a b : W64) : W64 :=
  let p : BitVec 128 := a.setWidth 128 * b.setWidth 128
  p.extractLsb' 64 64 ^^^ p.extractLsb' 0 64

/-- One round of sr_draw. -/
def srRound (xy : W64 × W64) : W64 × W64 :=
  let x := srFold (xy.1 ^^^ 0x8E4B5D21C7A3F069#64) (xy.2 ||| 1#64)
  (x, xy.2 + x)

/-- sr_draw of R44: the 16-bit value drawn for one element. -/
def srDraw (seed : W64) (ctx : BitVec 12) (eng st : BitVec 2) (ph : BitVec 1) (seq : BitVec 47)
    (q : BitVec 5) (ks i j : BitVec 16) : Nat :=
  let w0 : W64 := ctx ++ eng ++ st ++ ph ++ seq
  let w1 : W64 := ks ++ (0#3 ++ q ++ 0#8) ++ i ++ j
  let xy := srRound (srRound (srRound (srRound (w0 ^^^ seed, w1 ^^^ 0x5F1CA93E6D07B2E5#64))))
  (xy.1.extractLsb' 48 16).toNat

end Sys2Proof.Machine
end

