-- ==== Sys2Proof/Machine/Xlate.lean ====
section
/-!
DEFINITION. Segments, pages and the context table (11_translation_isolation.md, R290 to R306).
A cached entry and the entry in memory can differ until an invalidation (R303): then either is used,
by a free value (log entry 4).
-/
namespace Sys2Proof.Machine

/-! ## The context table (R291 to R293) -/

/-- Whether the 32 bytes of a context-table entry are valid (R292, R293), EN apart. -/
def ctxEntryOk (e : BitVec 128) (upper : Nat) : Bool :=
  bit e 0 && bits e 63 32 = 0 && bits e 15 5 = 0 && bits e 127 110 = 0 && bits e 72 64 = 0 &&
  upper = 0 && !(bit e 2 && bits e 31 16 = 0)

/-- The read of a context's entry from memory, none when it is invalid (R291, R293). One that meets poison, or an error
response, makes the entry invalid for this use, and records it (R469). -/
def State.ctxRead (s : State) (c : CtxId) : Option (BitVec 128) × State :=
  let a := s.fld 0x200 45 17 * 0x20000 + 32 * c.toNat
  if !bit (s.reg 0x200) 0 then (none, s)
  else if !s.backed a then (none, (s.logErr (s.unitOf a) 0x09 0 (BitVec.ofNat 64 a) 0 (some c)).2)
  else match s.poisonedIn a 32 with
    | some ref => (none, (s.logErr (unitCode 0x0A 0) 0x08 0 (BitVec.ofNat 64 a) ref (some c)).2)
    | none =>
      let e : BitVec 128 := BitVec.ofNat 128 (s.readN a 16)
      let s := s.dirSpan a 32 false
      if ctxEntryOk e (s.readN (a + 16) 16) then
        (some e, { s with ctxCache := (c, e) :: s.ctxCache.filter (fun x => x.1 ≠ c) })
      else (none, s)

/-- The context-table entry of a context, none when invalid: cached, or read (R291, R293). -/
def State.ctxEntry (s : State) (c : CtxId) : Option (BitVec 128) × State :=
  let u := s.cachedUse ((s.ctxCache.find? (fun x => x.1 = c)).map (·.2)) (fun e => (s.ctxRead c).1 = some e)
  match u.1 with
  | some e => (some e, u.2)
  | none => u.2.ctxRead c

/-! ## Access kinds and faults -/

/-- What an access does (R296, R299): `fadd` is the atomic that the host aperture refuses (R264). -/
inductive Acc' where
  | fetch | load | store | atomic (fadd : Bool)
  deriving DecidableEq, Repr

/-- A translation fault: code, segment and level of R306. -/
structure XFault where
  code : Nat
  seg : Nat
  level : Nat
  deriving DecidableEq, Repr

/-- ESYND.DETAIL of a translation fault (R306). -/
def XFault.detail (f : XFault) : W32 :=
  BitVec.ofNat 32 (f.code * 2 ^ 24 + f.seg * 2 ^ 20 + f.level * 2 ^ 18)

/-- Codes 0x01 to 0x0A belong to the segment stage (R306). -/
def XFault.segment (f : XFault) : Bool := f.code ≤ 0x0A

/-- Whose translation is used, and at which privilege (R294, R296). -/
structure Xlator where
  ctx : CtxId
  /-- physical addressing: TCTL.EN = 0, or a stream with PHYS -/
  phys : Bool
  /-- the quire that translates, if one does: code 0x09 applies to PL0, and its TLB serves -/
  quire : Option QuireId
  stbase : Nat
  pl0 : Bool
  deriving DecidableEq, Repr

/-! ## Descriptors and the walk (R295 to R299) -/

/-- A segment descriptor is malformed (R295). -/
def segMalformed (d : BitVec 256) : Bool :=
  bits d 63 52 ≠ 0 || bits d 127 116 ≠ 0 || bits d 191 174 ≠ 0 || bits d 139 128 ≠ 0 ||
  bits d 255 208 ≠ 0 || bits d 203 199 ≠ 0 || bits d 205 204 = 3 ||
  bits d 51 0 > bits d 115 64 ||
  (bits d 205 204 = 1 && bits d 115 64 ≥ 2 ^ 43) ||
  (bits d 205 204 = 2 && (bit d 198 || bits d 115 64 ≥ 2 ^ 34))

/-- The segment-stage checks after the address and PL0 checks, in the order of R296. -/
def segCheck (d : BitVec 256) (k : Acc') (pl0 : Bool) (off : Nat) : Option Nat :=
  if !bit d 192 then some 0x02
  else if segMalformed d then some 0x0A
  else if off < bits d 51 0 then some 0x03
  else if off > bits d 115 64 then some 0x04
  else if pl0 && !bit d 197 then some 0x05
  else match k with
    | .fetch => if bit d 195 then none else some 0x08
    | .load => if bit d 193 then none else some 0x06
    | .store => if bit d 194 then none else some 0x07
    | .atomic _ =>
      if !bit d 193 then some 0x06 else if !bit d 194 then some 0x07
      else if !bit d 196 then some 0x08 else none

/-- Whether page tables and descriptors may lie at an address (R299). -/
def tableRegion (a : Nat) : Bool := (regionOf a).memory

/-- Page size in bytes (R297). -/
def pageSize (ps : Bool) : Nat := if ps then 2 ^ 34 else 2 ^ 25

/-- The leaf conditions of R298. -/
def leafOk (e : W64) (ps : Bool) : Bool :=
  bits e 11 4 = 0 && (if ps then bits e 33 12 = 0 else bits e 24 12 = 0)

/-- The walk of R299 from a table at level `lvl`: the leaf and its level, or the fault code and level. Entries are read
through the directory. -/
def State.walk (s : State) (off : Nat) (ps : Bool) : Nat → Nat → Nat → Except (Nat × Nat) (W64 × Nat) × State
  | 0, _, lvl => (.error (0x11, lvl), s)
  | fuel + 1, t, lvl =>
    let a := t + 8 * (off / 2 ^ (52 - 9 * lvl) % 512)
    if !s.backed a || (s.poisonedIn a 8).isSome then (.error (0x12, lvl), s)
    else
      let e : W64 := BitVec.ofNat 64 (s.readN a 8)
      let s := s.dirSpan a 8 false
      if !bit e 0 then (.error (0x10, lvl), s)
      else if bit e 1 then
        (if lvl = (if ps then 2 else 3) && leafOk e ps then .ok (e, lvl) else .error (0x11, lvl), s)
      else if lvl = 3 || bits e 63 46 ≠ 0 || bits e 11 2 ≠ 0 then (.error (0x11, lvl), s)
      else if !tableRegion (bits e 45 12 * 4096) then (.error (0x17, lvl), s)
      else s.walk off ps fuel (bits e 45 12 * 4096) (lvl + 1)

/-- A walk of a segment, from its root (R295, R299). -/
def State.walkSeg (s : State) (d : BitVec 256) (off : Nat) : Except (Nat × Nat) (W64 × Nat) × State :=
  let root := bits d 173 140 * 4096
  let lvl := bits d 205 204 + 1
  if tableRegion root then s.walk off (bit d 198) 3 root lvl else (.error (0x17, lvl), s)

/-- The leaf that a quire's TLB holds for a page (R302). -/
def State.tlbAt (s : State) (x : Xlator) (seg page : Nat) : Option W64 :=
  match x.quire with
  | none => none
  | some i => ((s.q i).tlb.find? (fun e => e.1 = x.stbase && e.2.1 = seg && e.2.2.1 = page)).map (·.2.2.2)

/-- Put a leaf into the TLB of the quire that translates, of 128 entries (R302). -/
def State.tlbPut (s : State) (x : Xlator) (seg page : Nat) (e : W64) : State :=
  match x.quire with
  | none => s
  | some i =>
    let rest := (s.q i).tlb.filter (fun e => !(e.1 = x.stbase && e.2.1 = seg && e.2.2.1 = page))
    let r := s.putWay 128 (fun _ => true) (x.stbase, seg, page, e) rest
    r.2.modQ i (fun c => { c with tlb := r.1.2 })

/-- An entry of the spine's translation cache is for this page (R302). -/
def xlatIs (x : Xlator) (seg page : Nat) (e : CtxId × Nat × Nat × Nat × W64) : Bool :=
  e.1 = x.ctx && e.2.1 = x.stbase && e.2.2.1 = seg && e.2.2.2.1 = page

/-- The leaf that the spine's translation cache holds for a page (R302). -/
def State.xlatAt (s : State) (x : Xlator) (seg page : Nat) : Option W64 :=
  (s.xlat.find? (xlatIs x seg page)).map (·.2.2.2.2)

/-- Put a leaf into the spine's translation cache, of 1,024 sets of 8 ways (R302). -/
def State.xlatPut (s : State) (x : Xlator) (seg page : Nat) (e : W64) : State :=
  let r := s.putWay 8 (fun e => xlatSet e.2.2.2.1 = xlatSet page) (x.ctx, x.stbase, seg, page, e)
    (s.xlat.filter (fun e => !xlatIs x seg page e))
  { r.2 with xlat := r.1.2 }

/-- The leaf for a page: from the quire's TLB, from the spine's translation cache or from memory (R302, R303). -/
def State.leaf (s : State) (x : Xlator) (seg : Nat) (d : BitVec 256) (off : Nat) :
    Except (Nat × Nat) (W64 × Nat) × State :=
  let ps := bit d 198
  let lvl := if ps then 2 else 3
  let page := 2 * (off / pageSize ps) + (if ps then 1 else 0)
  let agrees (e : W64) : Bool := match (s.walkSeg d off).1 with | .ok (n, _) => n = e | .error _ => false
  let a := s.cachedUse (s.tlbAt x seg page) agrees
  match a.1 with
  | some e => (.ok (e, lvl), a.2)
  | none =>
    let b := a.2.cachedUse (a.2.xlatAt x seg page) agrees
    match b.1 with
    | some e => (.ok (e, lvl), b.2.tlbPut x seg page e)
    | none =>
      let w := b.2.walkSeg d off
      match w.1 with
      | .ok (e, l) => (.ok (e, l), (w.2.xlatPut x seg page e).tlbPut x seg page e)
      | .error f => (.error f, w.2)

/-- The tests that follow the walk (R299), for a 64-bit physical address. -/
def State.physCheck (s : State) (x : Xlator) (k : Acc') (ro nx : Bool) (pa : Nat) :
    Option Nat × State :=
  let node := pa / 2 ^ 46
  let loc := pa % 2 ^ 46
  let remote : Bool := node ≠ s.nodeId
  let region := regionOf loc
  let isWrite : Bool := match k with | .store | .atomic _ => true | _ => false
  if isWrite && ro then (some 0x13, s)
  else if k = .fetch && (nx || remote || region = .window) then (some 0x15, s)
  else
    let linkRes : Option Nat × State :=
      if remote then
        let e := s.ctxEntry x.ctx
        match e.1 with
        | some en => (if bit en 2 then none else some 0x19, e.2)
        | none => (some 0x18, e.2)
      else (none, s)
    match linkRes.1 with
    | some c => (some c, linkRes.2)
    | none =>
      let s := linkRes.2
      if !remote && !s.backed loc then (some 0x14, s)
      else match k with
        | .atomic fadd =>
          if !remote && (region = .window || (region = .host && fadd)) then (some 0x16, s)
          else (none, if remote then s else s.wakeFor loc)
        | _ => (none, if remote then s else s.wakeFor loc)

/-- The 32 descriptor bytes at STBASE + 32k, or the code of the failing read (R301). -/
def State.readDesc (s : State) (a : Nat) : Except Nat (BitVec 256) × State :=
  if !tableRegion a then (.error 0x17, s)
  else if !s.backed a || (s.poisonedIn a 32).isSome then (.error 0x12, s)
  else (.ok (BitVec.ofNat 256 (s.readN a 32)), s.dirSpan a 32 false)

/-- Translate one byte's address with a given descriptor (R296, R299). -/
def State.xlateDesc (s : State) (x : Xlator) (k : Acc') (seg : Nat) (d : BitVec 256) (off : Nat) :
    Except XFault Nat × State :=
  match segCheck d k x.pl0 off with
  | some c => (.error ⟨c, seg, 0⟩, s)
  | none =>
    let l := s.leaf x seg d off
    match l.1 with
    | .error (c, lvl) => (.error ⟨c, seg, lvl⟩, l.2)
    | .ok (e, lvl) =>
      let pa := bits e 63 46 * 2 ^ 46 + bits e 45 12 * 4096 + off % pageSize (bit d 198)
      let p := l.2.physCheck x k (bit e 2) (bit e 3) pa
      match p.1 with
      | some c => (.error ⟨c, seg, lvl⟩, p.2)
      | none => (.ok pa, p.2)

/-- Translate one byte's address (R296, R299): a physical address with its node, or the fault. `desc`
supplies the descriptor of a segment, cached or read. -/
def State.xlateWith (s : State) (x : Xlator) (k : Acc') (va : W64)
    (desc : State → Nat → Except Nat (BitVec 256) × State) : Except XFault Nat × State :=
  if bits va 63 56 ≠ 0 || (x.phys && bits va 63 46 ≠ 0) then (.error ⟨0x01, 0, 0⟩, s)
  else if x.phys && x.quire.isSome && x.pl0 then (.error ⟨0x09, 0, 0⟩, s)
  else if x.phys then
    let pa := s.nodeId * 2 ^ 46 + bits va 45 0
    let p := s.physCheck x k false false pa
    match p.1 with
    | some c => (.error ⟨c, 0, 0⟩, p.2)
    | none => (.ok pa, p.2)
  else
    let seg := bits va 55 52
    let d := desc s seg
    match d.1 with
    | .error c => (.error ⟨c, seg, 0⟩, d.2)
    | .ok e => d.2.xlateDesc x k seg e (bits va 51 0)

/-! ## Quires -/

/-- The value of a deferred-class control register that the instruction in execution uses (R72): between a write and
its CSYNC the old or the new one, as was chosen when the instruction issued. -/
def Quire.crInUse (c : Quire) (n : Nat) : W64 :=
  match c.deferred.find? (fun e => e.1 = n) with
  | some e => if c.useOld.contains n then e.2 else c.crGet n
  | none => c.crGet n

/-- An instruction issues: of every deferred write that no CSYNC has completed it uses the old or the new value, by a
free value each (R72; log entry 165). -/
def State.chooseDeferred (s : State) (i : QuireId) : State :=
  let r := (s.q i).deferred.foldl (fun (acc : List Nat × State) e =>
    let d := acc.2.fresh
    (if bit d.1 0 then e.1 :: acc.1 else acc.1, d.2)) ([], s)
  if (s.q i).deferred.isEmpty then s else r.2.modQ i (fun c => { c with useOld := r.1 })

/-- Privilege level of a quire (R73). -/
def Quire.pl (c : Quire) : Nat := bits (c.crGet 0) 13 12

/-- The translator of a quire at a privilege level (R294, R296, R300, R301). -/
def State.quireXlator (s : State) (i : QuireId) (pl : Nat) : Xlator :=
  let c := s.q i
  ⟨c.ctx, !bit (c.crInUse 0x080) 0, some i, bits (c.crInUse 0x081) 45 9 * 512, pl = 0⟩

/-- A descriptor through a quire's segment cache, which holds the 16 of one STBASE (R302, R303). -/
def State.quireDesc (i : QuireId) (x : Xlator) (s : State) (seg : Nat) :
    Except Nat (BitVec 256) × State :=
  let a := x.stbase + 32 * seg
  let mine := (s.q i).segCache.filter (fun e => e.1 = x.stbase)
  let u := s.cachedUse ((mine.find? (fun e => e.2.1 = seg)).map (·.2.2))
    (fun d => match (s.readDesc a).1 with | .ok n => n = d | .error _ => false)
  match u.1 with
  | some d => (.ok d, u.2)
  | none =>
    let r := u.2.readDesc a
    match r.1 with
    | .ok d => (.ok d, r.2.modQ i (fun c =>
        { c with segCache := (x.stbase, seg, d) :: mine.filter (fun e => e.2.1 ≠ seg) }))
    | .error f => (.error f, r.2)

/-- Translate one byte's address for a quire at a privilege level. -/
def State.xlateQ (s : State) (i : QuireId) (pl : Nat) (k : Acc') (va : W64) :
    Except XFault Nat × State :=
  let x := s.quireXlator i pl
  s.xlateWith x k va (State.quireDesc i x)

/-- Translate the bytes of an access, lowest first, up to the first fault: the physical addresses of the
bytes before it, and the fault with its byte's address (R86, R296). -/
def State.xlateSpan (s : State) (i : QuireId) (pl : Nat) (k : Acc') :
    W64 → Nat → (List Nat × Option (W64 × XFault)) × State
  | _, 0 => (([], none), s)
  | va, n + 1 =>
    let r := s.xlateQ i pl k va
    match r.1 with
    | .error f => (([], some (va, f)), r.2)
    | .ok pa =>
      let t := r.2.xlateSpan i pl k (va + 1) n
      ((pa :: t.1.1, t.1.2), t.2)

/-- Translate every byte of an access: the physical addresses, or the first fault. -/
def State.xlateBytes (s : State) (i : QuireId) (pl : Nat) (k : Acc') (va : W64) (n : Nat) :
    Except (W64 × XFault) (List Nat) × State :=
  let t := s.xlateSpan i pl k va n
  (match t.1.2 with
   | some e => .error e
   | none => .ok t.1.1, t.2)

/-! ## Streams -/

/-- The translator of a stream of a context at a privilege level (R294, R296); none when the context's
entry is invalid. -/
def State.streamXlator (s : State) (c : CtxId) (pl0 : Bool) : Option Xlator × State :=
  let e := s.ctxEntry c
  match e.1 with
  | some en => (some ⟨c, bit en 4, none, bits en 109 73 * 512, pl0⟩, e.2)
  | none => (none, e.2)

/-- Translate one byte's address for a stream of a context; an invalid entry faults with code 0x18
(R293). -/
def State.xlateStream (s : State) (c : CtxId) (pl0 : Bool) (k : Acc') (va : W64) :
    Except XFault Nat × State :=
  let x := s.streamXlator c pl0
  match x.1 with
  | some t => x.2.xlateWith t k va (fun s seg => s.readDesc (t.stbase + 32 * seg))
  | none => (.error ⟨0x18, 0, 0⟩, x.2)

/-- Translate every byte of a stream's access. -/
def State.xlateStreamBytes (s : State) (c : CtxId) (pl0 : Bool) (k : Acc') :
    W64 → Nat → Except (W64 × XFault) (List Nat) × State
  | _, 0 => (.ok [], s)
  | va, n + 1 =>
    let r := s.xlateStream c pl0 k va
    match r.1 with
    | .error f => (.error (va, f), r.2)
    | .ok pa =>
      let t := r.2.xlateStreamBytes c pl0 k (va + 1) n
      match t.1 with
      | .error e => (.error e, t.2)
      | .ok ps => (.ok (pa :: ps), t.2)

end Sys2Proof.Machine
end

