-- ==== Sys2Proof/Machine/Completion.lean ====
section
/-!
DEFINITION. Queues and completion entries (R384 to R391, R397), snapshots (R539 to R541), the end of a
stream (R360), and the context-fatal sequence (R484, R485), which exceptions and units share.
-/
namespace Sys2Proof.Machine

/-! ## Queues -/

/-- The queue of a context. -/
def State.queue (s : State) (n : CtxId) : Queue := sGet {} s.queues n.toNat

/-- Replace the queue of a context. -/
def State.setQueue (s : State) (n : CtxId) (x : Queue) : State :=
  { s with queues := sSet {} s.queues n.toNat x }

/-- Field [hi:lo] of the queue-table entry in force, bit 0 of byte 0 being bit 0 (R385). -/
def Queue.ent (x : Queue) (hi lo : Nat) : Nat := bits x.cfg hi lo

/-- CQBASE (R385). -/
def Queue.cqBase (x : Queue) : Nat := x.ent 127 68 * 16
/-- SQBASE (R385). -/
def Queue.sqBase (x : Queue) : Nat := x.ent 63 6 * 64
/-- Completion entries (R385). -/
def Queue.cqSize (x : Queue) : Nat := x.ent 159 144 + 1
/-- Submission entries (R385). -/
def Queue.sqSize (x : Queue) : Nat := x.ent 143 128 + 1
/-- LIMIT (R385). -/
def Queue.limit (x : Queue) : Nat := x.ent 175 160
/-- WEIGHT (R385). -/
def Queue.weight (x : Queue) : Nat := x.ent 191 184
/-- STREAMQ (R385). -/
def Queue.streamQ (x : Queue) : Nat := x.ent 223 208
/-- SNAPBASE (R385). -/
def Queue.snapBase (x : Queue) : Nat := x.ent 365 332 * 4096
/-- QENTRY (R385). -/
def Queue.qentry (x : Queue) : Nat := x.ent 311 258 * 4

/-- OUTSTANDING (R386). -/
def Queue.outstanding (x : Queue) : Nat := x.cmds.length

/-- OWED of R388. -/
def Queue.owedCount (x : Queue) : Nat := x.cmds.length + x.owed.length

/-- FREE of R388. -/
def Queue.freeSlots (x : Queue) : Nat :=
  (x.cqHead.toNat + x.cqSize - x.cqTail.toNat - 1) % x.cqSize

/-- Write a completion entry at CQTAIL (R388, R391) and raise the queue's vector unless the command was
quiet (R398). -/
def State.writeCompletion (s : State) (n : CtxId) (cid : W16) (status kind : Nat) (snap : W16)
    (detail : W32) (quiet : Bool) : State :=
  let x := s.queue n
  let v := cid.toNat + status * 2 ^ 16 + kind * 2 ^ 24 + x.sqHead.toNat * 2 ^ 32 +
    snap.toNat * 2 ^ 48 + detail.toNat * 2 ^ 64 + bits s.gtime 40 10 * 2 ^ 96 +
    (if x.phase then 2 ^ 127 else 0)
  let a := x.cqBase + 16 * x.cqTail.toNat
  let s := (s.dmaWrite a (leBytes 16 v)).hostWrite n a (leBytes 16 v)
  let tail := (x.cqTail.toNat + 1) % x.cqSize
  let s := s.setQueue n { x with
    cqTail := BitVec.ofNat 16 tail, phase := if tail = 0 then !x.phase else x.phase }
  if bit x.cfg 207 && !quiet then s.sendMsi n (x.ent 203 192) else s

/-- A DRAINING queue that owes nothing is DISABLED (R384); a queue in the BUSY state leaves it at
LIMIT − ⌊LIMIT / 8⌋ (R401). -/
def Queue.settle (x : Queue) : Queue :=
  let x := if x.st = .draining && x.owedCount = 0 then { x with st := .disabled } else x
  if x.busySt && decide (x.outstanding ≤ x.limit - x.limit / 8) then { x with busySt := false } else x

/-! ## Snapshots (R539, R540) -/

/-- The units DBG_SNAPSET0 to DBG_SNAPSET3 name, in listed order. -/
def State.snapSet (s : State) : List Nat :=
  ((List.range 16).map (fun i => bits (s.reg (0x40200 + 8 * (i / 4))) (16 * (i % 4) + 15) (16 * (i % 4)))).filter
    (fun u => u ≠ 0)

/-- Latch units once each, in order (R539). -/
def State.latchUnits (s : State) (us : List Nat) : List (Nat × W64 × Counters) × State :=
  let us := us.eraseDups
  let s := us.foldl State.settleCounts s
  (us.map (fun u => (u, s.gtime, s.cnt u)), s)

/-- Bytes of a little-endian list of 16-bit words. -/
def bytes16 (l : List W16) : List Byte := l.flatMap (fun w => leBytes 2 w.toNat)

/-- Bytes of a little-endian list of 64-bit words. -/
def bytes64 (l : List W64) : List Byte := l.flatMap (fun w => leBytes 8 w.toNat)

/-- One snapshot section (R540): 0x140 bytes. -/
def snapSection (a b : Nat × W64 × Counters) : List Byte :=
  [BitVec.ofNat 8 (a.1 / 256), BitVec.ofNat 8 a.1,
    (if a.2.2.cfgVer = b.2.2.cfgVer then 0 else 1), 0, 0, 0, 0, 0] ++
  leBytes 8 a.2.1.toNat ++ leBytes 8 b.2.1.toNat ++ bytes16 b.2.2.event.toList ++
  bytes64 a.2.2.count.toList ++ bytes64 b.2.2.count.toList ++ List.replicate 8 0

/-- Write the snapshot block of a command (R540): the end of a unit latched at its start is the one already
latched, or is latched now. -/
def State.writeSnapshot (s : State) (n : CtxId) (cid : W16) (opc : Nat) (slot : W16)
    (start done : List (Nat × W64 × Counters)) : State :=
  let s := ((start.map (·.1)).filter (fun u => !done.any (fun d => d.1 = u))).foldl State.settleCounts s
  let stop := start.map (fun l => (done.find? (fun d => d.1 = l.1)).getD (l.1, s.gtime, s.cnt l.1))
  let head := leBytes 2 cid.toNat ++ leBytes 2 n.toNat ++
    [BitVec.ofNat 8 opc, BitVec.ofNat 8 start.length, 0, 0] ++
    leBytes 8 ((start.head?.map (fun e => e.2.1.toNat)).getD 0) ++ leBytes 8 s.gtime.toNat ++
    List.replicate 0x28 0
  let body := (start.zip stop).flatMap (fun p => snapSection p.1 p.2)
  let all := head ++ body
  let a := (s.queue n).snapBase + slot.toNat * 0x4000
  let block := all ++ List.replicate (0x4000 - all.length) 0
  (s.dmaWrite a block).hostWrite n a block

/-! ## Commands -/

/-- A field of a submission entry (R389): `size` bytes from byte `off`. -/
def Cmd.op (c : Cmd) (off size : Nat) : Nat := bits c.entry (8 * (off + size) - 1) (8 * off)

/-- OPC (R389). -/
def Cmd.opc (c : Cmd) : Nat := c.op 0 1
/-- CID (R389). -/
def Cmd.cid (c : Cmd) : W16 := BitVec.ofNat 16 (c.op 2 2)
/-- SNAP (R389). -/
def Cmd.snap (c : Cmd) : W16 := BitVec.ofNat 16 (c.op 4 2)
/-- FLG.QUIET (R389). -/
def Cmd.quiet (c : Cmd) : Bool := bit c.entry 8
/-- FLG.FENCE (R389). -/
def Cmd.fence (c : Cmd) : Bool := bit c.entry 9

/-- Replace the accepted command of a serial number. -/
def Queue.updCmd (x : Queue) (c : Cmd) : Queue :=
  { x with cmds := x.cmds.map (fun d => if d.serial = c.serial then c else d) }

/-- Complete an accepted command (R377, R391, R539): its snapshot block, then its entry; it leaves
OUTSTANDING and gives up its slot. -/
def State.completeCmd (s : State) (n : CtxId) (c : Cmd) (status : Nat) (detail : W32) : State :=
  let snap : W16 := if c.opc = 3 then 0xFFFF else c.snap
  let s := if snap ≠ 0xFFFF#16 then s.writeSnapshot n c.cid c.opc snap c.latch c.stop else s
  let s := s.writeCompletion n c.cid status 0 snap detail c.quiet
  let x := s.queue n
  s.setQueue n ({ x with cmds := x.cmds.filter (fun d => d.serial ≠ c.serial) } : Queue).settle

/-! ## Streams -/

/-- A field of a stream entry: `size` bytes from offset `off` (R351). -/
def Stream.u (x : Stream) (off size : Nat) : Nat := bits x.raw (8 * (off + size) - 1) (8 * off)

/-- Replace a field of a stream entry. -/
def Stream.put (x : Stream) (off size v : Nat) : Stream :=
  { x with raw := setBits x.raw (8 * (off + size) - 1) (8 * off) v }

/-- STATE[2:0] (R349, R351). -/
def Stream.state (x : Stream) : Nat := bits x.raw 42 40
/-- The entry as software reads it (R351): ENGINE is 0xFF unless the stream is ACTIVE. -/
def Stream.view (x : Stream) : BitVec 1024 := if x.state = 2 then x.raw else setBits x.raw 63 56 0xFF
/-- STATE.PL (R351). -/
def Stream.pl1 (x : Stream) : Bool := bit x.raw 47
/-- OWNER (R351). -/
def Stream.owner (x : Stream) : CtxId := BitVec.ofNat 12 (bits x.raw 27 16)
/-- KIND (R351). -/
def Stream.kind (x : Stream) : Nat := x.u 4 1
/-- CADDR (R351). -/
def Stream.caddr (x : Stream) : W64 := BitVec.ofNat 64 (x.u 8 8)
/-- Put STATE[2:0]. -/
def Stream.setState (x : Stream) (v : Nat) : Stream := { x with raw := setBits x.raw 42 40 v }

/-- A stream-table entry, FREE when unlisted. -/
def State.stream (s : State) (id : W16) : Stream := sGet {} s.streams id.toNat

/-- Replace a stream-table entry. -/
def State.setStream (s : State) (id : W16) (x : Stream) : State :=
  { s with streams := sSet {} s.streams id.toNat x }

/-- The frame of a stream ID (R349). -/
def frameOf (id : W16) : Fin 4 := Fin.ofNat 4 (id.toNat / 16384)

/-- Replace a frame. -/
def State.setFrame (s : State) (f : Fin 4) (x : Frame) : State := { s with frames := s.frames.set f x }

/-- An engine. -/
def State.eng (s : State) (e : EngineId) : Engine := s.engines[e]

/-- Replace an engine. -/
def State.setEng (s : State) (e : EngineId) (x : Engine) : State := { s with engines := s.engines.set e x }

/-- The stitcher that STATE.ENGINE of a stream names, with its bank, while it is ACTIVE or STALLED. -/
def Stream.bankOf (id : W16) (x : Stream) : Option (EngineId × Fin 9) :=
  if x.u 7 1 = 0xFF then none
  else some (Fin.ofNat 66 (16 * (frameOf id).val + x.u 7 1 / 16), Fin.ofNat 9 (x.u 7 1 % 16))

/-- Free a context bank. -/
def State.freeBank (s : State) (e : EngineId) (b : Fin 9) : State :=
  let g := s.eng e
  s.setEng e { g with order := g.order.filter (· ≠ b), banks := g.banks.set b { g.banks[b] with
    st := .free, stream := none, block := .none, waitMask := 0, exc := false, fault := none } }

/-- Whether a stream has mover operations outstanding. -/
def State.opsOf (s : State) (id : W16) : List MoverOp :=
  s.frames[frameOf id].ops.filter (fun o => o.stream = id)

/-- An operation that has read all its bytes, and whose contribution is not yet performed (R358, R362). -/
def MoverOp.held (o : MoverOp) : Bool := decide (o.len = 0) && decide (0 < o.wait)

/-- Final statuses with which a stream's handler or its engine ends it, so that its operations go on (R360, R368); with
any other, those that wait are abandoned. -/
def endsQuietly (status : Byte) : Bool := status = 0 || status = 5 || status = 6

/-- End a stream (R360): it enters DRAINING with its final status, its bank is freed, and operations
stalled on a translation fault are abandoned; so are contributions to a group, but where the handler or the engine ended
the stream (log entry 179). A stream already DRAINING, or FREE, is left alone. -/
def State.endStream (s : State) (id : W16) (status : Byte) (detail : W32) : State :=
  let x := s.stream id
  if x.state = 0 || x.state = 4 then s
  else
    let s := match x.bankOf id with
      | some (e, b) => ((s.freeBank e b).emit (unitCode 2 e.val) 0x0202 (some x.owner) (id.setWidth 64)
          (status.setWidth 64)).countEvent (unitCode 2 e.val) 0x0204 1
      | none => s
    let f := frameOf id
    let fr := s.frames[f]
    let keep := endsQuietly status
    let s := s.setFrame f { fr with ops := fr.ops.filter (fun o =>
      !(o.stream = id && (o.stalled || (!keep && o.held)))) }
    let y := (x.setState 4).put 7 1 0xFF
    s.setStream id { y with ending := some (status, detail), contrib := if keep then x.contrib else [],
                            rdy := if keep then x.rdy else [] }

/-- A stream of a context-fatal error goes without a record (R485): its operations are abandoned and its
entry is FREE. -/
def State.killStream (s : State) (id : W16) : State :=
  let x := s.stream id
  let s := match x.bankOf id with
    | some (e, b) => s.freeBank e b
    | none => s
  let f := frameOf id
  let fr := s.frames[f]
  let s := s.setFrame f { fr with ops := fr.ops.filter (fun o => o.stream ≠ id) }
  s.setStream id {}

/-! ## Context-fatal errors (R484, R485, R397) -/

/-- STOP_DISCARD on a quire, its writes ended (R252, R254): IDLE, holding no context. -/
def Quire.discarded (c : Quire) : Quire :=
  { c with st := .idle, ctx := 0, stall := .none, irq := 0, storeErr := none,
           stores := [], action := 0, pendingList := [], deferred := [], useOld := [] }

/-- Discard every quire of a context, but for one that a halt keeps HALTED (R249). -/
def State.discardQuires (s : State) (c : CtxId) (keep : Option QuireId) : State :=
  { s with quires := Vector.ofFn (fun i =>
      let x := s.quires[i]
      if x.ctx = c && x.st ≠ .idle && x.st ≠ .offline && keep ≠ some i
      then { x.discarded with result := 1 } else x) }

/-- End the queue of a context with its one ERROR entry (R397): a DISABLED queue gets none. -/
def State.fatalQueue (s : State) (c : CtxId) (ref : W32) : State :=
  let x := s.queue c
  let s := s.setQueue c { x with cmds := [], owed := [], streams := [], credit := 0 }
  let s := if x.st = .enabled || x.st = .draining then
      s.writeCompletion c 0xFFFF 0x07 0x02 0xFFFF ref false
    else s
  s.setQueue c { s.queue c with st := .fatal }

/-- The context-fatal sequence (R484, R485): the record, the quires, the streams, and the queue. -/
def State.contextFatal (s : State) (c : CtxId) (cause unit : Nat) (keep : Option QuireId) : State :=
  let r := s.logErr unit 0x0D 0 0 (BitVec.ofNat 32 cause) (some c)
  let s := r.2.discardQuires c keep
  let ids := (s.streams.filter (fun e => e.2.owner = c && e.2.state ≠ 0)).map (fun e => BitVec.ofNat 16 e.1)
  let s := ids.foldl State.killStream s
  s.fatalQueue c r.1

end Sys2Proof.Machine
end

