-- ==== Sys2Proof/Machine/Crc.lean ====
section
/-!
DEFINITION. Cyclic redundancy checks (R334, R257, R408).
-/
namespace Sys2Proof.Machine

/-- The low w bits in the opposite order. -/
def reverseBits (w x : Nat) : Nat := (BitVec.ofNat w x).reverse.toNat

/-- One data bit (R334). -/
def crcBit (w poly : Nat) (refl : Bool) (s d : Nat) : Nat :=
  if refl then
    if (s + d) % 2 = 1 then Nat.xor (s / 2) (reverseBits w poly) else s / 2
  else
    let t := 2 * s % 2 ^ w
    if (s / 2 ^ (w - 1) + d) % 2 = 1 then Nat.xor t (poly % 2 ^ w) else t

/-- One byte (R334). -/
def crcByte (w poly : Nat) (refl : Bool) (s b : Nat) : Nat :=
  (List.range 8).foldl (fun s i => crcBit w poly refl s (b / 2 ^ (if refl then i else 7 - i) % 2)) s

/-- Bytes, the lowest first. -/
def crcBytes (w poly : Nat) (refl : Bool) (s : Nat) (bs : List Byte) : Nat :=
  bs.foldl (fun s b => crcByte w poly refl s b.toNat) s

/-- The CRC-64 of R257. The spec gives its polynomial; its reflection, initial value and final exclusive-or
are left open (log entry 12). -/
def crc64 (bs : List Byte) : W64 :=
  BitVec.ofNat 64 (crcBytes 64 0x42F0E1EBA9EA3693 Config.crc64Reflected Config.crc64Init.toNat bs) ^^^
    Config.crc64Final

/-- The CRC-32 of IEEE 802.3 (R408). -/
def crc32 (bs : List Byte) : W32 :=
  BitVec.ofNat 32 (crcBytes 32 0x04C11DB7 true 0xFFFFFFFF bs) ^^^ 0xFFFFFFFF#32

end Sys2Proof.Machine
end

