-- ==== Sys2Proof/Machine/Router.lean ====
section
/-!
DEFINITION. Packets, routes, and the sending side of the Lorotte ports (15_lorotte_links.md, R408 to R418, R426 to
R430, R433, R543).
-/
namespace Sys2Proof.Machine

/-! ## Packets (R411, R415, R416) -/

/-- Traffic class of a packet type (R411), none for a reserved type (R416). -/
def ptypeClass (t : Nat) : Option Nat :=
  if 1 ≤ t && t ≤ 4 then some 0
  else if t = 0x10 then some 1
  else if 8 ≤ t && t ≤ 0xB then some 2
  else if t = 0x20 then some 3
  else none

/-- The number of data slots a packet type allows (R416). -/
def lenOk (t n : Nat) : Bool :=
  match t with
  | 0x01 | 0x09 | 0x0B => n = 0
  | 0x02 | 0x08 => 1 ≤ n && n ≤ 16
  | 0x03 => 2 ≤ n && n ≤ 9
  | 0x04 => n = 1
  | 0x0A => 2 ≤ n && n ≤ 17
  | 0x10 | 0x20 => n ≤ 16
  | _ => false

/-- Class of a packet. -/
def Packet.cls (p : Packet) : Nat := (ptypeClass p.ptype.toNat).getD 0

/-- Virtual channel of a packet (R411). -/
def Packet.vc (p : Packet) : Fin 8 := Fin.ofNat 8 (2 * p.cls + (if p.ph then 1 else 0))

/-- The header slot (R415). -/
def Packet.header (p : Packet) : BitVec 128 :=
  BitVec.ofNat 128 (p.addr.toNat + p.hops.toNat * 2 ^ 46 + (if p.ph then 2 ^ 51 else 0) +
    (if p.ord then 2 ^ 52 else 0) + p.tag.toNat * 2 ^ 53 + p.data.length % 32 * 2 ^ 65 +
    p.ptype.toNat * 2 ^ 70 + p.pkey.toNat * 2 ^ 76 + p.src.toNat * 2 ^ 92 + p.dest.toNat * 2 ^ 110)

/-- A packet from its header slot, without data, and its LEN (R415). -/
def Packet.ofHeader (h : BitVec 128) : Packet × Nat :=
  (⟨h.extractLsb' 110 18, h.extractLsb' 92 18, h.extractLsb' 76 16, h.extractLsb' 70 6,
    h.extractLsb' 53 12, bit h 52, bit h 51, h.extractLsb' 46 5, h.extractLsb' 0 46, []⟩, bits h 69 65)

/-- The bytes of a packet's data slots. -/
def Packet.bytes (p : Packet) : List Byte := p.data.flatMap (fun w => leBytes 16 w.toNat)

/-- Data slots that hold a list of bytes, 16 to a slot; `fuel` bounds their number. -/
def slotsOf : Nat → List Byte → List (BitVec 128)
  | 0, _ => []
  | _, [] => []
  | n + 1, l => BitVec.ofNat 128 (leNat (l.take 16)) :: slotsOf n (l.drop 16)

/-- The answer to a packet (R418, R428, R431): RSP to a request, SNAK to a STREAM packet, nothing to others. -/
def Packet.answer (p : Packet) (me : Nat) (status : Nat) (data : List (BitVec 128)) : Option Packet :=
  match p.cls with
  | 0 => some ⟨p.src, BitVec.ofNat 18 me, p.pkey, 0x10, p.tag, false, false, 0, BitVec.ofNat 46 status, data⟩
  | 2 => if p.ptype = 0x0B#6 then none
    else some ⟨p.src, BitVec.ofNat 18 me, p.pkey, 0x0B, 0, true, false, 0,
      BitVec.ofNat 46 (bits p.addr 45 30 * 2 ^ 30 + status), []⟩
  | _ => none

/-! ## Ports -/

/-- A port. -/
def State.port (s : State) (p : PortId) : Port := s.ports[p]

/-- Replace a port. -/
def State.setPort (s : State) (p : PortId) (x : Port) : State := { s with ports := s.ports.set p x }

/-- Change a port. -/
def State.modPort (s : State) (p : PortId) (f : Port → Port) : State := s.setPort p (f (s.port p))

/-- Offset of a port's register. -/
def lnk (p : PortId) (off : Nat) : Nat := 0xC00000 + p.val * 0x10000 + off

/-- Add to a counter of LNK_ERRCNT, which saturates (R443). -/
def State.errCount (s : State) (p : PortId) (lo : Nat) : State :=
  let v := s.fld (lnk p 0x18) (lo + 15) lo
  s.setFld (lnk p 0x18) (lo + 15) lo (if v = 0xFFFF then v else v + 1)

/-- A packet refused or discarded by a port (R416, R431). -/
def State.refused (s : State) (p : PortId) (k : Packet) : State :=
  let h := k.header
  ((s.errCount p 0).countEvent (unitCode 9 p.val) 0x0905 1).emit (unitCode 9 p.val) 0x0903 none
    (h.extractLsb' 64 64) (h.extractLsb' 0 64)

/-- A marked flit (R542, R543, R545). -/
def State.mark (s : State) (p : PortId) (code n : Nat) (resend : Bool) (gen : W32) : State :=
  if bit (s.reg (lnk p 0x28)) 31 && n % 2 ^ s.fld (lnk p 0x28) 4 0 = 0 then
    s.emit (unitCode 0x0E p.val) code none
      (BitVec.ofNat 64 (n % 2 ^ 40 + (if resend then 2 ^ 40 else 0) + (s.port p).pport.toNat * 2 ^ 41 +
        (s.port p).pnode.toNat * 2 ^ 46)) (gen.setWidth 64)
  else s

/-! ## Flits (R408) -/

/-- A flit from its header and payload, with its CRC. -/
def flitRaw (hdr : Nat) (payload : List Byte) : BitVec 2048 :=
  let body := leBytes 12 hdr ++ payload ++ List.replicate (240 - payload.length) 0
  BitVec.ofNat 2048 (leNat (body ++ leBytes 4 (crc32 body).toNat))

/-- The acknowledgement and credits that the next outgoing flit carries, and the port without them (R408,
R409, R412): at most 15 dedicated credits of one channel, and 255 shared ones. -/
def Port.returns (x : Port) : Nat × Port :=
  let v : Fin 8 := ((List.finRange 8).find? (fun v => 0 < x.ret[v])).getD 0
  let n := min x.ret[v] 15
  let m := min x.retSh 255
  (v.val * 2 ^ 33 + n * 2 ^ 36 + m * 2 ^ 40 +
      (if x.ackDue then 2 ^ 32 + (x.expSeq - 1).toNat * 2 ^ 20 else 0),
   { x with ret := x.ret.set v (x.ret[v] - n), retSh := x.retSh - m, ackDue := false })

/-- Send a flit that is not a DATA flit. -/
def Port.sendCtl (x : Port) (type : Nat) (payload : List Byte) : Port :=
  let r := x.returns
  { r.2 with wire := flitRaw (type + 0xF * 2 ^ 48 + r.1) payload :: r.2.wire }

/-- Send a DATA flit, first or again. -/
def Port.sendData (x : Port) (f : TxFlit) : Port :=
  let r := x.returns
  { r.2 with wire := flitRaw (1 + f.vc.val * 2 ^ 4 + (if f.sh then 2 ^ 7 else 0) + f.seq.toNat * 2 ^ 8 +
      f.first.toNat * 2 ^ 48 + r.1) (f.slots.flatMap (fun w => leBytes 16 w.toNat)) :: r.2.wire }

/-- NULL flits carry what is owed to the partner (R408); `fuel` bounds their number. -/
def Port.flush (x : Port) : Nat → Port
  | 0 => x
  | n + 1 =>
    if x.ackDue || 0 < x.retSh || (List.finRange 8).any (fun v => 0 < x.ret[v]) then (x.sendCtl 0 []).flush n
    else x

/-- Take a credit for a channel: a dedicated one when held, a shared one otherwise (R412). -/
def Port.takeCredit (x : Port) (v : Fin 8) : Option (Bool × Port) :=
  if 0 < x.cred[v] then some (false, { x with cred := x.cred.set v (x.cred[v] - 1) })
  else if 0 < x.credSh then some (true, { x with credSh := x.credSh - 1 })
  else none

/-- Put one flit into the replay buffer and on the wire. -/
def State.emitFlit (s : State) (p : PortId) (v : Fin 8) (first : BitVec 4) (slots : List (BitVec 128))
    (pkt : Option Packet) (old : Bool) : Option State :=
  match (s.port p).takeCredit v with
  | none => none
  | some (sh, x) =>
    let f : TxFlit := { seq := x.nextSeq, vc := v, sh := sh, first := first, slots := slots, pkt := pkt, old := old, n := x.nTx }
    let s := s.setPort p { x.sendData f with
      replay := x.replay ++ [f], nextSeq := x.nextSeq + 1, nTx := x.nTx + 1 }
    some ((s.countEvent (unitCode 9 p.val) 0x0900 1).mark p 0x0E01 f.n false s.linkGen)

/-- Send one packet: one flit, or two when it has more than 15 slots. -/
def State.emitPacket (s : State) (p : PortId) (e : TxPkt) : Option State :=
  let k := e.pkt
  let slots := k.header :: k.data
  match s.emitFlit p k.vc 0 (slots.take 15) (some k) e.old with
  | none => none
  | some t => if slots.length ≤ 15 then some t else t.emitFlit p k.vc 0xF (slots.drop 15) none e.old

/-- Send what waits at a port and can go: each channel in order, while the replay buffer has room and
credits last (R409, R412). -/
def State.pumpList (s : State) (p : PortId) : List TxPkt → List Nat → State
  | [], _ => s
  | e :: r, blocked =>
    let flits := if e.pkt.data.length < 15 then 1 else 2
    if (s.port p).st ≠ 6 || 256 < (s.port p).replay.length + flits || blocked.contains e.vc.val then
      (s.modPort p (fun x => { x with txq := x.txq ++ [e] })).pumpList p r (e.vc.val :: blocked)
    else match s.emitPacket p e with
      | some t => t.pumpList p r blocked
      | none => (s.modPort p (fun x => { x with txq := x.txq ++ [e] })).pumpList p r (e.vc.val :: blocked)

/-- Send what waits at a port, and what it owes its partner. -/
def State.pump (s : State) (p : PortId) : State :=
  let q := (s.port p).txq
  let t := (s.modPort p (fun x => { x with txq := [] })).pumpList p q []
  if (t.port p).st = 6 then t.modPort p (fun x => x.flush 64) else t

/-! ## Routes (R426 to R429) -/

/-- A word of the router's tables. -/
def State.rteWord (s : State) (off n : Nat) : Nat :=
  leNat ((List.range n).map (fun i => sGet (0 : Byte) s.rte (off + i)))

/-- RTE_EPOCH.CUR. -/
def State.epoch (s : State) : Nat := s.fld 0xD80018 0 0

/-- The route entry of a destination in an epoch (R427). -/
def State.routeEntry (s : State) (ep dest : Nat) : W32 :=
  BitVec.ofNat 32 (if dest / 32 = s.nodeId / 32 then s.rteWord (0x1000 + 0x80 * ep + 4 * (dest % 32)) 4
    else s.rteWord (0x40000 + 0x8000 * ep + 4 * (dest / 32)) 4)

/-- A choice of an entry, when a packet of the phase could take it: its port and ESC (R427). -/
def routeChoice (e : W32) (ph : Bool) (c : Nat) : Option (PortId × Bool) :=
  if h : bits e (8 * c + 4) (8 * c) < 24 then
    if bit e (8 * c + 7) && !(ph && bit e (8 * c + 6)) then some (⟨bits e (8 * c + 4) (8 * c), h⟩, bit e (8 * c + 6))
    else none
  else none

/-- Choices in index order whose port carries traffic (R427). -/
def State.usable (s : State) (ep dest : Nat) (ph : Bool) : List (PortId × Bool) :=
  ((List.range 4).filterMap (routeChoice (s.routeEntry ep dest) ph)).filter (fun c => (s.port c.1).st = 6)

/-- Choices whose port carries traffic or is within its hold time: an ORD = 1 packet waits for the latter
(R433). -/
def State.ordered (s : State) (ep dest : Nat) (ph : Bool) : Option (PortId × Bool) :=
  ((List.range 4).filterMap (routeChoice (s.routeEntry ep dest) ph)).find? (fun c =>
    (s.port c.1).st = 6 || (s.port c.1).holding)

/-- Free credits of a port for a packet that would take a choice (R428). -/
def State.freeCredits (s : State) (k : Packet) (c : PortId × Bool) : Nat :=
  (s.port c.1).cred[({ k with ph := k.ph || c.2 } : Packet).vc] + (s.port c.1).credSh

/-- The choice of an ORD = 0 packet (R428). -/
def State.adaptive (s : State) (k : Packet) : Option (PortId × Bool) :=
  let us := s.usable s.epoch k.dest.toNat k.ph
  match us.find? (fun c => s.fld 0xD80010 23 16 ≤ s.freeCredits k c) with
  | some c => some c
  | none => us.foldl (fun best c => match best with
      | none => some c
      | some b => if s.freeCredits k b < s.freeCredits k c then some c else some b) none

/-- Put a packet into a port's queue by a choice. -/
def State.enqueue (s : State) (k : Packet) (c : PortId × Bool) : State :=
  let k := { k with ph := k.ph || c.2 }
  if (s.port c.1).holding then s.modPort c.1 (fun x => { x with held := x.held ++ [k] })
  else (s.modPort c.1 (fun x => { x with txq := x.txq ++ [{ vc := k.vc, pkt := k }] })).pump c.1

/-- Route a packet out of this node (R427 to R429, R433); the status of the answer where it cannot go. -/
def State.routeOut (s : State) (k : Packet) : Except Nat State :=
  let k := { k with hops := k.hops + 1 }
  if 31 ≤ k.hops.toNat then .error 0x06
  else
    let s := s.countEvent (unitCode 0x0A 0) 0x0A00 1
    if k.ord then
      let new := s.ordered s.epoch k.dest.toNat k.ph
      if s.ordHold && decide (s.ordered (1 - s.epoch) k.dest.toNat k.ph ≠ new) then
        .ok { s with ordHeld := s.ordHeld ++ [k] }
      else match new with
        | some c => .ok (s.enqueue k c)
        | none => .error 0x05
    else match s.adaptive k with
      | some c =>
        let first := (s.usable s.epoch k.dest.toNat k.ph).head?
        .ok ((if first = some c then s else s.countEvent (unitCode 0x0A 0) 0x0A01 1).enqueue k c)
      | none => .error 0x05

/-- Deliver a packet to this node, or route it on; a destination of all ones is discarded (R426, R427). -/
def State.forward (s : State) (k : Packet) : Except Nat State :=
  if k.dest = 0x3FFFF#18 then .ok s
  else if k.dest.toNat = s.nodeId then .ok { s with localQ := s.localQ ++ [k] }
  else s.routeOut k

/-- Send a packet; where no route takes it, answer it, and where the answer has no route either, discard it
(R428). -/
def State.send (s : State) (k : Packet) : State :=
  match s.forward k with
  | .ok t => t
  | .error st =>
    let s := s.emit (unitCode 0x0A 0) 0x0A02 none (k.dest.setWidth 64) (BitVec.ofNat 64 st)
    match k.answer s.nodeId st [] with
    | none => s
    | some a => match s.forward a with
      | .ok t => t
      | .error _ => s

/-! ## Requests of this node (R416, R311) -/

/-- PKEY of a context's entry (R292, R311), 0 when the entry is invalid. -/
def pkeyOf (e : Option (BitVec 128)) : W16 := ((e.map (fun x => x.extractLsb' 16 16)).getD 0)

/-- The lowest free tag of the pool of 4,096 (R416). -/
def State.freeTag (s : State) : Option (BitVec 12) :=
  ((List.range (s.tags.length + 1)).find? (fun n => n < 4096 && !s.tags.any (fun t => t.tag.toNat = n))).map
    (BitVec.ofNat 12)

/-- Send a request to another node under a fresh tag; none when every tag is taken. -/
def State.request (s : State) (who : Requester) (key : W16) (ptype : Nat) (ord : Bool) (pa : Nat)
    (data : List (BitVec 128)) : Option (BitVec 12 × State) :=
  s.freeTag.map (fun t =>
    let dest : BitVec 18 := BitVec.ofNat 18 (pa / 2 ^ 46)
    let k : Packet := ⟨dest, BitVec.ofNat 18 s.nodeId, key, BitVec.ofNat 6 ptype, t, ord, false, 0,
      BitVec.ofNat 46 pa, data⟩
    let s : State := { s with tags := s.tags ++ [⟨t, dest, key, who⟩] }
    (t, s.send k))

/-- The data slots of a write of bytes at an address: WR when it covers whole 16-byte units, WRBE with its
byte enables otherwise (R416). The bytes must fit one packet. -/
def writeSlots (a : Nat) (bs : List Byte) : Nat × List (BitVec 128) :=
  let lead := a % 16
  let all := List.replicate lead (0 : Byte) ++ bs
  let n := (all.length + 15) / 16
  let padded := all ++ List.replicate (16 * n - all.length) 0
  if lead = 0 && bs.length % 16 = 0 then (0x02, slotsOf n padded)
  else (0x03, BitVec.ofNat 128 ((2 ^ bs.length - 1) * 2 ^ lead) :: slotsOf n padded)

/-- Whether a quire has stores outstanding at other nodes. -/
def State.remoteStores (s : State) (i : QuireId) : Bool :=
  s.tags.any (fun t => match t.who with | .store j _ => j = i | _ => false)

end Sys2Proof.Machine
end

