-- ==== Sys2Proof/Machine/Access.lean ====
section
/-!
DEFINITION. A quire's path to memory (10_memory_caches.md): L1D with the stale folio lines it may hold, L2
and the directory, buffered stores, far atomics.
-/
namespace Sys2Proof.Machine

/-! ## L1D and the victim cache (R267, R268, R280) -/

/-- The data of a line as memory holds it. -/
def State.lineData (s : State) (line : Nat) : BitVec 512 := BitVec.ofNat 512 (s.readN (line * 64) 64)

/-- A line that L1D displaces enters the victim cache of 16 entries (R268). -/
def State.victimPut (s : State) (i : QuireId) (e : Nat × BitVec 512) : State :=
  let r := s.putWay 16 (fun _ => true) e (s.q i).victim
  r.2.modQ i (fun c => { c with victim := r.1.2 })

/-- Put a line into L1D, of 128 sets of 8 ways, out of the victim cache if it is there (R267, R268). -/
def State.l1dPut (s : State) (i : QuireId) (line : Nat) (x : BitVec 512) : State :=
  let c := s.q i
  let r := s.putWay 8 (fun e => l1dSet e.1 = l1dSet line) (line, x) (c.l1d.filter (fun e => e.1 ≠ line))
  let t := r.2.modQ i (fun c => { c with l1d := r.1.2, victim := c.victim.filter (fun e => e.1 ≠ line) })
  match r.1.1 with
  | some e => t.victimPut i e
  | none => t

/-- Bring a folio line into L1D for a scalar load. A copy held in L1D or the victim cache is used as it is, or has been
replaced and is read again: which, is a free value (R268; log entry 5). A poisoned line is read only where the
held copy is used (`State.loadPoison`). -/
def State.l1dLoad (s : State) (i : QuireId) (line : Nat) : BitVec 512 × State :=
  let c := s.q i
  let now := s.lineData line
  let back (s : State) (x : BitVec 512) : State := if c.l1d.any (fun e => e.1 = line) then s else s.l1dPut i line x
  match c.l1Copy line with
  | some x =>
    let u := s.cachedUse (some x) (fun x => x = now || (s.poisonOf (line * 64)).isSome)
    match u.1 with
    | some x => (x, back u.2 x)
    | none => (now, u.2.l1dPut i line now)
  | none => (now, s.l1dPut i line now)

/-- A quire's own scalar store updates a line it holds (R267, R280). -/
def Quire.l1dStore (c : Quire) (a : Nat) (b : Byte) : Quire :=
  let put (l : List (Nat × BitVec 512)) : List (Nat × BitVec 512) :=
    l.map (fun e => if e.1 = a / 64 then (e.1, setElem e.2 8 (a % 64) b.toNat) else e)
  { c with l1d := put c.l1d, victim := put c.victim }

/-! ## L2 and the directory (R270 to R272) -/

/-- Whether the quire's L2 is in use (R275). -/
def State.l2On (s : State) (i : QuireId) : Bool := bit (s.reg (0x100108 + i.val * 0x10000)) 0

/-- The ways in which the quire's L2 may allocate: those powered, and not being powered down (R274, R275, R278). -/
def State.l2Ways (s : State) (i : QuireId) : List (Fin 16) :=
  (List.finRange 16).filter (fun w =>
    bit (s.reg (0x100108 + i.val * 0x10000)) (16 + w.val / 4) && bit (s.reg (0x100100 + i.val * 0x10000)) (4 + w.val / 4))

/-- Whether the quire's L2 allocates: not while it is being disabled (R277). -/
def State.l2Alloc (s : State) (i : QuireId) : Bool :=
  s.l2On i && bit (s.reg (0x100100 + i.val * 0x10000)) 0 && !(s.l2Ways i).isEmpty

/-- Whether another quire's L2 holds the line. -/
def State.sharedElsewhere (s : State) (line : Nat) (i : QuireId) : Bool :=
  (List.finRange 34).any (fun j => j ≠ i && (s.q j).l2.any (fun e => e.1 = line))

/-- A memory controller acknowledges the write-back of a line (R271): it leaves the eviction buffer. At a tier that is
disabled the write-back is lost (R457). -/
def State.ackWriteback (s : State) (i : QuireId) (line : Nat) : State :=
  let s := if (s.q i).evict.contains line && s.tierOff (64 * line) then s.loseWrite line else s
  s.modQ i (fun c => { c with evict := c.evict.erase line })

/-- Room in a set of L2 for a line: a way that is free, or one that a free value picks and that gives up its line, dirty
lines into the eviction buffer (R270, R271). The way, and the state with it free. -/
def State.l2Room (s : State) (i : QuireId) (line : Nat) : Fin 16 × State :=
  let c := s.q i
  let ways := s.l2Ways i
  let inSet (w : Fin 16) (e : Nat × LineSt × Fin 16) : Bool := decide (l2Set e.1 = l2Set line) && decide (e.2.2 = w)
  match ways.find? (fun w => !c.l2.any (inSet w)) with
  | some w => (w, s)
  | none =>
    let d := s.fresh
    let w := ways.getD (d.1.toNat % ways.length) 0
    let dirty := (c.l2.filter (fun e => inSet w e && decide (e.2.1 = .modified))).map (·.1)
    let gone := c.l2.filter (inSet w)
    (w, d.2.setQ i { c.l2Lose (fun n => gone.any (fun e => e.1 = n)) with evict := c.evict ++ dirty })

/-- A quire touches a coherent-tier line through its L2 (R270, R271, R272): a miss allocates it while L2 allocates. A line
in the full eviction buffer is served from there; any other miss waits for a free entry, here by the acknowledgement of
the oldest one (log entry 167). -/
def State.l2Touch (s : State) (i : QuireId) (line : Nat) (write : Bool) : State :=
  let s := if write then s.dirWrite line (some i) else s.dirRead line (some i)
  let c := s.q i
  if c.l2.any (fun e => e.1 = line) then
    if write then s.setQ i { c with l2 := c.l2.map (fun e => if e.1 = line then (e.1, .modified, e.2.2) else e) } else s
  else if !s.l2Alloc i || (32 ≤ c.evict.length && c.evict.contains line) then s
  else
    let s := if 32 ≤ c.evict.length then s.ackWriteback i (c.evict.headD 0) else s
    let r := s.l2Room i line
    let st : LineSt := if write then .modified else if s.sharedElsewhere line i then .shared else .exclusive
    r.2.modQ i (fun c => { c with l2 := sInsert c.l2 line (st, r.1) })

/-- A scalar load of a coherent-tier line: an L1D hit goes no further; a miss goes through L2, and L1D takes what L2 holds
(R267, R268, R270, R277). The data of such a line is always memory's (R272). -/
def State.l1dTouch (s : State) (i : QuireId) (line : Nat) : State :=
  let c := s.q i
  if c.l1d.any (fun e => e.1 = line) then s
  else
    let s := if c.victim.any (fun e => e.1 = line) then s else s.l2Touch i line false
    if (s.q i).l2.any (fun e => e.1 = line) then s.l1dPut i line (s.lineData line) else s

/-! ## Reading and writing bytes at physical addresses -/

/-- Local part of a 64-bit physical address. -/
def localOf (pa : Nat) : Nat := pa % 2 ^ 46

/-- Whether a 64-bit physical address belongs to another node (R262). -/
def State.remotePa (s : State) (pa : Nat) : Bool := pa / 2 ^ 46 ≠ s.nodeId

/-- Whether the quire's L2 holds back new accesses to the coherent tiers: while it is being disabled (R277), and while
the CINV of a context that left it is in progress (R273). -/
def State.l2Hold (s : State) (i : QuireId) : Bool :=
  (s.l2On i && !s.l2Alloc i && bit (s.reg (0x100108 + i.val * 0x10000)) 1) || (s.q i).l2Cinv

/-- Whether the eviction buffer is full, so that L2 allocates no line (R271). -/
def State.l2Full (s : State) (i : QuireId) : Bool := s.l2Alloc i && 32 ≤ (s.q i).evict.length

/-- Whether some access to a coherent tier can be held before L2. -/
def State.l2Guard (s : State) (i : QuireId) : Bool := s.l2Hold i || s.l2Full i

/-- Whether an access to translated addresses is held before L2: all of them, or those that miss it while the eviction
buffer is full. -/
def State.l2Waits (s : State) (i : QuireId) (pas : List Nat) : Bool :=
  let c := s.q i
  s.l2Guard i && pas.any (fun pa => !s.remotePa pa && (regionOf (localOf pa)).coherent &&
    (s.l2Hold i || !(c.l2.any (fun e => e.1 = localOf pa / 64) || c.evict.contains (localOf pa / 64))))

/-- Whether a virtual span of an access is held before L2. -/
def State.l2WaitsSpan (s : State) (i : QuireId) (k : Acc') (va : W64) (n : Nat) : Bool :=
  s.l2Guard i && s.l2Waits i (s.xlateSpan i (s.q i).pl k va n).1.1

/-- One byte of a scalar load (R264, R267): folio lines through L1D, coherent tiers through L2, the host
aperture as the host's memory stands. -/
def State.loadByte (s : State) (i : QuireId) (a : Nat) : Byte × State :=
  match regionOf a with
  | .folio =>
    let l := s.l1dLoad i (a / 64)
    (BitVec.ofNat 8 (elem l.1 8 (a % 64)), l.2)
  | r => (s.byte a, if r.coherent then s.l1dTouch i (a / 64) else s)

/-- The bytes of a scalar load, little-endian. -/
def State.loadBytes (s : State) (i : QuireId) : List Nat → Nat × State
  | [] => (0, s)
  | pa :: r =>
    let b := s.loadByte i (localOf pa)
    let t := b.2.loadBytes i r
    (b.1.toNat + 256 * t.1, t.2)

/-- One byte of a scalar store, written through (R267). -/
def State.storeByte (s : State) (i : QuireId) (a : Nat) (b : Byte) : State :=
  let s := s.setByte a b
  match regionOf a with
  | .folio => s.setQ i ((s.q i).l1dStore a b)
  | r => if r.coherent then (s.l2Touch i (a / 64) true).modQ i (fun c => c.l1dStore a b) else s

/-- One byte of a vector, tile or plough access, which bypasses L1D (R267). What another node answers is
not this block's to know: a free value. -/
def State.loadByteWide (s : State) (i : QuireId) (pa : Nat) : Byte × State :=
  if s.remotePa pa then
    let d := s.fresh
    (d.1.setWidth 8, d.2)
  else
    let a := localOf pa
    (s.byte a, if (regionOf a).coherent then s.l2Touch i (a / 64) false else s)

/-- The bytes of a vector, tile or plough load. -/
def State.loadWide (s : State) (i : QuireId) : List Nat → Nat × State
  | [] => (0, s)
  | pa :: r =>
    let b := s.loadByteWide i pa
    let t := b.2.loadWide i r
    (b.1.toNat + 256 * t.1, t.2)

/-- One byte of a vector, tile or plough store: it invalidates the quire's own L1D copy (R267, R280). -/
def State.storeByteWide (s : State) (i : QuireId) (a : Nat) (b : Byte) : State :=
  let s := s.setByte a b
  match regionOf a with
  | .folio => s.setQ i ((s.q i).l1dDrop a 1)
  | r => if r.coherent then (s.l2Touch i (a / 64) true).modQ i (fun c => c.l1dDrop a 1) else s

/-- Whether a store leaves the block through the host port or a link, and so is buffered until then. -/
def State.leaves (s : State) (pa : Nat) : Bool := s.remotePa pa || regionOf (localOf pa) = .host

/-- A store's bytes as runs of successive physical addresses: virtual address, address, size and data. -/
def storeRuns : W64 → List Nat → Nat → List (W64 × Nat × Nat × Nat)
  | _, [], _ => []
  | va, pa :: r, v =>
    match storeRuns (va + 1) r (v / 256) with
    | (va', pa', n, d) :: t =>
      if pa' = pa + 1 then (va, pa, n + 1, v % 256 + 256 * d) :: t
      else (va, pa, 1, v % 256) :: (va', pa', n, d) :: t
    | [] => [(va, pa, 1, v % 256)]

/-- The bytes of one run inside the block. -/
def State.storeRun (s : State) (i : QuireId) (wide : Bool) : Nat → Nat → Nat → State
  | _, 0, _ => s
  | a, n + 1, v =>
    (if wide then s.storeByteWide i a (BitVec.ofNat 8 v) else s.storeByte i a (BitVec.ofNat 8 v)).storeRun
      i wide (a + 1) n (v / 256)

/-- A store to translated addresses: bytes of the block at once, the others into the store buffer. A line
written whole loses its poison mark (R467). -/
def State.storeTo (s : State) (i : QuireId) (wide : Bool) (va : W64) (pas : List Nat) (v : Nat) : State :=
  (storeRuns va pas v).foldl (fun s e =>
    if s.leaves e.2.1 then s.modQ i (fun c => { c with stores := c.stores ++ [e] })
    else (s.storeRun i wide (localOf e.2.1) e.2.2.1 e.2.2.2).clearCovered (localOf e.2.1) e.2.2.1) s

/-- The poison mark met by a list of byte addresses: which byte, and its entry reference (R467). -/
def State.poisonAmong (s : State) : List Nat → Nat → Option (Nat × W32)
  | [], _ => none
  | pa :: r, n =>
    match (if s.remotePa pa then none else s.poisonOf (localOf pa)) with
    | some ref => some (n, ref)
    | none => s.poisonAmong r (n + 1)

/-- The requests to the host of a read at translated addresses: one run of successive addresses after another (R375). -/
def State.hostReads (s : State) (ctx : CtxId) (pas : List Nat) : State :=
  (storeRuns 0 pas 0).foldl (fun s e =>
    if s.remotePa e.2.1 then s else s.hostRead ctx (localOf e.2.1) e.2.2.1) s

/-- A byte of the access lies in the register window of this node. -/
def State.inWindow (s : State) (pa : Nat) : Bool := !s.remotePa pa && regionOf (localOf pa) = .window

/-- How a read that leaves the block, or one of the register window, ends when it completes with its command (R265, R469):
answered, or with poison (but from a register), an error response or no response in time, by a free value (log entry
168). The entry reference of the record, where it fails. -/
def State.awayFault (s : State) (remote : Bool) (a : Nat) (ctx : Option CtxId) : Option W32 × State :=
  let d := s.fresh
  let how := d.1.toNat % 4
  let window : Bool := !remote && regionOf a = .window
  if how = 0 || (window && how = 1) then (none, d.2)
  else
    let unit := if how = 3 || remote || window then unitCode 0x0A 0 else unitCode 0x0C 0
    let type := if how = 1 then 0x08 else if how = 2 then 0x09 else 0x0A
    let r := d.2.logErr unit type 0 (BitVec.ofNat 64 a) 0 ctx
    (some r.1, r.2)

/-- The same for a load at translated addresses: the first byte that leaves or lies in the register window, where it
fails. -/
def State.awayEnds (s : State) (i : QuireId) (pas : List Nat) : Option (Nat × W32) × State :=
  match pas.findIdx? (fun pa => s.leaves pa || s.inWindow pa) with
  | none => (none, s)
  | some j =>
    let pa := pas.getD j 0
    let s := s.hostReads (s.q i).ctx pas
    let r := s.awayFault (s.remotePa pa) (localOf pa) (some (s.q i).ctx)
    (r.1.map (fun x => (j, x)), r.2)

/-- A write of bytes at translated addresses by a unit other than a quire, one write for each run of successive addresses
(R272, R467). -/
def State.dmaWriteAt (s : State) (pas : List Nat) (bs : List Byte) : State :=
  (storeRuns 0 pas (leNat bs)).foldl (fun s e => s.dmaWrite (localOf e.2.1) (leBytes e.2.2.1 e.2.2.2)) s

/-! ## Buffered stores (R247, R287) -/

/-- A store cut at 128-byte boundaries, so that each part fits one packet; `fuel` bounds their number. -/
def cutStore : Nat → W64 × Nat × Nat × Nat → List (W64 × Nat × Nat × Nat)
  | 0, e => [e]
  | f + 1, (va, pa, n, d) =>
    let k := 128 - pa % 128
    if n ≤ k then [(va, pa, n, d)]
    else (va, pa, k, d % 2 ^ (8 * k)) :: cutStore f (va + BitVec.ofNat 64 k, pa + k, n - k, d / 2 ^ (8 * k))

/-- Send one part of a store to another node under its context's key (R416, R311); without a free tag, or
behind a part that waits for one, it stays in the buffer. -/
def State.sendStore (s : State) (i : QuireId) (e : W64 × Nat × Nat × Nat) : State :=
  let wait := s.modQ i (fun c => { c with stores := c.stores ++ [e] })
  if !(s.q i).stores.isEmpty then wait
  else
    let x := s.ctxEntry (s.q i).ctx
    let w := writeSlots (e.2.1 % 128 % 16) (leBytes e.2.2.1 e.2.2.2)
    match x.2.request (.store i e.1) (pkeyOf x.1) w.1 true (e.2.1 / 16 * 16) w.2 with
    | some t => t.2
    | none => wait

/-- Perform every buffered store of a quire, oldest first: the host aperture's as the host's memory;
another node's leave through the router. -/
def State.drainStores (s : State) (i : QuireId) : State :=
  let st := (s.q i).stores
  let s := s.modQ i (fun c => { c with stores := [] })
  st.foldl (fun s e =>
    if s.remotePa e.2.1 then (cutStore (e.2.2.1 / 128 + 1) e).foldl (fun s e => s.sendStore i e) s
    else if (s.q i).stores.isEmpty then
      (s.writeN (localOf e.2.1) e.2.2.1 e.2.2.2).hostWrite (s.q i).ctx (localOf e.2.1) (leBytes e.2.2.1 e.2.2.2)
    else s.modQ i (fun c => { c with stores := c.stores ++ [e] })) s

/-- Whether stores of a quire are still outstanding: buffered, at another node, or a posted atomic at the host. -/
def State.storesOut (s : State) (i : QuireId) : Bool :=
  !(s.q i).stores.isEmpty || s.remoteStores i || s.hostReqs.any (fun r => decide (r.quire = i) && r.post.isSome)

/-! ## Far atomics (R285, R286) -/

/-- The new value of an atomic (R87) from the old value, the operand and CAS's compare value, of
`n` bytes; FADD rounds RNE and flushes subnormals. -/
def atomicNew (op n old b cmp : Nat) : Nat :=
  let w := 8 * n
  let m := 2 ^ w
  let so : Int := (BitVec.ofNat w old).toInt
  let sb : Int := (BitVec.ofNat w b).toInt
  match op with
  | 0x00 => b
  | 0x01 => (old + b) % m
  | 0x02 => Nat.land old b
  | 0x03 => Nat.lor old b
  | 0x04 => Nat.xor old b
  | 0x05 => if so ≤ sb then old else b
  | 0x06 => if sb ≤ so then old else b
  | 0x07 => min old b
  | 0x08 => max old b
  | 0x09 => if old = cmp then b else old
  | 0x0A =>
    let f := if n = 4 then fp32 else fp64
    (addVals f ⟨.rne, false, 0, false⟩ (f.read false old) (f.read false b)).1
  | _ => old

/-- Execute an atomic at local physical memory, once every L2 copy of its line is recalled (R285): the
old value. -/
def State.execAtomic (s : State) (a n op b cmp : Nat) : Nat × State :=
  let old := s.readN a n
  let s := if (regionOf a).coherent then s.dirWrite (a / 64) none else s
  (old, s.writeList a (leBytes n (atomicNew op n old b cmp)))

/-- Execute one queued atomic (R286): a posted one is gone, one that returns a value keeps it for ATOMIC_RESULT. -/
def State.runAtomic (s : State) (e : FarAtomic) : State :=
  let r := s.execAtomic e.addr e.bytes e.op.toNat e.b.toNat e.cmp.toNat
  let fin : FarAtomic := { e with result := some (BitVec.ofNat 64 r.1) }
  if e.posted then { r.2 with atomics := s.atomics.erase e }
  else { r.2 with atomics := s.atomics.replace e fin }

/-- Execute the oldest atomic queued at a far-atomic unit (R286). -/
def State.farExecute (s : State) (unit : Nat) : State :=
  match s.atomics.find? (fun e => e.result.isNone && s.unitOf e.addr = unit) with
  | none => s
  | some e => s.runAtomic e

/-- Execute every atomic that waits, oldest first, up to the last that `p` selects: those before it at its unit entered the
queue earlier (R286). -/
def State.runAtomicsTo (s : State) (p : FarAtomic → Bool) : State :=
  let l := (s.atomics.reverse.dropWhile (fun e => !p e)).reverse
  (l.filter (fun e => e.result.isNone)).foldl State.runAtomic s

/-- Execute a quire's queued posted atomics: same-address accesses of a quire are performed in program order (R287). -/
def State.drainAtomics (s : State) (i : QuireId) : State :=
  s.runAtomicsTo (fun e => e.quire = some i && e.posted)

/-- What a quire has in flight before a memory access: its posted atomics and buffered stores. -/
def State.drain (s : State) (i : QuireId) : State := (s.drainAtomics i).drainStores i

end Sys2Proof.Machine
end

