-- ==== Sys2Proof/Machine/Exceptions.lean ====
section
/-!
DEFINITION. Exceptions of a quire (09_exceptions_context.md): entry, escalation, halt, interrupts and
return; and the frame every Tehus instruction runs in.
-/
namespace Sys2Proof.Machine

/-- An exception to be taken: number, access kind (R237), EADDR, ESYND, and ASYNC. -/
structure Exc where
  num : Nat
  acc : Nat
  addr : W64
  synd : W64
  async : Bool
  deriving DecidableEq, Repr

/-- An exception that reports nothing (R234). -/
def exc (n : Nat) : Exc := ⟨n, 0, 0, 0, false⟩

/-- ILLEGAL_INSTRUCTION (R234). -/
abbrev excIllegal : Exc := exc 0
/-- PRIVILEGE (R234). -/
abbrev excPrivilege : Exc := exc 1
/-- INTEGER_DIVIDE_BY_ZERO (R234). -/
abbrev excDivZero : Exc := exc 6
/-- INTEGER_OVERFLOW (R234). -/
abbrev excOverflow : Exc := exc 7

/-- The fixed level of a synchronous exception, and of STORE_ERROR (R234). -/
def syncLevel : Nat → Nat
  | 0 | 1 | 5 => 12
  | 2 | 3 | 4 => 13
  | 6 | 7 | 8 | 9 | 10 | 11 => 10
  | 12 | 13 | 14 => 8
  | _ => 14

/-- ESYND with an INDEX and a DETAIL (R238). -/
def syndOf (index : Nat) (detail : W32) : W64 :=
  BitVec.ofNat 64 (index % 4096 * 2 ^ 32 + detail.toNat)

/-- The exception of a translation or segment fault of a data access (R306). -/
def xlateExc (f : XFault) (acc index : Nat) (va : W64) : Exc :=
  ⟨if f.segment then 4 else 3, acc, va, syndOf index f.detail, false⟩

/-- STATUS of a quire (R73). -/
def Quire.status (c : Quire) : W64 := c.crGet 0

/-- Store STATUS. -/
def Quire.setStatus (c : Quire) (x : W64) : Quire := c.crSet 0 x

/-- STATUS.ML (R73). -/
def Quire.ml (c : Quire) : Nat := bits c.status 19 16

/-- STATUS.ESC (R73). -/
def Quire.escalated (c : Quire) : Bool := bit c.status 7

/-- STATUS.SS (R73). -/
def Quire.singleStep (c : Quire) : Bool := bit c.status 6

/-- Read a general register: g0 reads as zero (R58). -/
def Quire.gr (c : Quire) (r : GReg) : W64 := if r = 0 then 0 else c.g[r]

/-- Write a general register: writes to g0 are discarded (R58). -/
def Quire.gw (c : Quire) (r : GReg) (x : W64) : Quire :=
  if r = 0 then c else { c with g := c.g.set r x }

/-- The PC as a 64-bit value. -/
def Quire.pc64 (c : Quire) : W64 := c.pc.setWidth 64

/-- A return address as EPC and XEPC hold it: bits [63:56] and [1:0] are reserved and read 0 (R69). -/
def retAddr (a : W64) : W64 := a &&& 0x00FFFFFFFFFFFFFC#64

/-- TOP of a stack record (R239). -/
def stkTop (x : W64) : W64 := x &&& maskW 64 55 4

/-- SZ of a stack record (R239). -/
def stkSz (x : W64) : Nat := bits x 63 58

/-! ## Halt and escalation (R248, R249) -/

/-- Halt a quire (R249): HALTED with its RESULT, a ring event, and the context-fatal sequence of R485
with cause 0x02; the halted quire keeps its registers. A grace in progress ends with it (R252). -/
def State.haltQuire (s : State) (i : QuireId) (result : Nat) (addr : W64) : State :=
  let c := s.q i
  let s := s.setQ i { c with st := .halted, result := BitVec.ofNat 8 result, stall := .none, action := 0 }
  let s := s.emit (unitCode 1 i.val) 0x0103 (some c.ctx) (BitVec.ofNat 64 result) addr
  s.contextFatal c.ctx 0x02 (unitCode 1 i.val) (some i)

/-- Escalation entry (R248). -/
def State.escalate (s : State) (i : QuireId) (e : Exc) (reason : Nat) (epc : W64) : State :=
  let c := s.q i
  let xinfo : W64 := BitVec.ofNat 64 (e.num * 2 ^ 32 + reason * 2 ^ 24 + bits c.status 19 0)
  let c' := ((((c.crSet 0x01C (retAddr epc)).crSet 0x01D xinfo).crSet 0x01E (c.gr 63)).gw 63
    (stkTop (c.crGet 0x01B)))
  let c' := (c'.crSet 0x014 e.addr).crSet 0x015 e.synd
  let st := setBits (setBits (setBit (setBit c.status 7 true) 6 false) 19 16 15) 13 12 2
  let c' := { c'.setStatus st with pc := (c.crGet 0x01A).setWidth 56, stall := .none, deferred := [], useOld := [] }
  (s.setQ i c').emit (unitCode 1 i.val) 0x0102 (some c.ctx) xinfo epc

/-! ## Descriptors and entry (R242, R243) -/

/-- A load or fetch consumes a poisoned line (R469): the record, and the exception's entry reference. -/
def State.consumePoison (s : State) (i : QuireId) (pa : Nat) (ref : W32) : W32 × State :=
  s.logErr (s.unitOf pa) 0x08 0 (BitVec.ofNat 64 pa) ref (some (s.q i).ctx)

/-- One byte of a load whose bytes may have several targets (log entry 6). -/
def State.loadAny (s : State) (i : QuireId) : List Nat → Nat × State
  | [] => (0, s)
  | pa :: r =>
    let b := if s.leaves pa then s.loadByteWide i pa else s.loadByte i (localOf pa)
    let t := b.2.loadAny i r
    (b.1.toNat + 256 * t.1, t.2)

/-- Read descriptor n as a PL1 data access (R242), none on a fault. As every such load it can lie at the host or at another
node, meet poison, and fail there, with the record of R469; one in the register window is a fault (log entry 169). -/
def State.readDescriptor (s : State) (i : QuireId) (n : Nat) : Option (BitVec 128) × State :=
  let a : W64 := (s.q i).crGet 0x010 + BitVec.ofNat 64 (16 * n)
  let t := s.xlateBytes i 1 .load a 16
  match t.1 with
  | .error _ => (none, t.2)
  | .ok pas =>
    if pas.any (fun p => !t.2.remotePa p && regionOf (localOf p) = .window) then (none, t.2)
    else match t.2.poisonAmong pas 0 with
      | some e => (none, (t.2.consumePoison i (localOf (pas.getD e.1 0)) e.2).2)
      | none =>
        let w := t.2.awayEnds i pas
        if w.1.isSome then (none, w.2)
        else
          let v := w.2.loadAny i pas
          (some (BitVec.ofNat 128 v.1), v.2)

/-- An invalid descriptor at a privilege level (R242). -/
def descInvalid (d : BitVec 128) (pl : Nat) : Bool :=
  !bit d 95 || bits d 127 96 ≠ 0 || bits d 94 84 ≠ 0 || bits d 79 78 ≠ 0 || bits d 75 74 ≠ 0 ||
  bits d 71 56 ≠ 0 || bits d 1 0 ≠ 0 || bits d 77 76 = 0 || bits d 77 76 = 3 || bits d 73 72 = 3 ||
  decide (bits d 77 76 < pl)

/-- Whether entry switches stacks (R243). -/
def descSwitch (d : BitVec 128) (pl : Nat) : Bool :=
  bits d 73 72 = 1 || (bits d 73 72 = 2 && bits d 77 76 ≠ pl)

/-- Entry to exception `e` with a return address, once its descriptor is read (R243). -/
def State.enterWith (s : State) (i : QuireId) (e : Exc) (epc : W64) (d : Option (BitVec 128)) : State :=
  let c := s.q i
  match d with
  | none => s.escalate i e 2 epc
  | some d =>
    if descInvalid d c.pl then s.escalate i e 3 epc
    else
      let sw := descSwitch d c.pl
      let tpl := bits d 77 76
      let top := stkTop (c.crGet (0x017 + tpl))
      if sw && top = 0 then s.escalate i e 4 epc
      else
        let cause : W64 := BitVec.ofNat 64 ((if sw then 2 ^ 31 else 0) + (if e.async then 2 ^ 30 else 0) +
          e.acc * 2 ^ 16 + e.num)
        let c' := (((((c.crSet 0x011 (retAddr epc)).crSet 0x012 c.status).crSet 0x013 cause).crSet 0x014 e.addr).crSet
          0x015 e.synd)
        let c' := if sw then (c'.crSet 0x016 (c.gr 63)).gw 63 top else c'
        let st := setBit (setBits (setBits c.status 13 12 tpl) 19 16 (bits d 83 80)) 6 false
        s.setQ i { c'.setStatus st with
          pc := BitVec.ofNat 56 (bits d 55 2 * 4), stall := .none, deferred := [], useOld := [] }

/-- Take a synchronous exception (R235, R243, R248, R249). Earlier deferred control-register writes
complete first (R72). -/
def State.raiseAt (s : State) (i : QuireId) (e : Exc) (epc : W64) : State :=
  let s := s.modQ i (fun c => { c with deferred := [], useOld := [] })
  let c := s.q i
  let s := s.countEvent (unitCode 1 i.val) 0x0112 1
  if c.escalated then s.haltQuire i 0x07 epc
  else if syncLevel e.num ≤ c.ml then s.escalate i e 1 epc
  else
    let d := s.readDescriptor i e.num
    d.2.enterWith i e epc d.1

/-- Take a synchronous exception whose return address is the instruction itself. -/
def State.raise (s : State) (i : QuireId) (e : Exc) : State := s.raiseAt i e (s.q i).pc64

/-- Latch a store error with the address of the failed store's first byte; a later one sets OVF (R247). -/
def State.latchStoreErr (s : State) (i : QuireId) (addr : W64) (entry : W32) : State :=
  let s := s.modQ i (fun c => { c with storeErr := match c.storeErr with
      | none => some ⟨addr, entry, false⟩
      | some e => some { e with ovf := true } })
  s.emit (unitCode 1 i.val) 0x0104 (some (s.q i).ctx) addr (entry.setWidth 64)

/-! ## Interrupt entry (R234 to R236, R241) -/

/-- The level of interrupt n (R234): its descriptor's ML, 15 when the read faults. -/
def State.irqLevel (s : State) (i : QuireId) (n : Nat) : Nat × Option (BitVec 128) × State :=
  let d := s.readDescriptor i n
  match d.1 with
  | none => (15, none, d.2)
  | some x => (bits x 83 80, some x, d.2)

/-- The pending interrupts and STORE_ERROR of a quire, in ascending number; the numbers that R234 reserves, and those of
synchronous exceptions, are never among them. -/
def State.pendingNums (s : State) (c : Quire) : List Nat :=
  (if c.storeErr.isSome then [32] else []) ++ (if s.timerPending c then [33] else []) ++
    ([34, 35, 36] ++ List.range' 64 192).filter (fun n => bit c.irq n)

/-- Choose among pending numbers the highest level above ML, the lowest number on ties (R236): the
number, its level and its descriptor. -/
def State.pickIrq (s : State) (i : QuireId) :
    List Nat → Option (Nat × Nat × Option (BitVec 128)) → Option (Nat × Nat × Option (BitVec 128)) × State
  | [], best => (best, s)
  | n :: r, best =>
    let l := if n = 32 then (14, none, s) else s.irqLevel i n
    let better := decide ((s.q i).ml < l.1) &&
      (match best with | some b => decide (b.2.1 < l.1) | none => true)
    l.2.2.pickIrq i r (if better then some (n, l.1, l.2.1) else best)

/-- The interrupt or asynchronous STORE_ERROR that R235 and R236 choose at an instruction boundary: its number and its
descriptor. Descriptors are read with the deferred writes completed (R72); those stay deferred where nothing is taken. -/
def State.dueIrq (s : State) (i : QuireId) : Option (Nat × Option (BitVec 128)) × State :=
  let c := s.q i
  if c.escalated || (s.pendingNums c).isEmpty then (none, s)
  else
    let p := (s.modQ i (fun c => { c with deferred := [], useOld := [] })).pickIrq i (s.pendingNums c) none
    match p.1 with
    | none => (none, p.2.modQ i (fun d => { d with deferred := c.deferred }))
    | some x => (some (x.1, x.2.2), p.2)

/-- Take the interrupt or asynchronous STORE_ERROR that is due; taking it clears its latch, TIMER apart (R241, R247). -/
def State.enterIrq (s : State) (i : QuireId) (n : Nat) (d : Option (BitVec 128)) : State :=
  let s := s.modQ i (fun c => { c with deferred := [], useOld := [] })
  let c := s.q i
  let epc := c.pc64
  let s := s.countEvent (unitCode 1 i.val) 0x0112 1
  if n = 32 then
    let e := c.storeErr.getD ⟨0, 0, false⟩
    let x : Exc := ⟨32, 0, e.addr, syndOf 0 e.entry ||| (if e.ovf then 1#64 <<< 63 else 0), true⟩
    let s := s.setQ i { c with storeErr := none }
    let dd := s.readDescriptor i 32
    dd.2.enterWith i x epc dd.1
  else
    let x : Exc := ⟨n, 0, 0, if n = 36 then syndOf 0 c.ceEntry else 0, false⟩
    let s := if n = 33 then s else s.setQ i { c with irq := c.irq &&& ~~~ BitVec.ofNat 256 (2 ^ n) }
    s.enterWith i x epc d

/-- An instruction boundary of a quire that waits for nothing but an interrupt: what is due is taken (R235, R236). -/
def State.takeInterrupt (s : State) (i : QuireId) : State :=
  let c := s.q i
  if !(c.runs && (c.stall = .none || c.stall = .wait)) then s
  else
    let d := s.dueIrq i
    match d.1 with
    | some x => d.2.enterIrq i x.1 x.2
    | none => d.2

/-! ## Issue and retirement -/

/-- Whether an interrupt of any kind is pending, masked or not (R94, R241). -/
def State.anyIrq (s : State) (c : Quire) : Bool := c.irq ≠ 0 || s.timerPending c

/-- Whether a quire can issue its next instruction: a context runs, and nothing it waits for is
outstanding (R94, R253; log entry 6). In SAFE HOLD every quire has halted (R492). -/
def State.canIssue (s : State) (i : QuireId) : Bool :=
  let c := s.q i
  c.runs && !s.down && (match c.stall with
    | .none => true
    | .wait => s.anyIrq c
    | _ => false)

/-- Put a line into L1I, of 256 sets of 4 ways (R266). -/
def State.l1iPut (s : State) (i : QuireId) (line : Nat) : State :=
  let r := s.putWay 4 (fun n => l1iSet n = l1iSet line) line (s.q i).l1i
  r.2.modQ i (fun c => { c with l1i := r.1.2 })

/-- Fill L1I with the line of an address from the folio, L2 or the host aperture (R266, R469): DATA_POISON with the
record's entry reference, where the fill meets poison or ends in an error. -/
def State.l1iFill (s : State) (i : QuireId) (pa : Nat) : Option W32 × State :=
  match s.poisonAmong [pa] 0 with
  | some e =>
    let p := s.consumePoison i (localOf pa) e.2
    (some p.1, p.2)
  | none =>
    let w := s.awayEnds i ((List.range 64).map (fun k => pa / 64 * 64 + k))
    match w.1 with
    | some e => (some e.2, w.2)
    | none =>
      let t := if (regionOf (localOf pa)).coherent then w.2.l2Touch i (localOf pa / 64) false else w.2
      (none, t.l1iPut i (localOf pa / 64))

/-- The fetch of the instruction word at address `a` (R236 item 4, R264, R266, R296, R306): the exception it
raises, if any. A line that L1I holds is used as it is. -/
def State.fetchWord (s : State) (i : QuireId) (a : W64) : Option Exc × State :=
  let r := s.xlateSpan i (s.q i).pl .fetch a 4
  match r.1.2 with
  | some e => (some ⟨2, 1, a, syndOf 0 e.2.detail, false⟩, r.2)
  | none =>
    let pa := r.1.1.headD 0
    if (r.2.q i).l1i.contains (localOf pa / 64) then (none, r.2)
    else
      let f := r.2.l1iFill i pa
      (f.1.map (fun ref => ⟨15, 1, a, syndOf 0 ref, false⟩), f.2)

/-- Whether the fetch of an instruction of `len` bytes is held before L2 (R271, R273, R277). -/
def State.fetchHeld (s : State) (i : QuireId) (len : Nat) : Bool :=
  s.l2Guard i && s.l2Waits i
    ((s.xlateSpan i (s.q i).pl .fetch (s.q i).pc64 len).1.1.filter (fun pa => !(s.q i).l1i.contains (localOf pa / 64)))

/-- The fetch of an instruction of `len` bytes. The second word of a long form is fetched only when the
first word alone is legal (R67). -/
def State.fetchFault (s : State) (i : QuireId) (len : Nat) (firstOk : Bool) : Option Exc × State :=
  let f := s.fetchWord i (s.q i).pc64
  match f.1 with
  | some e => (some e, f.2)
  | none =>
    if !firstOk then (some excIllegal, f.2)
    else if len = 8 then f.2.fetchWord i ((s.q i).pc64 + 4)
    else (none, f.2)

/-- What the body of an instruction answers: it retires in a state, with the address of the next
instruction; it returns from an exception to an address, which owes no SINGLE_STEP of the STATUS it restores (R73,
R244); it raises an exception at itself in a state; or it stays unretired in a state, waiting. Posted
stores to the register window act after it (R287). -/
inductive Body where
  | retire (s : State) (next : W64)
  | ret (s : State) (next : W64)
  | trap (s : State) (e : Exc)
  | stay (s : State)
  | andThen (b : Body) (post : State → State)

/-- The PC moves and INSTRET counts (R79). A next address whose bits [63:56] are not zero raises INSTR_TRANSLATION at that
address (R89), unless SINGLE_STEP is owed, which comes first (R236). -/
def State.retireAt (s : State) (i : QuireId) (next : W64) (stepped : Bool) : State :=
  let c := s.q i
  let pc0 := c.pc64
  let s := s.setQ i { c.crSet 0x006 (c.crGet 0x006 + 1) with pc := next.setWidth 56 }
  let s := s.countEvent (unitCode 1 i.val) 0x0101 1
  if stepped then s.raiseAt i ⟨14, 0, pc0, 0, false⟩ next
  else if bits next 63 56 ≠ 0 then
    s.raiseAt i ⟨2, 1, next, syndOf 0 (XFault.detail ⟨0x01, 0, 0⟩), false⟩ next
  else s

/-- Retirement (R73, R79, R236): at PL0 with SS set SINGLE_STEP is owed and taken at this boundary. -/
def State.retire (s : State) (i : QuireId) (next : W64) : State :=
  s.retireAt i next ((s.q i).pl = 0 && (s.q i).singleStep)

/-- Add the counter events of the instruction just executed to the quire's counters (R538). -/
def State.flushEvents (s : State) (i : QuireId) : State :=
  (s.q i).events.foldl (fun s e => s.countEvent (unitCode 1 i.val) e.1 e.2)
    (s.modQ i (fun c => { c with events := [] }))

/-- The state an instruction leaves: retired, with its exception taken, or waiting. -/
def Body.finish (i : QuireId) : Body → State
  | .retire t next => (t.flushEvents i).retire i next
  | .ret t next => (t.flushEvents i).retireAt i next false
  | .trap t e => (t.flushEvents i).raise i e
  | .stay t => t.flushEvents i
  | .andThen b post => post (b.finish i)

/-- The state a body holds. -/
def Body.state : Body → State
  | .retire t _ => t
  | .ret t _ => t
  | .trap t _ => t
  | .stay t => t
  | .andThen b post => post b.state

/-- Registers of a pending entry's word that hold its captured scalars (R257): the tile majors, VBCAST, VINS
take them from rs1 and rs2 in that order, every other instruction from rs2. -/
def PendingEntry.operands (e : PendingEntry) : List (Nat × W64) :=
  let rs1 := bits e.words 19 14
  let rs2 := bits e.words 25 20
  let major := bits e.words 6 0
  let func := bits e.words 30 26
  if (0x50 ≤ major && major ≤ 0x57) || (major = 0x47 && (func = 0x0A || func = 0x0B || func = 0x0E)) then
    [(rs1, e.op1), (rs2, e.op2)]
  else [(rs2, e.op1)]

/-- A quire with the operands and controls of a pending entry in place (R257, R258). -/
def Quire.captured (c : Quire) (e : PendingEntry) : Quire :=
  let put (c : Quire) (n : Nat × W64) : Quire :=
    { c with g := c.g.set (Fin.ofNat 64 n.1) n.2, f := c.f.set (Fin.ofNat 32 n.1) n.2 }
  ((((e.operands.foldl put c).crSet 0x030 (BitVec.ofNat 64 (bits e.ctl 12 0))).crSet 0x031
    (BitVec.ofNat 64 (bits e.ctl 28 20))).crSet 0x020 (BitVec.ofNat 64 (bits e.ctl 44 32))).crSet 0x05B
    (BitVec.ofNat 64 (bits e.ctl 51 48)) |>.crSet 0x023 (BitVec.ofNat 64 (bits e.seq 46 0))

/-- The scalar register that a pending entry's instruction writes, and whether it is a general one: MPOPC,
MFIRST, VEXTR and TDESC write rd. -/
def PendingEntry.result (e : PendingEntry) : Option (Nat × Bool) :=
  let major := bits e.words 6 0
  let func := bits e.words 30 26
  let rd := bits e.words 13 8
  if major = 0x47 && func = 0x0D then some (rd, false)
  else if major = 0x45 || (major = 0x47 && func = 0x0C) || (major = 0x50 && func = 1) then some (rd, true)
  else none

/-- The quire after a replayed instruction: the registers that stood in for its captures return, and SR_SEQ
counts it if it drew. -/
def Quire.uncaptured (d c : Quire) (e : PendingEntry) : Quire :=
  let back (x : Quire) (n : Nat × W64) : Quire :=
    let x := if e.result = some (n.1, true) then x
      else { x with g := x.g.set (Fin.ofNat 64 n.1) (c.g.getD n.1 0) }
    if e.result = some (n.1, false) then x
    else { x with f := x.f.set (Fin.ofNat 32 n.1) (c.f.getD (n.1 % 32) 0) }
  let seq := if d.crGet 0x023 = BitVec.ofNat 64 (bits e.seq 46 0) then c.crGet 0x023
    else (c.crGet 0x023 + 1) &&& maskW 64 46 0
  ([0x030, 0x031, 0x020, 0x05B].foldl (fun x n => x.crSet n (c.crGet n)) (e.operands.foldl back d)).crSet
    0x023 seq

/-- Replay the oldest pending entry of a restored context (R258, item 5): the command is its instruction, run
with the captured operands and controls. It is not fetched, counts no retirement and moves no PC, and, being
committed, raises nothing (R245; log entry 11). -/
def State.replay (s : State) (i : QuireId) (e : PendingEntry) (rest : List PendingEntry)
    (body : State → Body) : State :=
  let c := s.q i
  let t := (body (s.setQ i { c.captured e with pendingList := rest })).state.flushEvents i
  t.modQ i (fun d => { d.uncaptured c e with pc := c.pc })

/-- An instruction issues: a WAIT is over, and what is deferred is used old or new (R72, R94). -/
def State.issue (s : State) (i : QuireId) : State := (s.chooseDeferred i).modQ i (fun c => { c with stall := .none })

/-- Run one Tehus instruction of `len` bytes on a quire, `firstOk` saying whether its first word is a legal
encoding (R66): a quire that cannot issue leaves the command without effect (log entry 6); a restored context replays
its pending list first (R258); an interrupt that is due is taken in the instruction's place (R236); a faulting
fetch raises its exception; otherwise the body decides. -/
def State.tehus (s : State) (i : QuireId) (len : Nat) (firstOk : Bool) (body : State → Body) : Res State :=
  if s.canIssue i then
    match (s.q i).pendingList with
    | p :: rest => .next (s.replay i p rest body)
    | [] =>
      let d := s.dueIrq i
      match d.1 with
      | some x => .next (d.2.enterIrq i x.1 x.2)
      | none =>
        if d.2.fetchHeld i len then .next d.2
        else
          let f := (d.2.issue i).fetchFault i len firstOk
          match f.1 with
          | some e => .next (f.2.raise i e)
          | none => .next ((body f.2).finish i)
  else .next s

/-- As `tehus`, for the majors 0x50 to 0x5F (R508): an automatically gated PRESS domain returns to ON. -/
def State.tehusP (s : State) (i : QuireId) (len : Nat) (firstOk : Bool) (body : State → Body) : Res State :=
  s.tehus i len firstOk (fun s =>
    body (if s.domState (34 + i.val) = 1 then s.setFld (pwrDom (34 + i.val)) 19 18 0 else s))

/-- The address after an instruction of `len` bytes. -/
def State.after (s : State) (i : QuireId) (len : Nat) : W64 := (s.q i).pc64 + BitVec.ofNat 64 len

/-- A body that changes only its quire and moves on by `len` bytes. -/
def State.simple (s : State) (i : QuireId) (len : Nat) (f : Quire → Quire) : Body :=
  .retire (s.modQ i f) (s.after i len)

/-- A body that needs a privilege level (R60). -/
def State.needPl (s : State) (i : QuireId) (pl : Nat) (b : State → Body) : Body :=
  if (s.q i).pl < pl then .trap s excPrivilege else b s

/-! ## Return (R244) -/

/-- ERET: earlier deferred writes complete first (R72); the reserved bits of a restored STATUS are 0
(R73). -/
def State.eret (s : State) (i : QuireId) : Body :=
  let s := s.modQ i (fun c => { c with deferred := [], useOld := [] })
  let c := s.q i
  let esc := c.escalated
  let saved : W64 := if esc then c.crGet 0x01D else c.crGet 0x012
  let st : W64 := saved &&& 0xF3140#64
  if c.pl < bits st 13 12 then .trap s excPrivilege
  else
    let c' := if esc then c.gw 63 (c.crGet 0x01E)
      else if bit (c.crGet 0x013) 31 then c.gw 63 (c.crGet 0x016) else c
    .ret (s.setQ i (c'.setStatus st)) (if esc then c.crGet 0x01C else c.crGet 0x011)

end Sys2Proof.Machine
end

