-- ==== Sys2Proof/Machine/Flags.lean ====
section
/-!
DEFINITION. The sticky flags of a quire and the stochastic-rounding count (02_number_formats.md, R46, R51,
R54).
-/
namespace Sys2Proof.Machine

/-- The engines of a quire that keep sticky flags, in the order of their groups in NUMFLAGS (R54). -/
inductive Eng where
  | scl | vec | prs | plg
  deriving DecidableEq, Repr

/-- ENG of R44. -/
def Eng.code : Eng → Nat
  | .scl => 0 | .vec => 1 | .prs => 2 | .plg => 3

/-- The flags an engine can set (R51). -/
def Eng.settable : Eng → Flags
  | .scl | .vec => 0x7F#8
  | .prs | .plg => 0x4F#8

/-- The bits of NUMFLAGS that some engine can set (R54). -/
abbrev numflagsMask : W64 := 0x4F4F7F7F#64

/-- An engine sets sticky flags (R51). -/
def Quire.setFlags (c : Quire) (e : Eng) (fl : Flags) : Quire :=
  if fl = 0 then c
  else c.crSet 0x021 (c.crGet 0x021 ||| ((fl &&& e.settable).setWidth 64 <<< (8 * e.code)))

/-- An instruction that rounded in SR counts once, modulo 2^47 (R46). -/
def Quire.countSr (c : Quire) (md : RMode) : Quire :=
  if md = .sr then c.crSet 0x023 ((c.crGet 0x023 + 1) &&& maskW 64 46 0) else c

end Sys2Proof.Machine
end

