-- ==== Sys2Proof/Machine/Operands.lean ====
section
/-!
DEFINITION. Operand forms of Tehus instructions: FP registers (R59), rounding modes (R41, R42, R63) and the
draws of stochastic rounding (R44).
-/
namespace Sys2Proof.Machine

/-- An FP register read as a code of w bits (R59). -/
def Quire.fr (c : Quire) (r : FReg) (w : Nat) : Nat := c.f[r].toNat % 2 ^ w

/-- Write a code of an FP format narrower than 64 bits or of 64 bits: the higher bits are 0 (R59). -/
def Quire.fw (c : Quire) (r : FReg) (x : Nat) : Quire := { c with f := c.f.set r (BitVec.ofNat 64 x) }

/-- The format of the .D and .S majors (R90, R92). -/
def fmtOf (dbl : Bool) : Fmt := if dbl then fp64 else fp32

/-- NUMCTL.PROFILE = STRICT (R53). -/
def Quire.strict (c : Quire) : Bool := bit (c.crGet 0x020) 0

/-- The mode of an encoding of R41. -/
def modeOf : Nat → Option RMode
  | 0 => some .rne | 1 => some .rtz | 2 => some .rdn | 3 => some .rup | 4 => some .sr | _ => none

/-- Whether an engine accepts a mode in a profile (R42). -/
def Eng.accepts (e : Eng) (strict : Bool) : RMode → Bool
  | .rdn | .rup => match e with
    | .scl | .vec => strict
    | .prs => false
    | .plg => true
  | _ => true

/-- Low bit of an engine's field in NUMCTL (R53). -/
def Eng.field : Eng → Nat
  | .scl => 1 | .vec => 4 | .prs => 7 | .plg => 10

/-- The mode of an instruction whose operation rounds: its EXT field, or DYN (R41, R42, R63); none when the
engine does not accept it. -/
def Quire.mode (c : Quire) (e : Eng) (rm : Ext) : Option RMode :=
  let code := (rm.getD 7).toNat
  let code := if code = 7 then bits (c.crGet 0x020) (e.field + 2) e.field else code
  (modeOf code).filter (e.accepts c.strict)

/-- The EXT field of an instruction that does not round must be 0 (R90). -/
def extZero (rm : Ext) : Bool :=
  match rm with
  | none => true
  | some x => x = 0

/-- The value r16 for one element (R44). -/
def Quire.draw (c : Quire) (e : Eng) (st ph ks i j : Nat) : Nat :=
  srDraw (c.crGet 0x022) c.ctx (BitVec.ofNat 2 e.code) (BitVec.ofNat 2 st) (BitVec.ofNat 1 ph)
    ((c.crGet 0x023).setWidth 47) c.logical (BitVec.ofNat 16 ks) (BitVec.ofNat 16 i) (BitVec.ofNat 16 j)

/-- How an engine rounds one element. -/
def Quire.rnd (c : Quire) (e : Eng) (md : RMode) (sat : Bool) (i j : Nat) : Rnd :=
  ⟨md, c.strict, if md = .sr then c.draw e 0 0 0 i j else 0, sat⟩

/-- An FP register number carried in a 6-bit field, none for 32 to 63 (R62, R66). -/
def fpReg (x : BitVec 6) : Option FReg :=
  if h : x.toNat < 32 then some ⟨x.toNat, h⟩ else none

/-- A general register number carried in a 6-bit field. -/
def gReg (x : BitVec 6) : GReg := x.toFin

end Sys2Proof.Machine
end

