-- ==== Sys2Proof/Machine/System.lean ====
section
/-!
DEFINITION. Control registers, fences and system instructions of the Tehus core (03_tehus_core.md, R68 to
R80, R93, R94), the caches they act on (R273, R288), and interrupt recognition (R236, R241).
-/
namespace Sys2Proof.Machine

/-! ## Control registers (R68, R69) -/

/-- A control register: writable bits, read and write level, read-only, deferred class (R68), saved. -/
structure CrInfo where
  mask : W64
  rl : Nat
  wl : Nat
  ro : Bool
  deferred : Bool
  saved : Bool
  deriving DecidableEq, Repr

/-- A readable and writable register of the serialising or renamed class. -/
def crRw (mask : W64) (rl wl : Nat) : Option CrInfo := some ⟨mask, rl, wl, false, false, true⟩

/-- A read-only register. -/
def crRo (saved : Bool) : Option CrInfo := some ⟨0, 0, 0, true, false, saved⟩

/-- Every bit of a 64-bit register. -/
abbrev allBits : W64 := 0xFFFFFFFFFFFFFFFF#64

/-- Bits [55:2], an address of instructions. -/
abbrev addrBits : W64 := 0x00FFFFFFFFFFFFFC#64

/-- Fields of a stack record (R239). -/
abbrev stackBits : W64 := 0xFCFFFFFFFFFFFFF0#64

/-- The control-register map (R68), none for an unimplemented number. -/
def crInfo (n : Nat) : Option CrInfo :=
  match n with
  | 0x000 => crRw 0xF0140#64 0 1
  | 0x001 | 0x002 | 0x003 | 0x004 | 0x005 => crRo false
  | 0x006 => crRo true
  | 0x010 => some ⟨0x00FFFFFFFFFFF000#64, 1, 1, false, true, true⟩
  | 0x011 => crRw addrBits 1 1
  | 0x012 => crRw 0xF3140#64 1 1
  | 0x013 => crRw 0xC00F00FF#64 1 1
  | 0x014 => crRw allBits 1 1
  | 0x015 => crRw 0x80000FFFFFFFFFFF#64 1 1
  | 0x016 => crRw allBits 1 1
  | 0x017 => crRw stackBits 0 1
  | 0x018 => crRw stackBits 1 1
  | 0x019 => crRw stackBits 2 2
  | 0x01A => crRw addrBits 2 2
  | 0x01B => crRw stackBits 2 2
  | 0x01C => crRw addrBits 2 2
  | 0x01D => crRw 0xFF0F0FFFFF#64 2 2
  | 0x01E => crRw allBits 2 2
  | 0x01F => crRw allBits 1 1
  | 0x020 => crRw 0x1FFF#64 0 0
  | 0x021 => crRw numflagsMask 0 0
  | 0x022 => crRw allBits 0 0
  | 0x023 => crRw 0x7FFFFFFFFFFF#64 0 0
  | 0x024 => crRw 3#64 0 0
  | 0x030 => crRw 0x1FFF#64 0 0
  | 0x031 => crRw 0x1FF#64 0 0
  | 0x032 => crRw 0xFFF#64 0 0
  | 0x040 => crRw 0xFF#64 0 0
  | 0x041 | 0x042 | 0x050 | 0x051 => crRo true
  | 0x052 | 0x053 | 0x054 | 0x055 | 0x059 | 0x05A | 0x05E | 0x05F => crRw allBits 0 0
  | 0x056 => crRw 0xFFFF8F#64 0 0
  | 0x057 => crRw 0x3FFFFFFF#64 0 0
  | 0x058 => crRw 0xFFFFFFFF#64 0 0
  | 0x05B => crRw 0xF#64 0 0
  | 0x05C | 0x05D => crRo true
  | 0x080 => some ⟨1#64, 1, 1, false, true, true⟩
  | 0x081 => some ⟨0x3FFFFFFFFE00#64, 1, 1, false, true, true⟩
  | _ =>
    if 0x0C0 ≤ n && n ≤ 0x0C7 then some ⟨allBits, 1, 1, false, false, false⟩
    else if 0x0C8 ≤ n && n ≤ 0x0CB then some ⟨allBits, 2, 2, false, false, false⟩
    else none

/-- A stack record's SZ is not reserved (R239). -/
def stackOk (v : W64) : Bool := stkSz v = 0 || (12 ≤ stkSz v && stkSz v ≤ 40)

/-- The modes of a NUMCTL value are accepted (R42, R53). -/
def numctlOk (v : W64) : Bool :=
  let strict := bit v 0
  let ok (e : Eng) : Bool := ((modeOf (bits v (e.field + 2) e.field)).filter (e.accepts strict)).isSome
  ok .scl && ok .vec && ok .prs && ok .plg

/-- The destination formats that PLCFG accepts (R197). -/
def dfmtOk (x : Nat) : Bool := x ≤ 6 || x = 0xA || x = 0xE || x = 0xF

/-- No field of a value about to be stored in a control register is reserved (R69 item 5). PL = 0b11 in ESTATUS or in
XINFO.STATUS, which R73 says is never reported, is stored (log entry 176). -/
def crValid (n : Nat) (v : W64) : Bool :=
  match n with
  | 0x013 => decide (bits v 19 16 ≤ 0xB)
  | 0x017 | 0x018 | 0x019 | 0x01B => stackOk v
  | 0x01D => decide (bits v 27 24 ≤ 4)
  | 0x020 => numctlOk v
  | 0x030 => decide (bits v 12 0 ≤ 4096)
  | 0x031 => decide (bits v 2 0 ≤ 3)
  | 0x040 => decide (bits v 7 0 ≤ 127)
  | 0x056 => dfmtOk (bits v 3 0)
  | 0x05B => decide (2 ≤ bits v 3 0) && decide (bits v 3 0 ≤ 8)
  | _ => true

/-- One bit per tile. -/
def tileBits (c : Quire) (f : Tile → Bool) : W64 :=
  packElems 64 1 16 (fun n => if f (c.tile.getD n {}) then 1 else 0)

/-- The value a control register shows, apart from the free-running counts (R77, R78, R148, R184, R230). -/
def State.crValue (s : State) (i : QuireId) (n : Nat) : W64 :=
  let c := s.q i
  match n with
  | 0x003 => BitVec.ofNat 64 (c.ctx.toNat * 2 ^ 32 + i.val * 2 ^ 8 + c.logical.toNat)
  | 0x005 => s.gtime
  | 0x041 => tileBits c (·.cfg) ||| (tileBits c (·.dirty) <<< 16) ||| (tileBits c (·.sliced) <<< 32)
  | 0x051 =>
    BitVec.ofNat 64 (c.acc[0].tag.toNat + c.acc[1].tag.toNat * 4 +
      (if c.acc[0].dirty then 16 else 0) + (if c.acc[1].dirty then 32 else 0))
  | 0x05C => packElems 64 4 16 (fun n => (c.tile.getD n {}).slices.toNat)
  | _ => c.crGet n

/-- The control registers that count clock cycles (R79, R185, R200): how far they have moved since they
were last looked at is a value the spec leaves open (log entry 7). -/
def crTimed (n : Nat) : Bool := n = 0x004 || n = 0x053 || n = 0x054 || n = 0x055 || n = 0x05A

/-- Read a control register. CYCLE moves with every cycle; a press or plough counter has moved only where an instruction
of its unit has run since it was last read or written (R79, R185, R200). -/
def State.crRead (s : State) (i : QuireId) (n : Nat) : W64 × State :=
  if n = 0x004 || (crTimed n && (s.q i).timed.contains n) then
    let d := s.fresh
    let v := (s.q i).crGet n + d.1
    (v, d.2.modQ i (fun c => { c.crSet n v with timed := c.timed.filter (fun m => m ≠ n) }))
  else (s.crValue i n, s)

/-- Write a control register with the checks past: the writable bits change; a deferred one remembers the
value in force before (R72). -/
def Quire.crWrite (c : Quire) (n : Nat) (info : CrInfo) (x : W64) : Quire :=
  let old := c.crGet n
  let c := if info.deferred && (c.deferred.find? (fun e => e.1 = n)).isNone
    then { c with deferred := (n, old) :: c.deferred } else c
  { c.crSet n ((old &&& ~~~ info.mask) ||| (x &&& info.mask)) with timed := c.timed.filter (fun m => m ≠ n) }

/-- The three control-register instructions (R69, R70): `f old operand` is the value written. -/
def crOp (q : QuireId) (rd : GReg) (cr : BitVec 12) (rs1 : GReg) (reads writes : Bool)
    (f : W64 → W64 → W64) (s : State) : Res State :=
  s.tehus q 4 (crInfo cr.toNat).isSome (fun s =>
    let n := cr.toNat
    match crInfo n with
    | none => .trap s excIllegal
    | some info =>
      let c := s.q q
      let rl := if (n = 4 || n = 5) && bit c.status 8 then 1 else info.rl
      if reads && c.pl < rl then .trap s excPrivilege
      else if writes && c.pl < info.wl then .trap s excPrivilege
      else if writes && info.ro then .trap s excIllegal
      else
        let v := f (s.crValue q n) (c.gr rs1)
        if writes && !crTimed n &&
            !crValid n ((c.crGet n &&& ~~~ info.mask) ||| (v &&& info.mask)) then .trap s excIllegal
        else
          let r := if reads then s.crRead q n else (0, s)
          r.2.simple q 4 (fun c =>
            let x := f r.1 (c.gr rs1)
            let c := if writes then c.crWrite n info x else c
            c.gw rd r.1))

/-- CRW (R70): with rd = 0 it is checked as a write only. -/
def execCrw (q : QuireId) (rd : GReg) (cr : BitVec 12) (rs1 : GReg) (s : State) : Res State :=
  crOp q rd cr rs1 (rd ≠ 0) true (fun _ x => x) s
/-- CRS (R70): with rs1 = 0 it performs no write. -/
def execCrs (q : QuireId) (rd : GReg) (cr : BitVec 12) (rs1 : GReg) (s : State) : Res State :=
  crOp q rd cr rs1 true (rs1 ≠ 0) (fun old x => old ||| x) s
/-- CRC (R70): with rs1 = 0 it performs no write. -/
def execCrc (q : QuireId) (rd : GReg) (cr : BitVec 12) (rs1 : GReg) (s : State) : Res State :=
  crOp q rd cr rs1 true (rs1 ≠ 0) (fun old x => old &&& ~~~ x) s

/-! ## Fences (R93, R288) -/

/-- FENCE.D (R288): every earlier access of the quire is performed: its stores to the host and to other nodes have
been accepted by the port or the router. -/
def execFenceD (q : QuireId) (s : State) : Res State :=
  s.tehus q 4 true (fun s =>
    let t := s.drain q
    if !(t.q q).stores.isEmpty then .stay t else .retire t (t.after q 4))

/-- FENCE.S (R247, R288): every earlier store has completed; a pending store error becomes a precise
exception at the fence, which clears it. -/
def execFenceS (q : QuireId) (s : State) : Res State :=
  s.tehus q 4 true (fun s =>
    let t := s.drain q
    if t.storesOut q then .stay t
    else match (t.q q).storeErr with
    | none => .retire t (t.after q 4)
    | some e =>
      .trap (t.modQ q (fun c => { c with storeErr := none }))
        ⟨32, 0, e.addr, syndOf 0 e.entry ||| (if e.ovf then 1#64 <<< 63 else 0), false⟩)

/-- FENCE.T (R288): PRESSCLK-engine instructions complete as they execute; their stores to the host and to other nodes
have been accepted by the port or the router. -/
def execFenceT (q : QuireId) (s : State) : Res State :=
  s.tehus q 4 true (fun s =>
    let t := s.drainStores q
    if !(t.q q).stores.isEmpty then .stay t else .retire t (t.after q 4))

/-! ## SYSTEM (R94) -/

/-- SYSCALL (R94). -/
def execSyscall (q : QuireId) (s : State) : Res State :=
  s.tehus q 4 true (fun s => .trap s (exc 13))

/-- BREAK (R94). -/
def execBrk (q : QuireId) (s : State) : Res State :=
  s.tehus q 4 true (fun s => .trap s (exc 12))

/-- ERET (R94, R244). -/
def execEret (q : QuireId) (s : State) : Res State :=
  s.tehus q 4 true (fun s => s.needPl q 1 (fun s => s.eret q))

/-- CSYNC (R72, R94, R303): deferred writes complete; one of a translation control discards the segment
cache and the TLB. -/
def execCsync (q : QuireId) (s : State) : Res State :=
  s.tehus q 4 true (fun s => s.simple q 4 (fun c =>
    let xl := c.deferred.any (fun e => e.1 = 0x080 || e.1 = 0x081)
    { c with deferred := [], useOld := [], segCache := if xl then [] else c.segCache, tlb := if xl then [] else c.tlb }))

/-- WAIT (R94): nothing issues until an interrupt is pending. -/
def execWait (q : QuireId) (s : State) : Res State :=
  s.tehus q 4 true (fun s => s.needPl q 1 (fun s => s.simple q 4 (fun c => { c with stall := .wait })))

/-- HALT (R94, R249). -/
def execHalt (q : QuireId) (s : State) : Res State :=
  s.tehus q 4 true (fun s => s.needPl q 2 (fun s => .stay (s.haltQuire q 0x06 (s.q q).pc64)))

/-- Whether a change of the L2 configuration is in progress (R275). -/
def State.l2Busy (s : State) (i : QuireId) : Bool := bit (s.reg (0x100108 + i.val * 0x10000)) 1

/-- Whether the lines of a way are being cleaned, to be invalidated (R273, R277, R278): all of them for a CINV and while
L2 is being disabled; otherwise those of the groups that WAYON has given up. -/
def State.cleaning (s : State) (i : QuireId) (w : Fin 16) : Bool :=
  let ctl := s.reg (0x100100 + i.val * 0x10000)
  (s.q i).l2Cinv || (s.l2Busy i && s.l2On i && (!bit ctl 0 || !bit ctl (4 + w.val / 4)))

/-- The lines that a clean in progress has still to write back (R271, R273). -/
def State.dirtyLines (s : State) (i : QuireId) : List Nat :=
  ((s.q i).l2.filter (fun e => e.2.1 = .modified && s.cleaning i e.2.2)).map (·.1)

/-- A clean moves dirty lines into the eviction buffer while it has room (R271, R273): a line in it is no
longer Modified in L2. -/
def State.feedEvict (s : State) (i : QuireId) : State :=
  let ds := (s.dirtyLines i).take (32 - (s.q i).evict.length)
  s.modQ i (fun c => { c with
    evict := c.evict ++ ds
    l2 := c.l2.map (fun e => if ds.contains e.1 then (e.1, .exclusive, e.2.2) else e) })

/-- A clean and invalidation of the whole L2 starts (R273). -/
def State.startCinv (s : State) (i : QuireId) : State :=
  (s.modQ i (fun c => { c with l2Cinv := true })).feedEvict i

/-- Whether every line that a clean and invalidation covers has been written back and acknowledged. -/
def State.cleaned (s : State) (i : QuireId) : Bool := (s.dirtyLines i).isEmpty && (s.q i).evict.isEmpty

/-- CINV (R94, R273, R276): of L1I and of L1D with its victim cache every line goes; of L2 the clean starts,
and nothing issues until it completes. While a configuration change is in progress a CINV of L2 waits; while
L2 is off it completes at once. -/
def execCinv (q : QuireId) (sel : BitVec 6) (s : State) : Res State :=
  s.tehus q 4 (sel.toNat ≤ 2) (fun s =>
    match sel.toNat with
    | 0 => s.simple q 4 (fun c => { c with l1i := [] })
    | 1 => s.simple q 4 (fun c => { c with l1d := [], victim := [] })
    | _ => s.needPl q 1 (fun s =>
        if s.l2Busy q then .stay s
        else if !s.l2On q then s.simple q 4 id
        else ((s.drainAtomics q).startCinv q).simple q 4 (fun c => { c with stall := .cinvL2 })))

/-! ## Interrupt recognition (R236, R241) and reserved encodings (R66) -/

/-- INTERRUPT_ENTRY (R235, R236): nothing happens when no pending interrupt is above ML. -/
def execInterruptEntry (q : QuireId) (s : State) : Res State := .next (s.takeInterrupt q)

/-- TIMER (R241): GTIME reaches COMPARE while EN is set, so that TIMER is pending (log entry 8). -/
def execTimer (q : QuireId) (s : State) : Res State :=
  let t := (s.q q).crGet 0x01F
  if bit t 63 && decide (s.gtime.toNat < bits t 62 0) then .next { s with gtime := BitVec.ofNat 64 (bits t 62 0) }
  else .next s

/-- ILLEGAL_INSTRUCTION (R65, R66): the quire reaches a word that encodes no instruction of generation 1. -/
def execIllegalInstruction (q : QuireId) (s : State) : Res State :=
  s.tehus q 4 false (fun s => .trap s excIllegal)

end Sys2Proof.Machine
end

