-- ==== Sys2Proof/Machine/Caches.lean ====
section
/-!
DEFINITION. Events of a quire's caches and of the text block's refresh (10_memory_caches.md), and the
responses, atomics and store errors that end a quire's accesses.
-/
namespace Sys2Proof.Machine

/-! ## Delivering a value -/

/-- Write a loaded value to its destination (R59, R85, R87). -/
def Quire.deliver (c : Quire) (d : LoadDst) (v : W64) : Quire :=
  match d with
  | .g rd n sg => c.gw rd (if sg then sext64 (8 * n) v.toNat else BitVec.ofNat 64 (v.toNat % 2 ^ (8 * n)))
  | .f fd n => c.fw fd (v.toNat % 2 ^ (8 * n))

/-- A waiting load or atomic of `len` bytes completes with a value. On a quire that is quiescing nothing
more is taken at the boundary (R254). -/
def State.finishLoad (s : State) (i : QuireId) (d : LoadDst) (len : Nat) (v : W64) : State :=
  let t := s.modQ i (fun c => { c.deliver d v with stall := .none })
  if (s.q i).runs then t.retire i (s.after i len)
  else t.modQ i (fun c => { c.crSet 0x006 (c.crGet 0x006 + 1) with pc := (s.after i len).setWidth 56 })

/-- A waiting load or atomic fails (R265): a record of the error's type, and DATA_POISON; a quire that is
quiescing performs it again after restore (R254). -/
def State.failLoad (s : State) (i : QuireId) (type unit : Nat) (va : W64) (acc : Nat) : State :=
  let s := s.modQ i (fun c => { c with stall := .none })
  let r := s.logErr unit type 0 va 0 (some (s.q i).ctx)
  if !(s.q i).runs then r.2 else r.2.raise i ⟨15, acc, va, syndOf 0 r.1, false⟩

/-- RESPONSE_TIMEOUT (R265): an access to the host aperture or to another node received no response
within 2 µs. -/
def execResponseTimeout (q : QuireId) (s : State) : Res State :=
  match (s.q q).stall with
  | .host tag _ _ va acc =>
    .next ({ s with hostReqs := s.hostReqs.filter (fun r => r.tag ≠ tag) }.failLoad q 0x0A
      (unitCode 0x0A 0) va acc)
  | .remote _ _ _ va acc => .next (s.failLoad q 0x0A (unitCode 0x0A 0) va acc)
  | _ => .next s

/-- The oldest store or posted atomic of a quire that another node has not answered. -/
def State.oldestRemote (s : State) (i : QuireId) : Option (Tag × W64) :=
  s.tags.findSome? (fun t => match t.who with | .store j va => if j = i then some (t, va) else none | _ => none)

/-- The oldest posted atomic of a quire that the host has not answered. -/
def State.oldestHost (s : State) (i : QuireId) : Option (HostReq × W64) :=
  s.hostReqs.findSome? (fun r => if r.quire = i then r.post.map (fun va => (r, va)) else none)

/-- STORE_ERROR_LATCH (R247): a store or posted atomic at another node or at the host gets no response in time; otherwise the oldest buffered
store of the quire fails, by an error response or by the response timeout, and its data is not written. -/
def execStoreErrorLatch (q : QuireId) (timeout : Bool) (s : State) : Res State :=
  let c := s.q q
  match (if timeout then s.oldestRemote q else none), (if timeout then s.oldestHost q else none), c.stores with
  | none, some (r, va), _ =>
    let l := s.logErr (unitCode 0x0A 0) 0x0A 0 0 0 (some c.ctx)
    .next (({ l.2 with hostReqs := s.hostReqs.erase r } : State).latchStoreErr q va l.1)
  | some (t, va), _, _ =>
    let l := s.logErr (unitCode 0x0A 0) 0x0A 0 0 0 (some c.ctx)
    .next (({ l.2 with tags := s.tags.replace t { t with who := .held } } : State).latchStoreErr q va l.1)
  | none, none, [] => .next s
  | none, none, e :: r =>
    let unit := if timeout || s.remotePa e.2.1 then unitCode 0x0A 0 else unitCode 0x0C 0
    let l := s.logErr unit (if timeout then 0x0A else 0x09) 0
      (BitVec.ofNat 64 (localOf e.2.1)) 0 (some c.ctx)
    .next ((l.2.modQ q (fun c => { c with stores := r })).latchStoreErr q e.1 l.1)

/-! ## Far atomics (R286, R570) -/

/-- FAR_ATOMIC_EXECUTE (R286): the atomic at the head of a unit's queue executes. -/
def execFarAtomicExecute (unit : BitVec 16) (s : State) : Res State := .next (s.farExecute unit.toNat)

/-- ATOMIC_RESULT (R87, R570): the old value of the quire's executed atomic is delivered. -/
def execAtomicResult (q : QuireId) (s : State) : Res State :=
  match (s.q q).stall with
  | .atomic d =>
    match s.atomics.find? (fun e => e.quire = some q && !e.posted && e.result.isSome) with
    | some e => .next ({ s with atomics := s.atomics.erase e }.finishLoad q d 4 (e.result.getD 0))
    | none => .next s
  | _ => .next s

/-! ## L1D and L2 (R269, R271, R274 to R278) -/

/-- L1D_LINE_FILL (R267, R269): a line enters L1D unless it is there or poisoned; one of a coherent tier through L2. -/
def execL1dLineFill (q : QuireId) (addr : W64) (s : State) : Res State :=
  let a := addr.toNat % 2 ^ 46
  if (s.poisonOf a).isSome || !s.backed a then .next s
  else match regionOf a with
    | .folio =>
      if ((s.q q).l1Copy (a / 64)).isSome then .next s
      else .next (s.l1dPut q (a / 64) (s.lineData (a / 64)))
    | r => .next (if r.coherent then s.l1dTouch q (a / 64) else s)

/-- L2_WRITEBACK_ACK (R271): the line leaves the eviction buffer, and a clean in progress goes on. At a tier that is
disabled the write-back is lost (R457). -/
def execL2WritebackAck (q : QuireId) (addr : W64) (s : State) : Res State :=
  .next ((s.ackWriteback q (addr.toNat % 2 ^ 46 / 64)).feedEvict q)

/-- A write of Q_CACHE_CTL (R274, R276 to R278). -/
def State.cacheCtlWrite (s : State) (i : QuireId) (src : Source) (v : W32) : State :=
  let ctl := 0x100100 + i.val * 0x10000
  let stat := ctl + 8
  if s.l2Busy i then s.setFld stat 8 8 1
  else if bit v 0 && bits v 7 4 = 0 then s.reject src ctl
  else
    let was := bit (s.reg stat) 0
    let s := s.setReg ctl (v.setWidth 64 &&& 0xF1#64)
    if bit v 0 = was && (!was || bits v 7 4 = s.fld stat 19 16) then s
    else (s.setFld stat 1 1 1).feedEvict i

/-- Q_CACHE_CTL (R277). -/
def execQCacheCtl (q : QuireId) (src : Source) (v : W32) (s : State) : Res State :=
  s.inOrder src (.write 0 (qwin q 0x100) false (v.setWidth 64)) fun s =>
    .next (s.quireGate q src 0x100 (fun s => s.cacheCtlWrite q src v))

/-- CACHE_CFG_COMPLETE (R277, R278): once every line to be invalidated is clean, the change in progress takes effect and
BUSY clears. L2 that is disabled loses every line; a group of ways that is given up, its own. -/
def execCacheCfgComplete (q : QuireId) (s : State) : Res State :=
  let ctl := 0x100100 + q.val * 0x10000
  let stat := ctl + 8
  let en := bit (s.reg ctl) 0
  if !s.l2Busy q || !(s.dirtyLines q).isEmpty || (!en && !(s.q q).evict.isEmpty) then .next s
  else
    let way := s.fld ctl 7 4
    let gone := (s.q q).l2.filter (fun e => s.cleaning q e.2.2)
    let t := s.modQ q (fun c => c.l2Lose (fun n => gone.any (fun e => e.1 = n)))
    let t := ((t.setFld stat 1 0 (if en then 1 else 0)).setFld stat 19 16 (if en then way else 0))
    .next (t.emit (unitCode 1 q.val) 0x0106 none (t.reg stat) 0)

/-! ## Text-block refresh (R16, R282) -/

/-- Offset of TXB_REFSTAT of a channel (R283). -/
def refstat (ch : Fin 32) : Nat := 0xA00000 + ch.val * 0x1000

/-- REFRESH_INTERVAL (R16, R282): an interval of a channel ends. With 8 refreshes owed, one is forced;
otherwise the refresh due is performed, or postponed for the requests that wait. The rate changes at this
boundary: doubled above 85 °C, base below. -/
def execRefreshInterval (ch : Fin 32) (postponed : Bool) (s : State) : Res State :=
  let pend := s.fld (refstat ch) 3 0
  let temp := s.fld (refstat ch) 23 16
  let u := unitCode 5 ch.val
  let s := if 85 < temp then s.setFld (refstat ch) 8 8 1
    else if temp < 85 then s.setFld (refstat ch) 8 8 0 else s
  if 8 ≤ pend then
    .next (((s.setFld (refstat ch + 8) 31 0 ((s.fld (refstat ch + 8) 31 0 + 1) % 2 ^ 32)).countEvent u
      0x0502 1).countEvent u 0x0503 1)
  else if postponed then
    let s := s.setFld (refstat ch) 3 0 (pend + 1)
    .next (if pend = 7 then s.emit u 0x0501 none (BitVec.ofNat 64 temp) 0 else s)
  else .next (s.countEvent u 0x0502 1)

/-- REFRESH_CATCH_UP (R282): an idle channel performs one refresh it owes. -/
def execRefreshCatchUp (ch : Fin 32) (s : State) : Res State :=
  let pend := s.fld (refstat ch) 3 0
  if pend = 0 then .next s
  else .next ((s.setFld (refstat ch) 3 0 (pend - 1)).countEvent (unitCode 5 ch.val) 0x0502 1)

/-- REFRESH_RATE_CHANGE (R16, R283): the channel's sensor reads `temp` °C; the rate follows at the next
interval boundary. -/
def execRefreshRateChange (ch : Fin 32) (temp : BitVec 8) (s : State) : Res State :=
  .next (s.setFld (refstat ch) 23 16 temp.toNat)

end Sys2Proof.Machine
end

