-- ==== Sys2Proof/Machine/Vector.lean ====
section
/-!
DEFINITION. Vector and mask instructions, memory forms apart (04_long_vectors.md, R99 to R120).
-/
namespace Sys2Proof.Machine

/-- A vector register's 4,096 bytes (R99). -/
abbrev VWord := BitVec 32768
/-- A mask register (R100). -/
abbrev MWord := BitVec 4096

/-! ## Configuration (R101 to R106, R110, R111) -/

/-- VL (R102). -/
def Quire.vl (c : Quire) : Nat := bits (c.crGet 0x030) 12 0
/-- SEW in bits, from VTYPE.SEW (R101, R103). -/
def sewOf (x : Nat) : Nat := 8 * 2 ^ (x % 4)
/-- SEW (R103). -/
def Quire.sew (c : Quire) : Nat := sewOf (bits (c.crGet 0x031) 2 0)
/-- VLMAX of an element width (R101). -/
def vlmaxOf (sew : Nat) : Nat := 32768 / sew
/-- VTYPE.MP (R103). -/
def Quire.mp (c : Quire) : Bool := bit (c.crGet 0x031) 5
/-- VTYPE.TP (R103). -/
def Quire.tp (c : Quire) : Bool := bit (c.crGet 0x031) 4
/-- The active mask (R100). -/
def Quire.mask (c : Quire) : MWord := c.m.getD (bits (c.crGet 0x031) 8 6) 0
/-- VSTART (R104). -/
def Quire.vstart (c : Quire) : Nat := bits (c.crGet 0x032) 11 0
/-- Element i below VL and at or above VSTART is active (R105). -/
def Quire.on (c : Quire) (masked : Bool) (i : Nat) : Bool := !masked || bit c.mask i
/-- The active indices of an instruction (R105). -/
def Quire.active (c : Quire) (masked : Bool) : List Nat :=
  (List.range c.vl).filter (fun i => c.vstart ≤ i && c.on masked i)

/-- The floating-point format at SEW (R103, R112); none at SEW 8. -/
def Quire.vfmt (c : Quire) : Option Fmt :=
  match c.sew with
  | 64 => some fp64
  | 32 => some fp32
  | 16 => some (if bit (c.crGet 0x031) 3 then bf16 else fp16)
  | _ => none

/-- The configuration checks of R111 that every vector instruction outside VLD and VST shares. -/
def Quire.vconfigBad (c : Quire) : Bool := vlmaxOf c.sew < c.vl || c.vstart ≠ 0

/-- A vector register. -/
def Quire.vr (c : Quire) (r : VReg) : VWord := c.v[r]

/-- Write a vector register: its group becomes dirty (R106). -/
def Quire.vw (c : Quire) (r : VReg) (x : VWord) : Quire :=
  { c with v := c.v.set r x, vdirty := setBit c.vdirty (r.val / 4) true }

/-- Write a mask register (R106). -/
def Quire.mw (c : Quire) (r : MReg) (x : MWord) : Quire :=
  { c with m := c.m.set r x, vdirty := setBit c.vdirty 8 true }

/-- A destination with elements `w` bits wide (R105): active elements take `f`, inactive ones follow MP, tail
ones TP; an element for which `skip` holds is not written. -/
def Quire.dest (c : Quire) (masked : Bool) (w : Nat) (old : VWord) (skip : Nat → Bool) (f : Nat → Nat) :
    VWord :=
  packElems 32768 w (32768 / w) (fun i =>
    if skip i then elem old w i
    else if i < c.vl then
      if c.on masked i then f i
      else if c.mp then 0 else elem old w i
    else if c.tp then 0 else elem old w i)

/-- A destination mask (R105). -/
def Quire.destMask (c : Quire) (masked : Bool) (old : MWord) (f : Nat → Bool) : MWord :=
  packElems 4096 1 4096 (fun i =>
    let keep := elem old 1 i
    if i < c.vl then
      if c.on masked i then (if f i then 1 else 0)
      else if c.mp then 0 else keep
    else if c.tp then 0 else keep)

/-- VECTOR_CONFIG (R234). -/
abbrev excVector : Exc := exc 8

/-- A vector instruction of one unit's kind: illegal forms first, then VECTOR_CONFIG, then its effect
(R111). -/
def vbody (q : QuireId) (len : Nat) (firstOk : Bool) (legal cfg : Quire → Bool) (f : Quire → Quire)
    (s : State) : Res State :=
  s.tehus q len firstOk (fun s =>
    let c := s.q q
    if !legal c then .trap s excIllegal
    else if c.vconfigBad || !cfg c then .trap s excVector
    else s.simple q len f)

/-- VSETVL (R110). -/
def execVsetvl (q : QuireId) (rd rs1 : GReg) (imm : BitVec 12) (s : State) : Res State :=
  s.tehus q 4 (imm.toNat < 512 && bits imm 2 0 ≤ 3) (fun s => s.simple q 4 (fun c =>
    let vlmax := vlmaxOf (sewOf (bits imm 2 0))
    let avl := if rs1 = 0 then vlmax else (c.gr rs1).toNat
    let vl : W64 := BitVec.ofNat 64 (min avl vlmax)
    (((c.crSet 0x031 (imm.setWidth 64)).crSet 0x030 vl).crSet 0x032 0).gw rd vl))

/-! ## Floating point (R112, R113) -/

/-- The second operand of element i: vs2 or the scalar f register, at width w. -/
def Quire.vf2 (c : Quire) (scalar : Bool) (rs2 : Fin 32) (w i : Nat) : Nat :=
  if scalar then c.fr rs2 w else elem (c.vr rs2) w i

/-- The OR of the flags of the active elements. -/
def flagsOver (is : List Nat) (f : Nat → Flags) : Flags := is.foldl (fun a i => a ||| f i) 0

/-- Write an element-wise result with flags. -/
def Quire.elementwise (c : Quire) (m : Bool) (vd : VReg) (w : Nat) (f : Nat → Nat × Flags) : Quire :=
  (c.setFlags .vec (flagsOver (c.active m) (fun i => (f i).2))).vw vd
    (c.dest m w (c.vr vd) (fun _ => false) (fun i => (f i).1))

/-- A VF or VFS function that rounds (R109, R112): in SR it counts when some element is active (R46). -/
def vfRound (q : QuireId) (m : Bool) (vd : VReg) (rm : Ext)
    (f : Quire → Fmt → Rnd → Nat → Nat × Flags) (s : State) : Res State :=
  vbody q (extLen rm) true (fun c => (c.mode .vec rm).isSome) (fun c => c.vfmt.isSome) (fun c =>
    match c.mode .vec rm, c.vfmt with
    | some md, some ft =>
      let c' := c.elementwise m vd ft.width (fun i => f c ft (c.rnd .vec md false i 0) i)
      if c.active m = [] then c' else c'.countSr md
    | _, _ => c) s

/-- A VF or VFS function that does not round. -/
def vfPlain (q : QuireId) (m : Bool) (vd : VReg) (rm : Ext)
    (f : Quire → Fmt → Nat → Nat × Flags) (s : State) : Res State :=
  vbody q (extLen rm) true (fun _ => extZero rm) (fun c => c.vfmt.isSome) (fun c =>
    match c.vfmt with
    | some ft => c.elementwise m vd ft.width (fun i => f c ft i)
    | none => c) s

/-- A two-operand rounding function. -/
def vfRR (q : QuireId) (m scalar : Bool) (vd vs1 : VReg) (rs2 : Fin 32) (rm : Ext)
    (f : Fmt → Rnd → FVal → FVal → Nat × Flags) (s : State) : Res State :=
  vfRound q m vd rm (fun c ft r i =>
    f ft r (ft.read c.strict (elem (c.vr vs1) ft.width i))
      (ft.read c.strict (c.vf2 scalar rs2 ft.width i))) s

/-- A fused multiply-add with vd as addend. -/
def vfFma (q : QuireId) (m scalar : Bool) (vd vs1 : VReg) (rs2 : Fin 32) (rm : Ext)
    (negProd negAdd : Bool) (s : State) : Res State :=
  vfRound q m vd rm (fun c ft r i =>
    let a := ft.read c.strict (elem (c.vr vs1) ft.width i)
    let x := ft.read c.strict (elem (c.vr vd) ft.width i)
    fmaVals ft r (if negProd then a.negate else a) (ft.read c.strict (c.vf2 scalar rs2 ft.width i))
      (if negAdd then x.negate else x)) s

/-- Minimum and maximum. -/
def vfMinMax (q : QuireId) (m scalar : Bool) (vd vs1 : VReg) (rs2 : Fin 32) (rm : Ext) (wantMax : Bool)
    (s : State) : Res State :=
  vfPlain q m vd rm (fun c ft i =>
    minMaxVals ft wantMax (ft.read c.strict (elem (c.vr vs1) ft.width i))
      (ft.read c.strict (c.vf2 scalar rs2 ft.width i))) s

/-- Sign injection on encodings. -/
def vfSign (q : QuireId) (m scalar : Bool) (vd vs1 : VReg) (rs2 : Fin 32) (rm : Ext)
    (f : Bool → Bool → Bool) (s : State) : Res State :=
  vfPlain q m vd rm (fun c ft i =>
    let a := elem (c.vr vs1) ft.width i
    let b := c.vf2 scalar rs2 ft.width i
    let h := 2 ^ (ft.width - 1)
    (a % h + (if f (h ≤ a) (h ≤ b) then h else 0), 0)) s

/-- VFADD (R112). -/
def execVfadd (q : QuireId) (m scalar : Bool) (vd vs1 : VReg) (rs2 : Fin 32) (rm : Ext) (s : State) :
    Res State := vfRR q m scalar vd vs1 rs2 rm addVals s
/-- VFSUB (R112). -/
def execVfsub (q : QuireId) (m scalar : Bool) (vd vs1 : VReg) (rs2 : Fin 32) (rm : Ext) (s : State) :
    Res State := vfRR q m scalar vd vs1 rs2 rm (fun f r a b => addVals f r a b.negate) s
/-- VFMUL (R112). -/
def execVfmul (q : QuireId) (m scalar : Bool) (vd vs1 : VReg) (rs2 : Fin 32) (rm : Ext) (s : State) :
    Res State := vfRR q m scalar vd vs1 rs2 rm mulVals s
/-- VFDIV (R112). -/
def execVfdiv (q : QuireId) (m scalar : Bool) (vd vs1 : VReg) (rs2 : Fin 32) (rm : Ext) (s : State) :
    Res State := vfRR q m scalar vd vs1 rs2 rm divVals s
/-- VFSQRT (R112). -/
def execVfsqrt (q : QuireId) (m : Bool) (vd vs1 : VReg) (rm : Ext) (s : State) : Res State :=
  vfRound q m vd rm (fun c ft r i => sqrtVal ft r (ft.read c.strict (elem (c.vr vs1) ft.width i))) s
/-- VFMIN (R112). -/
def execVfmin (q : QuireId) (m scalar : Bool) (vd vs1 : VReg) (rs2 : Fin 32) (rm : Ext) (s : State) :
    Res State := vfMinMax q m scalar vd vs1 rs2 rm false s
/-- VFMAX (R112). -/
def execVfmax (q : QuireId) (m scalar : Bool) (vd vs1 : VReg) (rs2 : Fin 32) (rm : Ext) (s : State) :
    Res State := vfMinMax q m scalar vd vs1 rs2 rm true s
/-- VFSGN (R112). -/
def execVfsgn (q : QuireId) (m scalar : Bool) (vd vs1 : VReg) (rs2 : Fin 32) (rm : Ext) (s : State) :
    Res State := vfSign q m scalar vd vs1 rs2 rm (fun _ b => b) s
/-- VFSGNN (R112). -/
def execVfsgnn (q : QuireId) (m scalar : Bool) (vd vs1 : VReg) (rs2 : Fin 32) (rm : Ext) (s : State) :
    Res State := vfSign q m scalar vd vs1 rs2 rm (fun _ b => !b) s
/-- VFSGNX (R112). -/
def execVfsgnx (q : QuireId) (m scalar : Bool) (vd vs1 : VReg) (rs2 : Fin 32) (rm : Ext) (s : State) :
    Res State := vfSign q m scalar vd vs1 rs2 rm (fun a b => a != b) s
/-- VFMADD (R112). -/
def execVfmadd (q : QuireId) (m scalar : Bool) (vd vs1 : VReg) (rs2 : Fin 32) (rm : Ext) (s : State) :
    Res State := vfFma q m scalar vd vs1 rs2 rm false false s
/-- VFMSUB (R112). -/
def execVfmsub (q : QuireId) (m scalar : Bool) (vd vs1 : VReg) (rs2 : Fin 32) (rm : Ext) (s : State) :
    Res State := vfFma q m scalar vd vs1 rs2 rm false true s
/-- VFNMADD (R112). -/
def execVfnmadd (q : QuireId) (m scalar : Bool) (vd vs1 : VReg) (rs2 : Fin 32) (rm : Ext) (s : State) :
    Res State := vfFma q m scalar vd vs1 rs2 rm true true s
/-- VFNMSUB (R112). -/
def execVfnmsub (q : QuireId) (m scalar : Bool) (vd vs1 : VReg) (rs2 : Fin 32) (rm : Ext) (s : State) :
    Res State := vfFma q m scalar vd vs1 rs2 rm true false s

/-- 2^128 × 2^(2^−j), rounded down, for j from 1: iterated square roots. -/
def root2 : Nat → Nat
  | 0 => 2 ^ 129
  | j + 1 => Nat.sqrt (root2 j * 2 ^ 128)

/-- 2^128 × 2^(frac / 2^k) for a fraction of k bits, to within a few units in the 128-bit value: the product
of the roots that the fraction's leading bits select. -/
def exp2Frac (frac k : Nat) : Nat :=
  (List.range (min k 100)).foldl
    (fun acc j => if frac / 2 ^ (k - 1 - j) % 2 = 1 then acc * root2 (j + 1) / 2 ^ 128 else acc) (2 ^ 128)

/-- VFEXP2 on one value (R113). `u` is a value the spec leaves open: it moves the code delivered for a
non-integer within the error bound, 2 units for FP32 and 1 for the 16-bit formats (log entry 9). Among the tiny results of
STRICT an integer's is as open, and sets UNF and INX where it is not exact (R51). NaN inputs follow this rule in both
profiles (log entry 162). -/
def exp2Val (f : Fmt) (strict : Bool) (u : Nat) (a : FVal) : Nat × Flags :=
  let honour := strict && f.long
  let emin : Int := 1 - (f.bias : Int)
  match a with
  | .nan _ sg _ => (f.qnan, if sg then fINV else 0)
  | .inf neg => (if neg then 0 else f.infinity false, 0)
  | .fin neg m e =>
    let k := (-e).toNat
    let mag : Nat := m * 2 ^ e.toNat
    let whole : Nat := if 0 ≤ e then mag else m / 2 ^ k
    let fr0 : Nat := if 0 ≤ e then 0 else m % 2 ^ k
    let isInt : Bool := fr0 = 0
    let fl : Int := if !neg then (whole : Int) else if isInt then -(whole : Int) else -(whole : Int) - 1
    let frac : Nat := if neg && !isInt then 2 ^ k - fr0 else fr0
    if (f.bias : Int) < fl then (f.infinity false, fOVF ||| fINX)
    else if isInt && emin ≤ fl then
      f.round .rne true false false 1 fl 0
    else if fl < emin then
      if honour && emin - f.fbits ≤ fl then
        let sh := (fl - (emin - f.fbits)).toNat
        let n := if isInt then 2 ^ sh else exp2Frac frac k / 2 ^ (128 - sh)
        let x := max 1 (min (if isInt then n + u % 5 - 2 else n + u % 4 - 1) (2 ^ f.fbits - 1))
        (x, if isInt && x = n then 0 else fUNF ||| fINX)
      else (0, fUNF ||| fINX)
    else
      let t := exp2Frac frac k
      let base := (fl + f.bias).toNat * 2 ^ f.fbits
      let n := base + (t / 2 ^ (128 - f.fbits) - 2 ^ f.fbits)
      let n := if f.fbits = 23 then n + u % 4 - 1 else n + u % 2
      (max (2 ^ f.fbits) (min n (f.maxFin false)), fINX)

/-- VFEXP2 (R113): FP64 raises VECTOR_CONFIG (R111). -/
def execVfexp2 (q : QuireId) (m : Bool) (vd vs1 : VReg) (rm : Ext) (s : State) : Res State :=
  s.tehus q (extLen rm) true (fun s =>
    let c := s.q q
    if !extZero rm then .trap s excIllegal
    else if c.vconfigBad || c.sew = 64 then .trap s excVector
    else match c.vfmt with
      | none => .trap s excVector
      | some ft =>
        let n := s.free
        let t := { s with free := n + c.vl }
        t.simple q (extLen rm) (fun c => c.elementwise m vd ft.width (fun i =>
          exp2Val ft c.strict (Config.freeValue (n + i)).toNat
            (ft.read c.strict (elem (c.vr vs1) ft.width i)))))

/-! ## Integer (R114) -/

/-- A VI or VIS function on elements of SEW bits. -/
def viOp (q : QuireId) (m scalar : Bool) (vd vs1 : VReg) (rs2 : BitVec 6)
    (f : (w : Nat) → BitVec w → BitVec w → BitVec w → BitVec w × Flags) (s : State) : Res State :=
  vbody q 4 (scalar || rs2.toNat < 32) (fun _ => true) (fun _ => true) (fun c =>
    let w := c.sew
    c.elementwise m vd w (fun i =>
      let b := if scalar then (c.gr (gReg rs2)).toNat % 2 ^ w
        else elem (c.v.getD rs2.toNat 0) w i
      let r := f w (BitVec.ofNat w (elem (c.vr vs1) w i)) (BitVec.ofNat w b)
        (BitVec.ofNat w (elem (c.vr vd) w i))
      (r.1.toNat, r.2))) s

/-- A function that sets no flag. -/
def viPlain (f : (w : Nat) → BitVec w → BitVec w → BitVec w) (w : Nat) (a b _d : BitVec w) :
    BitVec w × Flags := (f w a b, 0)

/-- A signed saturated result. -/
def satS (w : Nat) (x : Int) : BitVec w × Flags :=
  if x < -(2 : Int) ^ (w - 1) then (BitVec.intMin w, fIOV)
  else if (2 : Int) ^ (w - 1) - 1 < x then (BitVec.intMax w, fIOV)
  else (BitVec.ofInt w x, 0)

/-- An unsigned saturated result. -/
def satU (w : Nat) (x : Int) : BitVec w × Flags :=
  if x < 0 then (0, fIOV)
  else if (2 : Int) ^ w - 1 < x then (BitVec.allOnes w, fIOV)
  else (BitVec.ofInt w x, 0)

/-- Division and remainder of elements (R35, R114). -/
def viDiv (signed quot : Bool) (w : Nat) (a b _d : BitVec w) : BitVec w × Flags :=
  if b = 0 then (if quot then BitVec.allOnes w else a, fIDZ)
  else if signed && a = BitVec.intMin w && b = BitVec.allOnes w then
    (if quot then (a, fIOV) else (0, 0))
  else if signed then (if quot then a.sdiv b else a.srem b, 0)
  else (if quot then a.udiv b else a.umod b, 0)

/-- VADD (R114). -/
def execVadd (q : QuireId) (m scalar : Bool) (vd vs1 : VReg) (rs2 : BitVec 6) (s : State) : Res State :=
  viOp q m scalar vd vs1 rs2 (viPlain (fun _ a b => a + b)) s
/-- VSUB (R114). -/
def execVsub (q : QuireId) (m scalar : Bool) (vd vs1 : VReg) (rs2 : BitVec 6) (s : State) : Res State :=
  viOp q m scalar vd vs1 rs2 (viPlain (fun _ a b => a - b)) s
/-- VAND (R114). -/
def execVand (q : QuireId) (m scalar : Bool) (vd vs1 : VReg) (rs2 : BitVec 6) (s : State) : Res State :=
  viOp q m scalar vd vs1 rs2 (viPlain (fun _ a b => a &&& b)) s
/-- VOR (R114). -/
def execVor (q : QuireId) (m scalar : Bool) (vd vs1 : VReg) (rs2 : BitVec 6) (s : State) : Res State :=
  viOp q m scalar vd vs1 rs2 (viPlain (fun _ a b => a ||| b)) s
/-- VXOR (R114). -/
def execVxor (q : QuireId) (m scalar : Bool) (vd vs1 : VReg) (rs2 : BitVec 6) (s : State) : Res State :=
  viOp q m scalar vd vs1 rs2 (viPlain (fun _ a b => a ^^^ b)) s
/-- VSLL (R114): by b modulo SEW. -/
def execVsll (q : QuireId) (m scalar : Bool) (vd vs1 : VReg) (rs2 : BitVec 6) (s : State) : Res State :=
  viOp q m scalar vd vs1 rs2 (viPlain (fun w a b => a <<< (b.toNat % w))) s
/-- VSRL (R114). -/
def execVsrl (q : QuireId) (m scalar : Bool) (vd vs1 : VReg) (rs2 : BitVec 6) (s : State) : Res State :=
  viOp q m scalar vd vs1 rs2 (viPlain (fun w a b => a >>> (b.toNat % w))) s
/-- VSRA (R114). -/
def execVsra (q : QuireId) (m scalar : Bool) (vd vs1 : VReg) (rs2 : BitVec 6) (s : State) : Res State :=
  viOp q m scalar vd vs1 rs2 (viPlain (fun w a b => a.sshiftRight (b.toNat % w))) s
/-- VMIN (R114). -/
def execVmin (q : QuireId) (m scalar : Bool) (vd vs1 : VReg) (rs2 : BitVec 6) (s : State) : Res State :=
  viOp q m scalar vd vs1 rs2 (viPlain (fun _ a b => if b.slt a then b else a)) s
/-- VMAX (R114). -/
def execVmax (q : QuireId) (m scalar : Bool) (vd vs1 : VReg) (rs2 : BitVec 6) (s : State) : Res State :=
  viOp q m scalar vd vs1 rs2 (viPlain (fun _ a b => if a.slt b then b else a)) s
/-- VMINU (R114). -/
def execVminu (q : QuireId) (m scalar : Bool) (vd vs1 : VReg) (rs2 : BitVec 6) (s : State) : Res State :=
  viOp q m scalar vd vs1 rs2 (viPlain (fun _ a b => if b.ult a then b else a)) s
/-- VMAXU (R114). -/
def execVmaxu (q : QuireId) (m scalar : Bool) (vd vs1 : VReg) (rs2 : BitVec 6) (s : State) : Res State :=
  viOp q m scalar vd vs1 rs2 (viPlain (fun _ a b => if a.ult b then b else a)) s
/-- VMUL (R114). -/
def execVmul (q : QuireId) (m scalar : Bool) (vd vs1 : VReg) (rs2 : BitVec 6) (s : State) : Res State :=
  viOp q m scalar vd vs1 rs2 (viPlain (fun _ a b => a * b)) s
/-- VMULH (R114). -/
def execVmulh (q : QuireId) (m scalar : Bool) (vd vs1 : VReg) (rs2 : BitVec 6) (s : State) : Res State :=
  viOp q m scalar vd vs1 rs2 (viPlain (fun w a b => BitVec.ofInt w (a.toInt * b.toInt / 2 ^ w))) s
/-- VMULHU (R114). -/
def execVmulhu (q : QuireId) (m scalar : Bool) (vd vs1 : VReg) (rs2 : BitVec 6) (s : State) : Res State :=
  viOp q m scalar vd vs1 rs2 (viPlain (fun w a b => BitVec.ofNat w (a.toNat * b.toNat / 2 ^ w))) s
/-- VDIV (R114). -/
def execVdiv (q : QuireId) (m scalar : Bool) (vd vs1 : VReg) (rs2 : BitVec 6) (s : State) : Res State :=
  viOp q m scalar vd vs1 rs2 (viDiv true true) s
/-- VDIVU (R114). -/
def execVdivu (q : QuireId) (m scalar : Bool) (vd vs1 : VReg) (rs2 : BitVec 6) (s : State) : Res State :=
  viOp q m scalar vd vs1 rs2 (viDiv false true) s
/-- VREM (R114). -/
def execVrem (q : QuireId) (m scalar : Bool) (vd vs1 : VReg) (rs2 : BitVec 6) (s : State) : Res State :=
  viOp q m scalar vd vs1 rs2 (viDiv true false) s
/-- VREMU (R114). -/
def execVremu (q : QuireId) (m scalar : Bool) (vd vs1 : VReg) (rs2 : BitVec 6) (s : State) : Res State :=
  viOp q m scalar vd vs1 rs2 (viDiv false false) s
/-- VSADD (R114). -/
def execVsadd (q : QuireId) (m scalar : Bool) (vd vs1 : VReg) (rs2 : BitVec 6) (s : State) : Res State :=
  viOp q m scalar vd vs1 rs2 (fun w a b _ => satS w (a.toInt + b.toInt)) s
/-- VSADDU (R114). -/
def execVsaddu (q : QuireId) (m scalar : Bool) (vd vs1 : VReg) (rs2 : BitVec 6) (s : State) : Res State :=
  viOp q m scalar vd vs1 rs2 (fun w a b _ => satU w ((a.toNat : Int) + b.toNat)) s
/-- VSSUB (R114). -/
def execVssub (q : QuireId) (m scalar : Bool) (vd vs1 : VReg) (rs2 : BitVec 6) (s : State) : Res State :=
  viOp q m scalar vd vs1 rs2 (fun w a b _ => satS w (a.toInt - b.toInt)) s
/-- VSSUBU (R114). -/
def execVssubu (q : QuireId) (m scalar : Bool) (vd vs1 : VReg) (rs2 : BitVec 6) (s : State) : Res State :=
  viOp q m scalar vd vs1 rs2 (fun w a b _ => satU w ((a.toNat : Int) - b.toNat)) s
/-- VMACC (R114). -/
def execVmacc (q : QuireId) (m scalar : Bool) (vd vs1 : VReg) (rs2 : BitVec 6) (s : State) : Res State :=
  viOp q m scalar vd vs1 rs2 (fun _ a b d => (a * b + d, 0)) s

/-! ## Comparisons and masks (R115, R116) -/

/-- A floating-point condition: whether it holds, and its flags. -/
def cmpFp (code : Nat) (a b : FVal) : Bool × Flags :=
  let o := cmpVals a b
  let sn : Bool := a.isSnan || b.isSnan
  let nan : Bool := a.isNan || b.isNan
  match code with
  | 0 => (o = some .eq, if sn then fINV else 0)
  | 1 => (o ≠ some .eq, if sn then fINV else 0)
  | 2 => (o = some .lt, if nan then fINV else 0)
  | 3 => (o = some .lt || o = some .eq, if nan then fINV else 0)
  | 4 => (o = some .gt, if nan then fINV else 0)
  | _ => (o = some .gt || o = some .eq, if nan then fINV else 0)

/-- An integer condition. -/
def cmpIntCond (code w : Nat) (x y : Nat) : Bool :=
  let a := BitVec.ofNat w x
  let b := BitVec.ofNat w y
  match code with
  | 0x8 => a = b
  | 0x9 => a ≠ b
  | 0xA => a.slt b
  | 0xB => a.ult b
  | 0xC => !b.slt a
  | 0xD => !b.ult a
  | 0xE => b.slt a
  | _ => b.ult a

/-- VCMP (R115). -/
def execVcmp (q : QuireId) (m scalar : Bool) (cond : BitVec 4) (md : MReg) (vs1 : VReg) (rs2 : BitVec 6)
    (s : State) : Res State :=
  let code := cond.toNat
  let fp : Bool := code < 8
  let firstOk := code ≠ 6 && code ≠ 7 && ((scalar && !fp) || rs2.toNat < 32)
  vbody q 4 firstOk (fun _ => true) (fun c => !fp || c.vfmt.isSome) (fun c =>
    let w := c.sew
    let b (i : Nat) : Nat :=
      if scalar then (if fp then (c.f.getD rs2.toNat 0).toNat % 2 ^ w else (c.gr (gReg rs2)).toNat % 2 ^ w)
      else elem (c.v.getD rs2.toNat 0) w i
    let r (i : Nat) : Bool × Flags :=
      match fp, c.vfmt with
      | true, some ft =>
        cmpFp code (ft.read c.strict (elem (c.vr vs1) w i)) (ft.read c.strict (b i))
      | _, _ => (cmpIntCond code w (elem (c.vr vs1) w i) (b i), 0)
    (c.setFlags .vec (flagsOver (c.active m) (fun i => (r i).2))).mw md
      (c.destMask m (c.m[md]) (fun i => (r i).1))) s

/-- A logical mask function (R116). -/
def maskOp (q : QuireId) (md : MReg) (f : Quire → MWord) (s : State) : Res State :=
  vbody q 4 true (fun _ => true) (fun _ => true) (fun c =>
    c.mw md (c.destMask false (c.m[md]) (fun i => bit (f c) i))) s

/-- MAND (R116). -/
def execMand (q : QuireId) (md ms1 ms2 : MReg) (s : State) : Res State :=
  maskOp q md (fun c => c.m[ms1] &&& c.m[ms2]) s
/-- MOR (R116). -/
def execMor (q : QuireId) (md ms1 ms2 : MReg) (s : State) : Res State :=
  maskOp q md (fun c => c.m[ms1] ||| c.m[ms2]) s
/-- MXOR (R116). -/
def execMxor (q : QuireId) (md ms1 ms2 : MReg) (s : State) : Res State :=
  maskOp q md (fun c => c.m[ms1] ^^^ c.m[ms2]) s
/-- MANDN (R116). -/
def execMandn (q : QuireId) (md ms1 ms2 : MReg) (s : State) : Res State :=
  maskOp q md (fun c => c.m[ms1] &&& ~~~ c.m[ms2]) s
/-- MNOT (R116). -/
def execMnot (q : QuireId) (md ms1 : MReg) (s : State) : Res State := maskOp q md (fun c => ~~~ c.m[ms1]) s
/-- MMV (R116). -/
def execMmv (q : QuireId) (md ms1 : MReg) (s : State) : Res State := maskOp q md (fun c => c.m[ms1]) s
/-- MSET (R116). -/
def execMset (q : QuireId) (md : MReg) (s : State) : Res State :=
  maskOp q md (fun _ => BitVec.allOnes 4096) s
/-- MCLR (R116). -/
def execMclr (q : QuireId) (md : MReg) (s : State) : Res State := maskOp q md (fun _ => 0) s

/-- MPOPC (R116). -/
def execMpopc (q : QuireId) (rd : GReg) (ms1 : MReg) (s : State) : Res State :=
  vbody q 4 true (fun _ => true) (fun _ => true) (fun c =>
    c.gw rd (BitVec.ofNat 64 ((List.range c.vl).countP (fun i => bit c.m[ms1] i)))) s
/-- MFIRST (R116). -/
def execMfirst (q : QuireId) (rd : GReg) (ms1 : MReg) (s : State) : Res State :=
  vbody q 4 true (fun _ => true) (fun _ => true) (fun c =>
    c.gw rd (match (List.range c.vl).find? (fun i => bit c.m[ms1] i) with
      | some i => BitVec.ofNat 64 i
      | none => BitVec.allOnes 64)) s

/-! ## VCVT (R117) -/

/-- A type of R117. -/
inductive VType where
  | flt (f : Fmt)
  | e8s
  | int (bits : Nat) (signed : Bool)
  deriving DecidableEq, Repr

/-- The VCVT type codes. -/
def vtypeOf (x : Nat) : VType :=
  match x with
  | 0x0 => .flt fp64 | 0x1 => .flt fp32 | 0x2 => .flt fp16 | 0x3 => .flt bf16
  | 0x4 => .flt fp8v | 0x5 => .flt fp8g | 0x6 => .flt fp4 | 0x7 => .e8s
  | 0x8 => .int 64 true | 0x9 => .int 64 false | 0xA => .int 32 true | 0xB => .int 32 false
  | 0xC => .int 16 true | 0xD => .int 16 false | 0xE => .int 8 true | _ => .int 8 false

/-- Width of a type. -/
def VType.width : VType → Nat
  | .flt f => f.width
  | .e8s => 8
  | .int w _ => w

/-- A pair that VCVT defines (R117). -/
def vcvtDefined (d s : VType) : Bool :=
  d ≠ s &&
  (match d, s with
   | .e8s, .flt f | .flt f, .e8s => f = fp32 || f = fp64
   | .e8s, _ | _, .e8s => false
   | _, _ => true)

/-- Whether every finite value of format s, subnormals included, is one of format d (R48): enough fraction
bits, and the exponent range covered. FP8-G exceeds FP16's range. -/
def fmtCovers (d s : Fmt) : Bool :=
  decide (s.fbits ≤ d.fbits) && decide ((s.top : Int) - s.bias ≤ (d.top : Int) - d.bias) &&
    decide ((d.bias : Int) + d.fbits ≥ (s.bias : Int) + s.fbits)

/-- A pair that is exact by type (R48, R117). -/
def vcvtExact (d s : VType) : Bool :=
  match d, s with
  | .flt f, .flt g => fmtCovers f g
  | .flt _, .e8s => true
  | .flt f, .int w sg => decide ((if sg then w - 1 else w) ≤ f.fbits + 1) && decide (w ≤ f.top - f.bias)
  | .int w _, .int v _ => decide (v < w)
  | _, _ => false

/-- Whether a conversion rounds in its mode, and so counts in SR (R46). -/
def vcvtRounds (d s : VType) : Bool :=
  !vcvtExact d s &&
  (match d, s with
   | .e8s, _ | .int .., .int .. => false
   | _, _ => true)

/-- One element of VCVT (R48 to R50, R117). -/
def vcvtVal (d s : VType) (r : Rnd) (x : Nat) : Nat × Flags :=
  match d, s with
  | .flt f, .flt g => toFloat f r (g.read r.strict x)
  | .flt f, .e8s => if x = 0xFF then (f.qnan, fINV) else toFloat f r (ofE8S x)
  | .flt f, .int w sg => ofInt f r (if sg then (BitVec.ofNat w x).toInt else (x : Int))
  | .e8s, .flt f => toE8S (f.read r.strict x)
  | .int w sg, .flt f =>
    let lo : Int := if sg then -(2 : Int) ^ (w - 1) else 0
    let hi : Int := if sg then (2 : Int) ^ (w - 1) - 1 else (2 : Int) ^ w - 1
    let v := toInt lo hi r (f.read r.strict x)
    ((BitVec.ofInt w v.1).toNat, v.2)
  | .int w sg, .int v sg' =>
    let y : Int := if sg' then (BitVec.ofNat v x).toInt else (x : Int)
    let lo : Int := if sg then -(2 : Int) ^ (w - 1) else 0
    let hi : Int := if sg then (2 : Int) ^ (w - 1) - 1 else (2 : Int) ^ w - 1
    if v < w || (lo ≤ y && y ≤ hi) then ((BitVec.ofInt w y).toNat, 0)
    else if r.sat then ((BitVec.ofInt w (if y < lo then lo else hi)).toNat, fIOV)
    else ((BitVec.ofInt w y).toNat, fIOV)
  | _, _ => (0, 0)

/-- VCVT (R117): unmasked; the widest operand must be SEW bits wide (R111). -/
def execVcvt (q : QuireId) (dst src : BitVec 4) (sat : Bool) (rm : BitVec 3) (vd vs1 : VReg) (s : State) :
    Res State :=
  let d := vtypeOf dst.toNat
  let t := vtypeOf src.toNat
  vbody q 4 (vcvtDefined d t && (!vcvtExact d t || rm = 0)) (fun c => (c.mode .vec (some rm)).isSome)
    (fun c => max d.width t.width = c.sew) (fun c =>
      match c.mode .vec (some rm) with
      | none => c
      | some md =>
        let f (i : Nat) : Nat × Flags := vcvtVal d t (c.rnd .vec md sat i 0) (elem (c.vr vs1) t.width i)
        let c' := (c.setFlags .vec (flagsOver (List.range c.vl) (fun i => (f i).2))).vw vd
          (c.dest false d.width (c.vr vd) (fun _ => false) (fun i => (f i).1))
        if vcvtRounds d t && c.vl ≠ 0 then c'.countSr md else c') s

/-! ## Permutation (R118) -/

/-- A VPERM function that writes a vector register; `skip` says which elements it does not write. -/
def permOp (q : QuireId) (firstOk m : Bool) (vd : VReg) (skip : Quire → Nat → Bool)
    (f : Quire → Nat → Nat → Nat) (s : State) : Res State :=
  vbody q 4 firstOk (fun _ => true) (fun _ => true) (fun c =>
    c.vw vd (c.dest m c.sew (c.vr vd) (skip c) (fun i => f c c.sew i))) s

/-- VMV (R118). -/
def execVmv (q : QuireId) (m : Bool) (vd vs1 : VReg) (s : State) : Res State :=
  permOp q true m vd (fun _ _ => false) (fun c w i => elem (c.vr vs1) w i) s
/-- VMERGE (R118): no element is inactive. -/
def execVmerge (q : QuireId) (vd vs1 vs2 : VReg) (s : State) : Res State :=
  permOp q true false vd (fun _ _ => false)
    (fun c w i => if bit c.mask i then elem (c.vr vs1) w i else elem (c.vr vs2) w i) s
/-- VSLIDEUP (R108, R118). -/
def execVslideup (q : QuireId) (m : Bool) (vd vs1 : VReg) (rs2 : GReg) (s : State) : Res State :=
  permOp q (vd ≠ vs1) m vd (fun c i => i < (c.gr rs2).toNat)
    (fun c w i => elem (c.vr vs1) w (i - (c.gr rs2).toNat)) s
/-- VSLIDEDOWN (R118). -/
def execVslidedown (q : QuireId) (m : Bool) (vd vs1 : VReg) (rs2 : GReg) (s : State) : Res State :=
  permOp q true m vd (fun _ _ => false)
    (fun c w i => if vlmaxOf w ≤ i + (c.gr rs2).toNat then 0 else elem (c.vr vs1) w (i + (c.gr rs2).toNat)) s
/-- VSLIDE1UP.F (R108, R118). -/
def execVslide1upF (q : QuireId) (m : Bool) (vd vs1 : VReg) (rs2 : FReg) (s : State) : Res State :=
  permOp q (vd ≠ vs1) m vd (fun _ _ => false)
    (fun c w i => if i = 0 then c.fr rs2 w else elem (c.vr vs1) w (i - 1)) s
/-- VSLIDE1DOWN.F (R118). -/
def execVslide1downF (q : QuireId) (m : Bool) (vd vs1 : VReg) (rs2 : FReg) (s : State) : Res State :=
  permOp q true m vd (fun _ _ => false)
    (fun c w i => if i + 1 = c.vl then c.fr rs2 w else elem (c.vr vs1) w (i + 1)) s
/-- VSLIDE1UP.G (R108, R118). -/
def execVslide1upG (q : QuireId) (m : Bool) (vd vs1 : VReg) (rs2 : GReg) (s : State) : Res State :=
  permOp q (vd ≠ vs1) m vd (fun _ _ => false)
    (fun c w i => if i = 0 then (c.gr rs2).toNat % 2 ^ w else elem (c.vr vs1) w (i - 1)) s
/-- VSLIDE1DOWN.G (R118). -/
def execVslide1downG (q : QuireId) (m : Bool) (vd vs1 : VReg) (rs2 : GReg) (s : State) : Res State :=
  permOp q true m vd (fun _ _ => false)
    (fun c w i => if i + 1 = c.vl then (c.gr rs2).toNat % 2 ^ w else elem (c.vr vs1) w (i + 1)) s
/-- VGATHER (R108, R118). -/
def execVgather (q : QuireId) (m : Bool) (vd vs1 vs2 : VReg) (s : State) : Res State :=
  permOp q (vd ≠ vs1 && vd ≠ vs2) m vd (fun _ _ => false)
    (fun c w i =>
      let k := elem (c.vr vs2) w i
      if vlmaxOf w ≤ k then 0 else elem (c.vr vs1) w k) s

/-- VCOMPRESS (R108, R118): vd beyond the last active element is tail. -/
def execVcompress (q : QuireId) (vd vs1 : VReg) (s : State) : Res State :=
  vbody q 4 (vd ≠ vs1) (fun _ => true) (fun _ => true) (fun c =>
    let w := c.sew
    let xs := c.active true
    c.vw vd (packElems 32768 w (32768 / w) (fun i =>
      match xs[i]? with
      | some j => elem (c.vr vs1) w j
      | none => if c.tp then 0 else elem (c.vr vd) w i))) s

/-- VBCAST.F (R118). -/
def execVbcastF (q : QuireId) (m : Bool) (vd : VReg) (rs1 : FReg) (s : State) : Res State :=
  permOp q true m vd (fun _ _ => false) (fun c w _ => c.fr rs1 w) s
/-- VBCAST.G (R118). -/
def execVbcastG (q : QuireId) (m : Bool) (vd : VReg) (rs1 : GReg) (s : State) : Res State :=
  permOp q true m vd (fun _ _ => false) (fun c w _ => (c.gr rs1).toNat % 2 ^ w) s

/-- Element k of a vector register, 0 at or beyond VLMAX. -/
def Quire.vextract (c : Quire) (vs1 : VReg) (k : Nat) : Nat :=
  if vlmaxOf c.sew ≤ k then 0 else elem (c.vr vs1) c.sew k

/-- VEXTR.G (R118). -/
def execVextrG (q : QuireId) (rd : GReg) (vs1 : VReg) (rs2 : GReg) (s : State) : Res State :=
  vbody q 4 true (fun _ => true) (fun _ => true)
    (fun c => c.gw rd (BitVec.ofNat 64 (c.vextract vs1 (c.gr rs2).toNat))) s
/-- VEXTR.F (R118). -/
def execVextrF (q : QuireId) (fd : FReg) (vs1 : VReg) (rs2 : GReg) (s : State) : Res State :=
  vbody q 4 true (fun _ => true) (fun _ => true)
    (fun c => c.fw fd (c.vextract vs1 (c.gr rs2).toNat)) s
/-- VINS.G (R118). -/
def execVinsG (q : QuireId) (vd : VReg) (rs1 rs2 : GReg) (s : State) : Res State :=
  vbody q 4 true (fun _ => true) (fun _ => true)
    (fun c =>
      let k := (c.gr rs2).toNat
      c.vw vd (if k < c.vl then setElem (c.vr vd) c.sew k ((c.gr rs1).toNat % 2 ^ c.sew) else c.vr vd)) s

/-! ## Reductions (R119, R120) -/

/-- Write a reduction's result: element 0, and the rest is tail. -/
def Quire.putRed (c : Quire) (vd : VReg) (x : Nat) : Quire :=
  c.vw vd (packElems 32768 c.sew (32768 / c.sew) (fun i =>
    if i = 0 then x else if c.tp then 0 else elem (c.vr vd) c.sew i))

/-- The elements of vs1 that take part. -/
def Quire.redElems (c : Quire) (m : Bool) (vs1 : VReg) : List Nat :=
  (c.active m).map (fun i => elem (c.vr vs1) c.sew i)

/-- An integer reduction. -/
def redInt (q : QuireId) (m : Bool) (vd vs1 vs2 : VReg) (rm : Ext)
    (f : (w : Nat) → BitVec w → BitVec w → BitVec w) (s : State) : Res State :=
  vbody q (extLen rm) true (fun _ => extZero rm) (fun _ => true) (fun c =>
    c.putRed vd ((c.redElems m vs1).foldl
      (fun a x => (f c.sew (BitVec.ofNat c.sew a) (BitVec.ofNat c.sew x)).toNat)
      (elem (c.vr vs2) c.sew 0))) s

/-- A maximum or minimum reduction of floating-point elements. -/
def redMinMax (q : QuireId) (m : Bool) (vd vs1 vs2 : VReg) (rm : Ext) (wantMax : Bool) (s : State) :
    Res State :=
  vbody q (extLen rm) true (fun _ => extZero rm) (fun c => c.vfmt.isSome) (fun c =>
    match c.vfmt with
    | none => c
    | some ft =>
      let r := (c.redElems m vs1).foldl (fun (a : Nat × Flags) x =>
        let y := minMaxVals ft wantMax (ft.read c.strict a.1) (ft.read c.strict x)
        (y.1, a.2 ||| y.2)) (elem (c.vr vs2) c.sew 0, 0)
      (c.setFlags .vec r.2).putRed vd r.1) s

/-- combine of R120: ABSENT is none. -/
def redCombine (f : Nat → Nat → Nat × Flags) (a b : Option Nat) (fl : Flags) : Option Nat × Flags :=
  match a, b with
  | some x, some y => (some (f x y).1, fl ||| (f x y).2)
  | some x, none => (some x, fl)
  | none, y => (y, fl)

/-- One level of the tree: adjacent pairs combine. -/
def redLevel (f : Nat → Nat → Nat × Flags) : List (Option Nat) → Flags → List (Option Nat) × Flags
  | a :: b :: r, fl =>
    let c := redCombine f a b fl
    let t := redLevel f r c.2
    (c.1 :: t.1, t.2)
  | xs, fl => (xs, fl)

/-- The levels of the tree, `n` of them. -/
def redTree (f : Nat → Nat → Nat × Flags) : Nat → List (Option Nat) → Flags → List (Option Nat) × Flags
  | 0, xs, fl => (xs, fl)
  | n + 1, xs, fl => let l := redLevel f xs fl; redTree f n l.1 l.2

/-- A floating-point sum: SR is illegal (R109). -/
def redSum (q : QuireId) (m : Bool) (vd vs1 vs2 : VReg) (rm : Ext) (tree : Bool) (s : State) : Res State :=
  vbody q (extLen rm) true
    (fun c => match c.mode .vec rm with | some md => md ≠ .sr | none => false)
    (fun c => c.vfmt.isSome) (fun c =>
      match c.mode .vec rm, c.vfmt with
      | some md, some ft =>
        let add (x y : Nat) : Nat × Flags :=
          addVals ft ⟨md, c.strict, 0, false⟩ (ft.read c.strict x) (ft.read c.strict y)
        let init := elem (c.vr vs2) c.sew 0
        if tree then
          let p := if c.vl ≤ 1 then 0 else Nat.log2 (c.vl - 1) + 1
          let xs := (List.range (2 ^ p)).map (fun i =>
            if i < c.vl && c.on m i then some (elem (c.vr vs1) c.sew i) else none)
          let t := redTree add p xs 0
          let r := redCombine add (some init) (t.1.headD none) t.2
          (c.setFlags .vec r.2).putRed vd (r.1.getD init)
        else
          let r := (c.redElems m vs1).foldl (fun (a : Nat × Flags) x =>
            ((add a.1 x).1, a.2 ||| (add a.1 x).2)) (init, 0)
          (c.setFlags .vec r.2).putRed vd r.1
      | _, _ => c) s

/-- VFREDSUM.O (R120). -/
def execVfredsumO (q : QuireId) (m : Bool) (vd vs1 vs2 : VReg) (rm : Ext) (s : State) : Res State :=
  redSum q m vd vs1 vs2 rm false s
/-- VFREDSUM.T (R120). -/
def execVfredsumT (q : QuireId) (m : Bool) (vd vs1 vs2 : VReg) (rm : Ext) (s : State) : Res State :=
  redSum q m vd vs1 vs2 rm true s
/-- VFREDMAX (R119). -/
def execVfredmax (q : QuireId) (m : Bool) (vd vs1 vs2 : VReg) (rm : Ext) (s : State) : Res State :=
  redMinMax q m vd vs1 vs2 rm true s
/-- VFREDMIN (R119). -/
def execVfredmin (q : QuireId) (m : Bool) (vd vs1 vs2 : VReg) (rm : Ext) (s : State) : Res State :=
  redMinMax q m vd vs1 vs2 rm false s
/-- VREDSUM (R119). -/
def execVredsum (q : QuireId) (m : Bool) (vd vs1 vs2 : VReg) (rm : Ext) (s : State) : Res State :=
  redInt q m vd vs1 vs2 rm (fun _ a b => a + b) s
/-- VREDAND (R119). -/
def execVredand (q : QuireId) (m : Bool) (vd vs1 vs2 : VReg) (rm : Ext) (s : State) : Res State :=
  redInt q m vd vs1 vs2 rm (fun _ a b => a &&& b) s
/-- VREDOR (R119). -/
def execVredor (q : QuireId) (m : Bool) (vd vs1 vs2 : VReg) (rm : Ext) (s : State) : Res State :=
  redInt q m vd vs1 vs2 rm (fun _ a b => a ||| b) s
/-- VREDXOR (R119). -/
def execVredxor (q : QuireId) (m : Bool) (vd vs1 vs2 : VReg) (rm : Ext) (s : State) : Res State :=
  redInt q m vd vs1 vs2 rm (fun _ a b => a ^^^ b) s
/-- VREDMAX (R119). -/
def execVredmax (q : QuireId) (m : Bool) (vd vs1 vs2 : VReg) (rm : Ext) (s : State) : Res State :=
  redInt q m vd vs1 vs2 rm (fun _ a b => if a.slt b then b else a) s
/-- VREDMIN (R119). -/
def execVredmin (q : QuireId) (m : Bool) (vd vs1 vs2 : VReg) (rm : Ext) (s : State) : Res State :=
  redInt q m vd vs1 vs2 rm (fun _ a b => if b.slt a then b else a) s
/-- VREDMAXU (R119). -/
def execVredmaxu (q : QuireId) (m : Bool) (vd vs1 vs2 : VReg) (rm : Ext) (s : State) : Res State :=
  redInt q m vd vs1 vs2 rm (fun _ a b => if a.ult b then b else a) s
/-- VREDMINU (R119). -/
def execVredminu (q : QuireId) (m : Bool) (vd vs1 vs2 : VReg) (rm : Ext) (s : State) : Res State :=
  redInt q m vd vs1 vs2 rm (fun _ a b => if b.ult a then b else a) s

end Sys2Proof.Machine
end

