-- ==== Sys2Proof/Machine/Tile.lean ====
section
/-!
DEFINITION. Tile registers (05_tile_registers.md), and the checked wide accesses that vector, tile and plough
instructions make.
-/
namespace Sys2Proof.Machine

/-! ## Wide accesses (R86, R236) -/

/-- An access of a quire that may not touch the register window: ALIGNMENT for a byte in the window, then
translation and segment faults, then, for a load, poison, or the failure of a read that leaves the block (R265). `acc` and `index` are reported (R237, R238). -/
def State.wideAccess (s : State) (i : QuireId) (k : Acc') (acc index : Nat) (va : W64) (n : Nat) :
    Except Exc (List Nat) × State :=
  let t := s.xlateSpan i (s.q i).pl k va n
  let win := t.1.1.findIdx? (fun pa => !t.2.remotePa pa && regionOf (localOf pa) = .window)
  match win, t.1.2 with
  | some j, _ => (.error ⟨5, acc, va + BitVec.ofNat 64 j, syndOf index 0, false⟩, t.2)
  | none, some e => (.error (xlateExc e.2 acc index e.1), t.2)
  | none, none =>
    match (if k = .load then t.2.poisonAmong t.1.1 0 else none) with
    | some p =>
      let r := t.2.consumePoison i (localOf (t.1.1.getD p.1 0)) p.2
      (.error ⟨15, acc, va + BitVec.ofNat 64 p.1, syndOf index r.1, false⟩, r.2)
    | none =>
      let w := if k = .load then t.2.awayEnds i t.1.1 else (none, t.2)
      match w.1 with
      | some e => (.error ⟨15, acc, va + BitVec.ofNat 64 e.1, syndOf index e.2, false⟩, w.2)
      | none => (.ok t.1.1, w.2)

/-! ## Descriptors (R130 to R135) -/

/-- ROWS of a configured tile. -/
def Tile.rows (t : Tile) : Nat := bits t.desc 7 0 + 1
/-- RB. -/
def Tile.rb (t : Tile) : Nat := 64 * (bits t.desc 19 16 + 1)
/-- FMT code. -/
def Tile.fmt (t : Tile) : Nat := bits t.desc 23 20
/-- Scale block size, 0 without scales. -/
def scaleBlock (desc : W64) : Nat :=
  match bits desc 28 27 with
  | 1 => 16 | 2 => 32 | _ => 0
/-- KAXIS. -/
def Tile.kaxis (t : Tile) : Bool := bit t.desc 29
/-- Width of an element in bits (R117 codes). -/
def fmtWidth (code : Nat) : Nat := (vtypeOf code).width
/-- E, elements per row (R131). -/
def descElems (d : W64) : Nat := 64 * (bits d 19 16 + 1) * 8 / fmtWidth (bits d 23 20)
/-- Elements per row of a tile. -/
def Tile.elems (t : Tile) : Nat := descElems t.desc
/-- The scale count S (R132). -/
def descScales (d : W64) : Nat :=
  let b := scaleBlock d
  if b = 0 then 0
  else if bit d 29 then (bits d 7 0 + 1) / b * descElems d
  else (bits d 7 0 + 1) * (descElems d / b)
/-- S of a tile. -/
def Tile.scaleCount (t : Tile) : Nat := descScales t.desc
/-- Element x of row r, as a code. -/
def Tile.elemAt (t : Tile) (r x : Nat) : Nat :=
  t.data.toNat / 2 ^ (8 * (r * t.rb) + x * fmtWidth t.fmt) % 2 ^ fmtWidth t.fmt
/-- The E8S code of the block that element x of row r lies in (R132); 127, the scale 1, without scales. -/
def Tile.scaleAt (t : Tile) (r x : Nat) : Nat :=
  let b := scaleBlock t.desc
  if b = 0 then 127
  else elem t.scales 8 (if t.kaxis then r / b * t.elems + x else r * (t.elems / b) + x / b)

/-- Formats that allow scales (R134). -/
def fmtScaled (code : Nat) : Bool := code = 4 || code = 5 || code = 6 || code = 0xE || code = 0xF
/-- Reserved format codes (R134). -/
def fmtReserved (code : Nat) : Bool := (7 ≤ code && code ≤ 9) || (0xB ≤ code && code ≤ 0xD)

/-- The cause of an inconsistent TCFG (R135): the lowest code that holds. Every feature bit of generation 1
reads 1 (R77), so code 0x0C never holds; a descriptor that unconfigures has no shape to test. -/
def tcfgCause (d mask : W64) : Option Nat :=
  let action := bits d 31 30
  let uncfg := action = 2
  let code := bits d 23 20
  let rows := bits d 7 0 + 1
  let b := scaleBlock d
  if action = 0 || action = 3 then some 0x01
  else if bits d 63 32 ≠ 0 || bits d 26 24 ≠ 0 || bits d 15 8 ≠ 0 then some 0x02
  else if uncfg && bits d 29 0 ≠ 0 then some 0x03
  else if !uncfg && rows > 128 then some 0x04
  else if !uncfg && fmtReserved code then some 0x05
  else if !uncfg && rows * (64 * (bits d 19 16 + 1)) > 16384 then some 0x06
  else if !uncfg && bits d 28 27 = 3 then some 0x07
  else if !uncfg && b ≠ 0 && !fmtScaled code then some 0x08
  else if !uncfg && code = 6 && b = 0 then some 0x09
  else if !uncfg && b ≠ 0 && (if bit d 29 then rows else descElems d) % b ≠ 0 then some 0x0A
  else if !uncfg && descScales d > 1024 then some 0x0B
  else if mask = 0 || bits mask 63 16 ≠ 0 then some 0x0D
  else none

/-! ## Checks and updates -/

/-- A tile of a quire. -/
def Quire.t (c : Quire) (n : TReg) : Tile := c.tile[n]

/-- Replace a tile. -/
def Quire.setT (c : Quire) (n : TReg) (t : Tile) : Quire := { c with tile := c.tile.set n t }

/-- TSTART (R147). -/
def Quire.tstart (c : Quire) : Nat := bits (c.crGet 0x040) 7 0

/-- Record a cause in TCAUSE (R149). -/
def Quire.tcause (c : Quire) (code index : Nat) : Quire :=
  c.crSet 0x042 (BitVec.ofNat 64 (index * 256 + code))

/-- TILE_STATE with its cause (R140). -/
def State.tileState (s : State) (i : QuireId) (code index : Nat) : Body :=
  .trap (s.modQ i (fun c => c.tcause code index)) (exc 11)

/-- The TILE_STATE checks of R140 for the tiles that an instruction names, in field order. `rowForm` marks the
TLD and TST forms. -/
def State.tileCheck (s : State) (i : QuireId) (rowForm : Bool) (ts : List TReg) (k : State → Body) : Body :=
  let c := s.q i
  if !rowForm && c.tstart ≠ 0 then s.tileState i 0x10 0
  else match ts.find? (fun n => !(c.t n).cfg) with
    | some n => s.tileState i 0x11 n.val
    | none =>
      match ts with
      | n :: _ => if rowForm && (c.t n).rows ≤ c.tstart then s.tileState i 0x12 n.val else k s
      | [] => k s

/-- A tile action on one tile (R137, R157): the new shape, with zero contents. -/
def Tile.configured (d : W64) : Tile :=
  if bits d 31 30 = 2 then { dirty := true } else { cfg := true, desc := d, dirty := true }

/-- Apply a function to every tile of a mask. -/
def Quire.mapTiles (c : Quire) (mask : Nat) (f : Tile → Tile) : Quire :=
  { c with tile := Vector.ofFn (fun n : Fin 16 => if Nat.testBit mask n.val then f c.tile[n] else c.tile[n]) }

/-- Replace row r of a tile's data (R157): a whole row from a clean source clears its mark. -/
def Tile.putRow (t : Tile) (r v : Nat) : Tile :=
  { t with data := setBits t.data (8 * (r * t.rb + t.rb) - 1) (8 * (r * t.rb)) v,
           rowPoison := setBit t.rowPoison r false, dirty := true, zero := false,
           sliced := false, slices := 0 }

/-- Row r of a tile's data. -/
def Tile.row (t : Tile) (r : Nat) : Nat := t.data.toNat / 2 ^ (8 * (r * t.rb)) % 2 ^ (8 * t.rb)

/-! ## TCFG, TDESC, TRELALL, TZERO (R136, R137, R139) -/

/-- TCFG (R136): all or nothing. -/
def execTcfg (q : QuireId) (rs1 rs2 : GReg) (s : State) : Res State :=
  s.tehusP q 4 true (fun s => s.tileCheck q false [] (fun s =>
    let c := s.q q
    let mask := c.gr rs1
    let d := c.gr rs2
    match tcfgCause d mask with
    | some code =>
      let m := bits mask 15 0
      .trap (s.modQ q (fun c => c.tcause code (if m = 0 then 0 else trailZeros (BitVec.ofNat 16 m)))) (exc 9)
    | none => s.simple q 4 (fun c => c.mapTiles (bits mask 15 0) (fun _ => Tile.configured d))))

/-- TDESC (R139). -/
def execTdesc (q : QuireId) (rd : GReg) (tn : TReg) (s : State) : Res State :=
  s.tehusP q 4 true (fun s => s.tileCheck q false [] (fun s => s.simple q 4 (fun c =>
    c.gw rd (if (c.t tn).cfg then (c.t tn).desc else 0x80000000#64))))

/-- TRELALL (R139). -/
def execTrelall (q : QuireId) (s : State) : Res State :=
  s.tehusP q 4 true (fun s => s.tileCheck q false [] (fun s => s.simple q 4 (fun c =>
    c.mapTiles 0xFFFF (fun _ => Tile.configured 0x80000000#64))))

/-- TZERO (R139, R156, R157). -/
def execTzero (q : QuireId) (td : TReg) (s : State) : Res State :=
  s.tehusP q 4 true (fun s => s.tileCheck q false [td] (fun s => s.simple q 4 (fun c =>
    c.setT td { c.t td with data := 0, scales := 0, rowPoison := 0, scalePoison := false, dirty := true,
                            sliced := false, slices := 0, zero := true })))

/-! ## TLD and TST (R141 to R143) -/

/-- Set TSTART. -/
def Quire.setTstart (c : Quire) (r : Nat) : Quire := c.crSet 0x040 (BitVec.ofNat 64 r)

/-- The rows of a tile load from row r, `n` of them: the state, and the exception of the first row that
faults, with TSTART at that row. -/
def State.loadRows (s : State) (i : QuireId) (td : TReg) (base stride : W64) :
    Nat → Nat → Option Exc × State
  | _, 0 => (none, s.modQ i (fun c => c.setTstart 0))
  | r, n + 1 =>
    let rb := ((s.q i).t td).rb
    let va := base + BitVec.ofNat 64 r * stride
    let a := s.wideAccess i .load 7 r va rb
    match a.1 with
    | .error e => (some e, a.2.modQ i (fun c => c.setTstart r))
    | .ok pas =>
      let v := a.2.loadWide i pas
      (v.2.modQ i (fun c => c.setT td ((c.t td).putRow r v.1))).loadRows i td base stride (r + 1) n

/-- Whether a row that a tile access still has to make is held before L2 (R273, R277). -/
def State.rowsWait (s : State) (i : QuireId) (k : Acc') (td : TReg) (base stride : W64) : Bool :=
  let t := (s.q i).t td
  s.l2Guard i && (List.range t.rows).any (fun r => decide ((s.q i).tstart ≤ r) &&
    s.l2WaitsSpan i k (base + BitVec.ofNat 64 r * stride) t.rb)

/-- A tile load (R141). -/
def tileLoad (q : QuireId) (td : TReg) (rs1 : GReg) (stride : Quire → W64) (s : State) : Res State :=
  s.tehusP q 4 true (fun s => s.tileCheck q true [td] (fun s =>
    let c := s.q q
    if s.rowsWait q .load td (c.gr rs1) (stride c) then .stay s else
    let s := s.drain q
    let r := s.loadRows q td (c.gr rs1) (stride c) c.tstart ((c.t td).rows - c.tstart)
    match r.1 with
    | some e => .trap r.2 e
    | none => .retire r.2 (r.2.after q 4)))

/-- Whether the poison table of an address's LPDDR5X controller has no room for its line (R467, R468). -/
def State.poisonFull (s : State) (a : Nat) : Bool :=
  regionOf a = .lpd && (s.poisonOf a).isNone &&
    decide (1024 ≤ s.poison.countP (fun e => regionOf (e.1 * 64) = .lpd && s.unitOf (e.1 * 64) = s.unitOf a))

/-- One run of successive addresses of a store of poisoned data (R157, R467, R468): its lines are stored and marked; one that
leaves the block is not sent, and fails with a LOST_WRITE record; one that a full poison table cannot mark is discarded
and ends the context, and then the answer is false. -/
def State.poisonRun (s : State) (i : QuireId) (entry : W32) (e : W64 × Nat × Nat × Nat) : Bool × State :=
  let a := localOf e.2.1
  if s.leaves e.2.1 then
    let l := s.logErr (unitCode 1 i.val) 0x0B 0 (BitVec.ofNat 64 a) entry (some (s.q i).ctx)
    (true, l.2.latchStoreErr i e.1 l.1)
  else if (List.range e.2.2.1).any (fun k => s.poisonFull (a + k)) then
    (false, s.contextFatal (s.q i).ctx 0x06 (unitCode 1 i.val) none)
  else (true, (List.range e.2.2.1).foldl (fun s k => s.setPoison (a + k) entry) (s.storeRun i true a e.2.2.1 e.2.2.2))

/-- A store of poisoned data by a quire, run by run; false when it ended the context. -/
def State.storePoisoned (s : State) (i : QuireId) (va : W64) (pas : List Nat) (v : Nat) (entry : W32) :
    Bool × State :=
  (storeRuns va pas v).foldl (fun p e => if p.1 then p.2.poisonRun i entry e else p) (true, s)

/-- How a sequence of row stores ends. -/
inductive Rows where
  | done (s : State)
  | trap (s : State) (e : Exc)
  | ended (s : State)

/-- The rows of a tile store from row r. Each row is translated in full before any of its bytes is written;
a marked row's lines are stored poisoned (R157). -/
def State.storeRows (s : State) (i : QuireId) (td : TReg) (base stride : W64) : Nat → Nat → Rows
  | _, 0 => .done (s.modQ i (fun c => c.setTstart 0))
  | r, n + 1 =>
    let t := (s.q i).t td
    let va := base + BitVec.ofNat 64 r * stride
    let a := s.wideAccess i .store 8 r va t.rb
    match a.1 with
    | .error e => .trap (a.2.modQ i (fun c => c.setTstart r)) e
    | .ok pas =>
      let p := if bit t.rowPoison r then a.2.storePoisoned i va pas (t.row r) 0
        else (true, a.2.storeTo i true va pas (t.row r))
      if p.1 then p.2.storeRows i td base stride (r + 1) n else .ended p.2

/-- The body of an instruction that ends with row stores. -/
def Rows.body (q : QuireId) (len : Nat) : Rows → Body
  | .done s => .retire s (s.after q len)
  | .trap s e => .trap s e
  | .ended s => .stay s

/-- A tile store (R141). -/
def tileStore (q : QuireId) (td : TReg) (rs1 : GReg) (stride : Quire → W64) (s : State) : Res State :=
  s.tehusP q 4 true (fun s => s.tileCheck q true [td] (fun s =>
    let c := s.q q
    if s.rowsWait q .store td (c.gr rs1) (stride c) then .stay s else
    let s := s.drain q
    (s.storeRows q td (c.gr rs1) (stride c) c.tstart ((c.t td).rows - c.tstart)).body q 4))

/-- TLD (R141). -/
def execTld (q : QuireId) (td : TReg) (rs1 rs2 : GReg) (s : State) : Res State :=
  tileLoad q td rs1 (fun c => c.gr rs2) s
/-- TLD.P (R141). -/
def execTldP (q : QuireId) (td : TReg) (rs1 : GReg) (s : State) : Res State :=
  tileLoad q td rs1 (fun c => BitVec.ofNat 64 (c.t td).rb) s
/-- TST (R141). -/
def execTst (q : QuireId) (td : TReg) (rs1 rs2 : GReg) (s : State) : Res State :=
  tileStore q td rs1 (fun c => c.gr rs2) s
/-- TST.P (R141). -/
def execTstP (q : QuireId) (td : TReg) (rs1 : GReg) (s : State) : Res State :=
  tileStore q td rs1 (fun c => BitVec.ofNat 64 (c.t td).rb) s

/-! ## TLDS and TSTS (R144) -/

/-- Check a tile for TLDS or TSTS (R140 code 0x13). -/
def State.scaleCheck (s : State) (i : QuireId) (td : TReg) (k : State → Body) : Body :=
  s.tileCheck i false [td] (fun s =>
    if scaleBlock ((s.q i).t td).desc = 0 then s.tileState i 0x13 td.val else k s)

/-- TLDS (R144, R157). -/
def execTlds (q : QuireId) (td : TReg) (rs1 : GReg) (s : State) : Res State :=
  s.tehusP q 4 true (fun s => s.scaleCheck q td (fun s =>
    let t := (s.q q).t td
    let n := t.scaleCount
    if s.l2WaitsSpan q .load ((s.q q).gr rs1) n then .stay s else
    let s := s.drain q
    let a := s.wideAccess q .load 7 0 ((s.q q).gr rs1) n
    match a.1 with
    | .error e => .trap a.2 e
    | .ok pas =>
      let v := a.2.loadWide q pas
      v.2.simple q 4 (fun c => c.setT td { c.t td with
        scales := setBits (c.t td).scales (8 * n - 1) 0 v.1, scalePoison := false, dirty := true,
        zero := false, sliced := false, slices := 0 })))

/-- TSTS (R144, R157): with the scale-poison mark set, its lines are stored poisoned. -/
def execTsts (q : QuireId) (td : TReg) (rs1 : GReg) (s : State) : Res State :=
  s.tehusP q 4 true (fun s => s.scaleCheck q td (fun s =>
    let t := (s.q q).t td
    let va := (s.q q).gr rs1
    if s.l2WaitsSpan q .store va t.scaleCount then .stay s else
    let s := s.drain q
    let a := s.wideAccess q .store 8 0 va t.scaleCount
    match a.1 with
    | .error e => .trap a.2 e
    | .ok pas =>
      let v := t.scales.toNat % 2 ^ (8 * t.scaleCount)
      let p := if t.scalePoison then a.2.storePoisoned q va pas v 0 else (true, a.2.storeTo q true va pas v)
      if p.1 then .retire p.2 (p.2.after q 4) else .stay p.2))

end Sys2Proof.Machine
end

