-- ==== Sys2Proof/Machine/Context.lean ====
section
/-!
DEFINITION. The context engine of a quire: actions, quiescing, the save image, restore and tip-in
(09_exceptions_context.md, R250 to R260), with the colophon's quire map (R19, R21).
-/
namespace Sys2Proof.Machine

/-! ## The colophon (R19 to R21) -/

/-- The GLB_QMAP byte of a logical quire (R21). -/
def State.qmap (s : State) (n : Nat) : Nat := s.fld (0x030 + 8 * (n / 8)) (8 * (n % 8) + 7) (8 * (n % 8))

/-- Replace the GLB_QMAP byte of a logical quire. -/
def State.setQmap (s : State) (n v : Nat) : State :=
  s.setFld (0x030 + 8 * (n / 8)) (8 * (n % 8) + 7) (8 * (n % 8)) v

/-- The physical quire that a logical quire runs on, while it is available. -/
def State.physOf (s : State) (n : Nat) : Option QuireId :=
  if 128 ≤ s.qmap n then (if h : s.qmap n % 64 < 34 then some ⟨s.qmap n % 64, h⟩ else none) else none

/-- The logical quire that a physical quire carries. -/
def State.logicalOf (s : State) (i : QuireId) : Option (Fin 32) :=
  (List.finRange 32).find? (fun n => s.physOf n.val = some i)

/-- One colophon update (R19): SEQ goes odd and even again, and wraps to 2; before boot has populated the colophon
SEQ stays 0. The odd value is not seen, since an update is part of one command (log entry 186). -/
def State.colophon (s : State) (f : State → State) : State :=
  let seq := s.fld 0x004 31 0
  if seq = 0 then f s
  else (f s).setFld 0x004 31 0 (if seq = 0xFFFFFFFE then 2 else seq + 2)

/-- The AVAIL event (R20, R399). -/
def State.availEvent (s : State) : State := s.deviceEvent 1 0 (BitVec.ofNat 32 (s.fld 0x004 31 0))

/-! ## Actions (R250 to R252) -/

/-- Every launch of a context that uses a logical quire completes CANCELLED (R397). -/
def State.cancelLaunches (s : State) (c : CtxId) (n : Fin 32) : State :=
  ((s.queue c).cmds.filter (fun k => k.started && k.opc = 2 && bit (BitVec.ofNat 32 (k.op 8 4)) n.val)).foldl
    (fun s k => s.completeCmd c k 5 0) s

/-- A management command of queue 0 that waits for this logical quire takes note that its action ended
(R397): a released or a failed quire is unbound, and the last one completes the command. -/
def State.mgmtNote (s : State) (n : Fin 32) (ok : Bool) : State :=
  match (s.queue 0).cmds.find? (fun c => c.started && bit c.waiting n.val) with
  | none => s
  | some c =>
    let c' : Cmd := { c with waiting := setBit c.waiting n.val false,
                             failed := if ok then c.failed else setBit c.failed n.val true }
    let unbind : Bool := if c.opc = 0x41 then ok else !ok
    let s := if unbind && c.opc = 0x41 && c.op 16 1 = 0 then s.cancelLaunches (BitVec.ofNat 12 (c.op 8 2)) n else s
    let s := if unbind then { s with bound := s.bound.set n none } else s
    let s := s.setQueue 0 ((s.queue 0).updCmd c')
    if c'.waiting = 0 then
      s.completeCmd 0 c' (if c.opc = 0x42 && c'.failed ≠ 0 then 2 else 0) c'.failed
    else s

/-- The context engine ends action `act` with a RESULT (R253), which the ring records. -/
def State.ctxResult (s : State) (i : QuireId) (act : BitVec 4) (ctx : CtxId) (result : Nat) : State :=
  (s.modQ i (fun c => { c with result := BitVec.ofNat 8 result })).emit (unitCode 1 i.val) 0x0101 (some ctx)
    (BitVec.ofNat 64 (act.toNat + ctx.toNat * 2 ^ 16)) (BitVec.ofNat 64 result)

/-- An action ends with a RESULT (R253): the ring records it, and a command that waits goes on. -/
def State.actionEnd (s : State) (i : QuireId) (ctx : CtxId) (result : Nat) : State :=
  let act := (s.q i).action
  let s := (s.modQ i (fun c => { c with action := 0 })).ctxResult i act ctx result
  match s.logicalOf i with
  | some n => s.mgmtNote n (result = 1)
  | none => s

/-- An action refused in the quire's state: RESULT = 0x02 and nothing else changes (R252). -/
def State.ctxRefuse (s : State) (i : QuireId) : State := s.modQ i (fun c => { c with result := 2 })

/-- Whether a context's entry asks for the L2 to be cleaned, or is invalid (R309). -/
def State.isolates (s : State) (c : CtxId) : Bool × State :=
  let e := s.ctxEntry c
  match e.1 with
  | some en => (bit en 3, e.2)
  | none => (true, e.2)

/-- What a quire discards before it runs another context (R309): its segment cache and TLB and its first-level caches, and,
where an entry asks for it, its L2, which takes a CINV that the action waits for. -/
def State.isolate (s : State) (i : QuireId) (ctx : CtxId) : State :=
  match (s.q i).lastCtx with
  | none => s
  | some old =>
    if old = ctx then s
    else
      let a := s.isolates old
      let b := a.2.isolates ctx
      let s := b.2.modQ i (fun c => { c with segCache := [], tlb := [], l1i := [], l1d := [], victim := [] })
      if (a.1 || b.1) && s.l2On i then (s.modQ i (fun c => { c with isoWait := true })).startCinv i else s

/-- The context-creation state of a quire (R252): caches and the record of the last context are not part of a context.
The scratch registers, which are no context state either (R80), stay as written (R393). -/
def Quire.created (c : Quire) (ctx : CtxId) (logical : Nat) (entry : W64) : Quire :=
  let d : Quire := { st := .running, ctx := ctx, logical := BitVec.ofNat 5 logical, pc := (retAddr entry).setWidth 56,
                     l1i := c.l1i, l1d := c.l1d, victim := c.victim, l2 := c.l2, evict := c.evict, l2Cinv := c.l2Cinv,
                     segCache := c.segCache, tlb := c.tlb, cr := c.cr.filter (fun e => decide (0x0C0 ≤ e.1)),
                     action := c.action, result := c.result, lastCtx := some ctx }
  d.crSet 0 0x000F1000#64

/-- CREATE, once what R309 asks for is done. -/
def State.createFinish (s : State) (i : QuireId) : State :=
  let ctx := (s.q i).nextCtx
  let n := ((s.logicalOf i).map (·.val)).getD 0
  (s.modQ i (fun c => c.created ctx n (s.reg (qwin i 0x10)))).actionEnd i ctx 1

/-- Whether a save area lies in the folio or the text block and is backed where `n` bytes from `off` lie. -/
def State.areaOk (s : State) (base off n : Nat) : Bool :=
  inFolioText (base + off) n && (List.range ((n + 63) / 64)).all (fun k => s.backed (base + off + 64 * k))

/-- Q_SAVE_BASE (R253). -/
def State.saveBase (s : State) (i : QuireId) : Nat := s.fld (qwin i 0x18) 45 12 * 4096

/-! ## Headers (R256, R257) -/

/-- The bytes of memory from an address. -/
def State.bytesAt (s : State) (a n : Nat) : List Byte := (List.range n).map (fun k => s.byte (a + k))

/-- A header slot is valid: MAGIC and CHECK match, and the slot is readable. -/
def State.headerOk (s : State) (a : Nat) : Bool :=
  (s.poisonedIn a 256).isNone && s.readN a 4 = 0x5A1C0001 &&
    s.readN (a + 0xF8) 8 = (crc64 (s.bytesAt a 0xF8)).toNat

/-- SEQNO of a header slot. -/
def State.headerSeq (s : State) (a : Nat) : Nat := s.readN (a + 8) 8

/-- The valid header with the higher SEQNO: its slot. -/
def State.newerHeader (s : State) (base : Nat) : Option Nat :=
  let a := s.headerOk base
  let b := s.headerOk (base + 0x100)
  if a && b then some (if s.headerSeq (base + 0x100) < s.headerSeq base then 0 else 1)
  else if a then some 0
  else if b then some 1
  else none

/-! ## Sections (R256, R257) -/

/-- Offset of a section in its bank. -/
def sectionOff (k : Nat) : Nat :=
  if k = 0 then 0
  else if k ≤ 8 then 0x800 + (k - 1) * 0x4000
  else if k = 9 then 0x20800
  else if k ≤ 25 then 0x21800 + (k - 10) * 0x4440
  else if k = 26 then 0x65C00
  else 0x75C40

/-- Offset of a bank in the area. -/
def bankOff (b : Bool) : Nat := if b then 0x86080 else 0x400

/-- The control registers with slots in CORE, in ascending number (R68, R257). -/
def savedCrs : List Nat :=
  (List.range 0x0C0).filter (fun n =>
    (0x080 ≤ n && n ≤ 0x08F) || (match crInfo n with | some x => x.saved | none => false))

/-- Bytes of one pending-list entry. -/
def PendingEntry.bytes (e : PendingEntry) : List Byte :=
  leBytes 8 e.words.toNat ++ leBytes 8 e.op1.toNat ++ leBytes 8 e.op2.toNat ++ leBytes 8 e.ctl.toNat ++
    leBytes 8 e.seq.toNat

/-- CORE (R257). -/
def State.coreBytes (s : State) (i : QuireId) : List Byte :=
  let c := s.q i
  let g := (List.range 64).flatMap (fun n => leBytes 8 (if n = 0 then 0 else (c.g.getD n 0).toNat))
  let f := (List.range 32).flatMap (fun n => leBytes 8 (c.f.getD n 0).toNat)
  let se := match c.storeErr with
    | some e => leBytes 8 e.addr.toNat ++
        leBytes 8 (syndOf 0 e.entry ||| (if e.ovf then 1#64 <<< 63 else 0)).toNat
    | none => List.replicate 16 0
  let irq := setBit (setBit c.irq 32 c.storeErr.isSome) 33 (s.timerPending c)
  let crs := savedCrs.flatMap (fun n => leBytes 8 (if (crInfo n).isSome then (s.crValue i n).toNat else 0))
  let pend := (c.pendingList.take 16).flatMap PendingEntry.bytes
  let all := g ++ f ++ leBytes 8 c.pc.toNat ++ se ++ leBytes 32 irq.toNat ++ crs ++ pend
  all ++ List.replicate (2048 - all.length) 0

/-- The spans of a TILE section, offset and bytes (R132, R156, R257): only the head for an unconfigured tile or one with
ZERO = 1; otherwise its ROWS × RB bytes of data follow the head, and its S scale bytes stand at 0x4040. -/
def Tile.spans (t : Tile) : List (Nat × Nat) :=
  if !t.cfg || t.zero then [(0, 64)]
  else
    let n := descScales t.desc
    (0, 64 + t.rows * t.rb) :: (if n = 0 then [] else [(0x4040, n)])

/-- A TILE section: the bytes of its spans. -/
def Tile.parts (t : Tile) : List (Nat × List Byte) :=
  let flags := (if t.zero then 1 else 0) + (if t.sliced then 2 else 0) + (if t.scalePoison then 4 else 0) +
    16 * t.slices.toNat
  let head := leBytes 8 (if t.cfg then t.desc.toNat else 0x80000000) ++ List.replicate 8 0 ++ leBytes 16 flags ++ leBytes 16 t.rowPoison.toNat
    ++ List.replicate 16 0
  t.spans.map (fun x => (x.1, if x.1 = 0 then head ++ leBytes (x.2 - 64) t.data.toNat else leBytes x.2 t.scales.toNat))

/-- An ACC section. -/
def Acc.bytes (a : Acc) : List Byte :=
  leBytes 64 (a.tag.toNat + a.poison.toNat * 2 ^ 16) ++ leBytes 65536 a.words.toNat

/-- What a save writes of a section: offsets in it, and bytes. -/
def State.sectionParts (s : State) (i : QuireId) (k : Nat) : List (Nat × List Byte) :=
  let c := s.q i
  if k = 0 then [(0, s.coreBytes i)]
  else if k ≤ 8 then [(0, (List.range 4).flatMap (fun n => leBytes 4096 (c.v.getD (4 * (k - 1) + n) 0).toNat))]
  else if k = 9 then [(0, (List.range 8).flatMap (fun n => leBytes 512 (c.m.getD n 0).toNat))]
  else if k ≤ 25 then (c.tile.getD (k - 10) {}).parts
  else [(0, (c.acc.getD (k - 26) {}).bytes)]

/-- A section is dirty (R106, R155, R172); CORE always counts as dirty (R256). -/
def Quire.sectionDirty (c : Quire) (k : Nat) : Bool :=
  if k = 0 then true
  else if k ≤ 9 then bit c.vdirty (k - 1)
  else if k ≤ 25 then (c.tile.getD (k - 10) {}).dirty
  else (c.acc.getD (k - 26) {}).dirty

/-- The dirty bits after a commit (R256). -/
def Quire.clean (c : Quire) : Quire :=
  { c with vdirty := 0, tile := c.tile.map (fun t => { t with dirty := false }),
           acc := c.acc.map (fun a => { a with dirty := false }) }

/-! ## Saving (R256) -/

/-- The counters of PRESSCLK move on before they are written (log entry 7). -/
def State.touchTimed (s : State) (i : QuireId) : State :=
  [0x053, 0x054, 0x055, 0x05A].foldl (fun s n => (s.crRead i n).2) s

/-- A write of the save engine: it invalidates the quire's own L1D copies (R267, R280). -/
def State.saveWrite (s : State) (i : QuireId) (a : Nat) (bs : List Byte) : State :=
  (s.dmaWrite a bs).modQ i (fun c => c.l1dDrop a bs.length)

/-- The header of a commit (R257). -/
def State.headerBytes (s : State) (i : QuireId) (seq present bank : Nat) (full tip : Bool) : List Byte :=
  let c := s.q i
  let h := leBytes 8 0x5A1C0001 ++ leBytes 8 seq ++ leBytes 8 s.gtime.toNat ++ leBytes 2 c.ctx.toNat ++
    [BitVec.ofNat 8 c.logical.toNat, BitVec.ofNat 8 i.val, BitVec.ofNat 8 (min c.pendingList.length 16),
      BitVec.ofNat 8 ((if full then 1 else 0) + (if tip then 2 else 0)), 0, 0] ++
    leBytes 4 present ++ leBytes 4 bank
  let h := h ++ List.replicate (0xF8 - h.length) 0
  h ++ leBytes 8 (crc64 h).toNat

/-- Save a quire's context to its area and commit (R256): none when the area cannot be written. With no
valid header in the area the sections go to bank A and the header to slot 0 (log entry 13). -/
def State.saveCommit (s : State) (i : QuireId) (full tip : Bool) : Option State :=
  let s := s.touchTimed i
  let c := s.q i
  let base := s.saveBase i
  let old := s.newerHeader base
  let oldBank := match old with | some n => s.readN (base + 0x100 * n + 0x24) 4 | none => 0
  let oldSeq := match old with | some n => s.headerSeq (base + 0x100 * n) | none => 0
  -- the sections already in this area belong to this context's state
  let carried := if c.area = some base
    then (match old with | some n => s.readN (base + 0x100 * n + 0x20) 4 | none => 0) else 0
  let moved : Bool := c.area ≠ some base && c.restored
  let write := (List.range 28).filter (fun k => full || moved || c.sectionDirty k)
  let toB (k : Nat) : Bool := old.isSome && !Nat.testBit oldBank k
  let data := write.flatMap (fun k => (s.sectionParts i k).map (fun p => (bankOff (toB k) + sectionOff k + p.1, p.2)))
  let slot := match old with | some 0 => 0x100 | _ => 0
  if s.areaOk base slot 256 && data.all (fun d => s.areaOk base d.1 d.2.length) then
    let t := data.foldl (fun s d => s.saveWrite i (base + d.1) d.2) s
    let present := (List.range 28).foldl
      (fun m k => m + (if write.contains k || Nat.testBit carried k then 2 ^ k else 0)) 0
    let bank := (List.range 28).foldl
      (fun m k => m + (if (if write.contains k then toB k else Nat.testBit carried k && Nat.testBit oldBank k)
        then 2 ^ k else 0)) 0
    let t := t.saveWrite i (base + slot) (s.headerBytes i (oldSeq + 1) present bank full tip)
    some (t.modQ i (fun c => { c.clean with area := some base }))
  else none

/-! ## Restoring (R258) -/

/-- A tile from the head of its section, its data and scales still 0. -/
def State.tileHead (s : State) (a : Nat) : Tile :=
  let desc : W64 := BitVec.ofNat 64 (s.readN a 8)
  let fl : W64 := BitVec.ofNat 64 (s.readN (a + 0x10) 1)
  let cfg : Bool := bits desc 31 30 = 1
  { cfg := cfg, desc := if cfg then desc else 0, zero := bit fl 0, sliced := bit fl 1, scalePoison := bit fl 2,
    slices := BitVec.ofNat 4 (bits fl 7 4), rowPoison := BitVec.ofNat 128 (s.readN (a + 0x20) 16) }

/-- A tile from its section: what a save does not write of it is 0 (R156). -/
def State.tileFrom (s : State) (a : Nat) : Tile :=
  let t := s.tileHead a
  if !t.cfg || t.zero then t
  else { t with data := BitVec.ofNat 131072 (s.readN (a + 0x40) (t.rows * t.rb)),
                scales := BitVec.ofNat 8192 (s.readN (a + 0x4040) (descScales t.desc)) }

/-- An accumulator from its section. -/
def State.accFrom (s : State) (a : Nat) : Acc :=
  let h : W64 := BitVec.ofNat 64 (s.readN a 8)
  { words := BitVec.ofNat 524288 (s.readN (a + 0x40) 65536), tag := BitVec.ofNat 2 (bits h 1 0),
    poison := BitVec.ofNat 16 (bits h 31 16) }

/-- A pending-list entry from its 40 bytes. -/
def State.pendingFrom (s : State) (a : Nat) : PendingEntry :=
  let u (o : Nat) : W64 := BitVec.ofNat 64 (s.readN (a + o) 8)
  ⟨u 0, u 8, u 16, u 24, u 32⟩

/-- The control registers of an image: TSTAT, PSTAT and SLTILE are rebuilt and their slots ignored; reserved
bits of the others stay 0. -/
def State.crsFrom (s : State) (a : Nat) (c : Quire) : Quire :=
  ((List.range savedCrs.length).zip savedCrs).foldl (fun c p =>
    match crInfo p.2 with
    | some x =>
      let v : W64 := BitVec.ofNat 64 (s.readN (a + 8 * p.1) 8)
      if p.2 = 0x041 || p.2 = 0x051 || p.2 = 0x05C then c
      else c.crSet p.2 (if x.ro then v else if p.2 = 0 then v &&& 0xF31C0#64 else v &&& x.mask)
    | none => c) c

/-- What a restore reads of the section at `a`: addresses and bytes. -/
def State.restoreSpans (s : State) (a k : Nat) : List (Nat × Nat) :=
  if k = 0 then [(a, 2048)]
  else if k ≤ 8 then [(a, 16384)]
  else if k = 9 then [(a, 4096)]
  else if k ≤ 25 then (s.tileHead a).spans.map (fun x => (a + x.1, x.2))
  else [(a, 65600)]

/-- The interrupts that can be pending in an image (R234); TIMER and STORE_ERROR have a place of their own. -/
def irqMask : BitVec 256 := maskW 256 36 34 ||| maskW 256 255 64

/-- Load the image whose valid header is at `h` (R258): none when a section cannot be read. The image is read through the
directory (R272). -/
def State.restoreImage (s : State) (i : QuireId) (base h : Nat) : Option State :=
  let c := s.q i
  let present := s.readN (h + 0x20) 4
  let bank := s.readN (h + 0x24) 4
  let at_ (k : Nat) : Nat := base + bankOff (Nat.testBit bank k) + sectionOff k
  let spans := ((List.range 28).filter (fun k => Nat.testBit present k)).flatMap (fun k => s.restoreSpans (at_ k) k)
  if spans.all (fun x => s.areaOk x.1 0 x.2 && (s.poisonedIn x.1 x.2).isNone) then
    let has (k : Nat) : Bool := Nat.testBit present k
    let core := at_ 0
    let d := c.created c.ctx (s.readN (h + 0x1A) 1) (BitVec.ofNat 64 (s.readN (core + 0x300) 8))
    let d := s.crsFrom (core + 0x338) d
    let irq : BitVec 256 := BitVec.ofNat 256 (s.readN (core + 0x318) 32)
    let es : W64 := BitVec.ofNat 64 (s.readN (core + 0x310) 8)
    let pend := ((List.range (s.readN (h + 0x1C) 1)).map (fun n => s.pendingFrom (core + 0x520 + 40 * n))).filter
      (fun e => bit e.ctl 63)
    some ((spans.foldl (fun s x => s.dirSpan x.1 x.2 false) s).setQ i { d with
      st := c.st,
      g := Vector.ofFn (fun n : Fin 64 => if n = 0 then 0 else BitVec.ofNat 64 (s.readN (core + 8 * n.val) 8)),
      f := Vector.ofFn (fun n : Fin 32 => BitVec.ofNat 64 (s.readN (core + 0x200 + 8 * n.val) 8)),
      irq := irq &&& irqMask,
      storeErr := if bit irq 32
        then some ⟨BitVec.ofNat 64 (s.readN (core + 0x308) 8), es.setWidth 32, bit es 63⟩ else none,
      v := Vector.ofFn (fun n : Fin 32 => if has (1 + n.val / 4)
        then BitVec.ofNat 32768 (s.readN (at_ (1 + n.val / 4) + n.val % 4 * 4096) 4096) else 0),
      m := Vector.ofFn (fun n : Fin 8 => if has 9 then BitVec.ofNat 4096 (s.readN (at_ 9 + 512 * n.val) 512) else 0),
      tile := Vector.ofFn (fun n : Fin 16 => if has (10 + n.val) then s.tileFrom (at_ (10 + n.val)) else {}),
      acc := Vector.ofFn (fun n : Fin 2 => if has (26 + n.val) then s.accFrom (at_ (26 + n.val)) else {}),
      pendingList := pend, area := some base, restored := true })
  else none

/-- Start of RESTORE (R258, R309): the header is chosen and judged; otherwise the quire is RESTORING. -/
def State.restoreStart (s : State) (i : QuireId) (ctx : CtxId) : State :=
  let base := s.saveBase i
  let s := s.modQ i (fun c => { c with action := 2 })
  if !s.areaOk base 0 512 || (s.poisonedIn base 512).isSome then s.actionEnd i ctx 5
  else match s.newerHeader base with
    | none => s.actionEnd i ctx 3
    | some n =>
      if s.readN (base + 0x100 * n + 0x18) 2 % 4096 ≠ ctx.toNat then s.actionEnd i ctx 4
      else (s.modQ i (fun c => { c with st := .restoring, ctx := ctx })).isolate i ctx

/-! ## Performing an action (R252, R254, R255) -/

/-- Begin to stop: QUIESCE (R254). -/
def State.stop (s : State) (i : QuireId) (act : Nat) (full : Bool) : State :=
  s.modQ i (fun c => { c with st := .quiesce, action := BitVec.ofNat 4 act, full := full })

/-- The start of a PREEMPT (R255): grace, unless GRACE or the ML of descriptor 35 is 0. -/
def State.preempt (s : State) (i : QuireId) (full : Bool) : State :=
  let grace := s.fld (qwin i 0x20) 7 0
  if grace = 0 then s.stop i 5 full
  else
    let l := s.irqLevel i 35
    if l.1 = 0 then l.2.2.stop i 5 full
    else
      let t := l.2.2.raiseIrq i 35
      t.modQ i (fun c => { c with st := .grace, action := 5, full := full,
                                  graceEnd := t.gtime + BitVec.ofNat 64 (100 * grace) })

/-- Perform an action (R252). -/
def State.ctxAction (s : State) (i : QuireId) (act : Nat) (ctx : CtxId) (full : Bool) : State :=
  let c := s.q i
  if c.action ≠ 0 && !(act = 3 && c.st = .grace) then s.ctxRefuse i
  else match act, c.st with
    | 0, _ => s
    | 1, .idle =>
      let t := (s.modQ i (fun c => { c with action := 1, nextCtx := ctx })).isolate i ctx
      if (t.q i).isoWait then t else t.createFinish i
    | 2, .idle => s.restoreStart i ctx
    | 3, .running | 3, .grace => s.stop i 3 full
    | 4, .running | 4, .held | 4, .halted => s.stop i 4 full
    | 5, .running => s.preempt i full
    | 6, .running => s.stop i 6 full
    | 7, .held => (s.modQ i (fun c => { c with st := .running, action := 7 })).actionEnd i c.ctx 1
    | _, _ => s.ctxRefuse i

/-- A write of Q_CTX_CTL by its source (R250, R251): a headband's or quire code's is accepted, and the command engine acts
on its own (`State.ctxAction`). -/
def State.ctxWrite (s : State) (i : QuireId) (src : Source) (act : Nat) (ctx : CtxId) (full : Bool) : State :=
  s.quireGate i src 0 (fun s => match src with
    | .host | .debug | .stitcher => s.reject src (qwin i 0)
    | .quire | .headband => if 8 ≤ act then s.reject src (qwin i 0) else s.ctxAction i act ctx full)

/-- CTX_CREATE (R252, R309). -/
def execCtxCreate (q : QuireId) (src : Source) (ctx : CtxId) (full : Bool) (s : State) : Res State :=
  s.inOrder src (.write 0 (qwin q 0) false (BitVec.ofNat 64 (1 + (if full then 16 else 0) + ctx.toNat * 2 ^ 16))) fun s =>
    .next (s.ctxWrite q src 1 ctx full)
/-- CTX_RESTORE (R252, R258). -/
def execCtxRestore (q : QuireId) (src : Source) (ctx : CtxId) (full : Bool) (s : State) : Res State :=
  s.inOrder src (.write 0 (qwin q 0) false (BitVec.ofNat 64 (2 + (if full then 16 else 0) + ctx.toNat * 2 ^ 16))) fun s =>
    .next (s.ctxWrite q src 2 ctx full)
/-- CTX_STOP_SAVE (R252, R254, R256). -/
def execCtxStopSave (q : QuireId) (src : Source) (ctx : CtxId) (full : Bool) (s : State) : Res State :=
  s.inOrder src (.write 0 (qwin q 0) false (BitVec.ofNat 64 (3 + (if full then 16 else 0) + ctx.toNat * 2 ^ 16))) fun s =>
    .next (s.ctxWrite q src 3 ctx full)
/-- CTX_STOP_DISCARD (R252, R254). -/
def execCtxStopDiscard (q : QuireId) (src : Source) (ctx : CtxId) (full : Bool) (s : State) : Res State :=
  s.inOrder src (.write 0 (qwin q 0) false (BitVec.ofNat 64 (4 + (if full then 16 else 0) + ctx.toNat * 2 ^ 16))) fun s =>
    .next (s.ctxWrite q src 4 ctx full)
/-- CTX_PREEMPT (R252, R255). -/
def execCtxPreempt (q : QuireId) (src : Source) (ctx : CtxId) (full : Bool) (s : State) : Res State :=
  s.inOrder src (.write 0 (qwin q 0) false (BitVec.ofNat 64 (5 + (if full then 16 else 0) + ctx.toNat * 2 ^ 16))) fun s =>
    .next (s.ctxWrite q src 5 ctx full)
/-- CTX_CHECKPOINT (R252, R256). -/
def execCtxCheckpoint (q : QuireId) (src : Source) (ctx : CtxId) (full : Bool) (s : State) : Res State :=
  s.inOrder src (.write 0 (qwin q 0) false (BitVec.ofNat 64 (6 + (if full then 16 else 0) + ctx.toNat * 2 ^ 16))) fun s =>
    .next (s.ctxWrite q src 6 ctx full)
/-- CTX_RESUME (R252). -/
def execCtxResume (q : QuireId) (src : Source) (ctx : CtxId) (full : Bool) (s : State) : Res State :=
  s.inOrder src (.write 0 (qwin q 0) false (BitVec.ofNat 64 (7 + (if full then 16 else 0) + ctx.toNat * 2 ^ 16))) fun s =>
    .next (s.ctxWrite q src 7 ctx full)

/-- GRACE_EXPIRY (R255): GTIME reaches the end of the grace, and STOP_SAVE begins (log entry 8). -/
def execGraceExpiry (q : QuireId) (s : State) : Res State :=
  let c := s.q q
  if c.st = .grace then
    let s := if s.gtime.toNat < c.graceEnd.toNat then { s with gtime := c.graceEnd } else s
    .next (s.stop q 5 c.full)
  else .next s

/-! ## Quiescing (R254) -/

/-- A far atomic that returns a value runs to completion (R254 item 3): the atomics before it at its unit
execute, then it does, and its instruction completes. -/
def State.settleAtomic (s : State) (i : QuireId) : State :=
  match (s.q i).stall with
  | .atomic d =>
    match s.atomics.find? (fun e => e.quire = some i && !e.posted) with
    | none => s
    | some e =>
      let u := s.unitOf e.addr
      let ahead := (s.atomics.takeWhile (fun x => x ≠ e)).countP (fun x => x.result.isNone && s.unitOf x.addr = u)
      let s := if e.result.isSome then s else (List.range (ahead + 1)).foldl (fun s _ => s.farExecute u) s
      match s.atomics.find? (fun e => e.quire = some i && !e.posted && e.result.isSome) with
      | some e => { s with atomics := s.atomics.erase e }.finishLoad i d 4 (e.result.getD 0)
      | none => s
  | _ => s

/-- Whether an atomic is still on its way to the host or another node. -/
def Quire.atomicAway (c : Quire) : Bool :=
  match c.stall with
  | .host _ _ _ _ acc | .remote _ _ _ _ acc => acc = 4
  | _ => false

/-- Where a stopped context goes on (R254): a WAIT that has not ended is performed again, and so has not retired; a CINV of
L2 in progress goes on, and is over before the next instruction should the context resume here. -/
def Quire.stopPoint (c : Quire) : Quire :=
  match c.stall with
  | .wait => { c.crSet 0x006 (c.crGet 0x006 - 1) with pc := c.pc - 4, stall := .none }
  | .cinvL2 => c
  | _ => { c with stall := .none }

/-- The end of quiescing: stores and atomics have run, and loads in flight are discarded. -/
def State.quiesced (s : State) (i : QuireId) : State :=
  ((s.drain i).settleAtomic i).modQ i (fun c => { c.stopPoint with deferred := [], useOld := [] })

/-- QUIESCE_COMPLETE (R254): a discarded context is gone; a saved one is SAVING. It waits for an atomic that
has left the block, and for stores at other nodes. -/
def execQuiesceComplete (q : QuireId) (s : State) : Res State :=
  let c := s.q q
  if c.atomicAway then .next s
  else if (c.st = .quiesce || c.st = .tipinSource) && (s.drain q).storesOut q then .next (s.drain q)
  else if c.st = .quiesce then
    let t := s.quiesced q
    if c.action = 4 then
      .next ((t.modQ q (fun c => { c.discarded with action := 4 })).actionEnd q c.ctx 1)
    else .next (t.modQ q (fun c => { c with st := .saving }))
  else match s.tipin with
    | some t =>
      if t.source = q && c.st = .tipinSource && !t.quiesced then
        .next { s.quiesced q with tipin := some { t with quiesced := true } }
      else .next s
    | none => .next s

/-- Whether a physical quire is reported available (R18 to R21, R565). -/
def State.quireUp (s : State) (i : QuireId) : Bool := bit (s.reg 0x010) i.val

/-- A free spare: available, idle, and carrying no logical quire (R259, R487). Of several the lowest-numbered one is taken,
which the spec leaves open (log entry 172). -/
def State.freeSpare (s : State) : Option QuireId :=
  (List.finRange 34).find? (fun i => s.quireUp i && (s.q i).st = .idle && (s.q i).action = 0 && (s.logicalOf i).isNone)

/-- A discarded tip-in: the spare returns to IDLE, and MOVING clears with PHYS unchanged (R260). -/
def State.tipDiscard (s : State) (t : TipIn) : State :=
  let ctx := (s.q t.source).ctx
  let s := s.colophon (fun s => s.setQmap t.logical.val (128 + t.source.val))
  let s := s.modQ t.spare (fun c => { c.discarded with st := .idle })
  let s := { s with tipin := none }
  (s.emit (unitCode 1 t.source.val) 0x0105 (some ctx) 0xF (BitVec.ofNat 64 t.spare.val)).emit
    (unitCode 1 t.spare.val) 0x0105 (some ctx) 0xF (BitVec.ofNat 64 t.source.val)

/-- Whether a quire's save area holds a committed image of its context. -/
def State.imageHeld (s : State) (i : QuireId) : Bool :=
  let base := s.saveBase i
  match s.newerHeader base with
  | none => false
  | some n => s.readN (base + 0x100 * n + 0x18) 2 % 4096 = (s.q i).ctx.toNat

/-- A RELEASE command waits for the save of a quire. -/
def State.releasing (s : State) (i : QuireId) : Bool :=
  match s.logicalOf i with
  | some n => (s.queue 0).cmds.any (fun c => c.started && c.opc = 0x41 && bit c.waiting n.val)
  | none => false

/-- Load the newest image of a quire's area: none when there is none of this context, or it cannot be
read. -/
def State.loadImage (s : State) (i : QuireId) (base : Nat) : Option State :=
  match s.newerHeader base with
  | none => none
  | some n => s.restoreImage i base (base + 0x100 * n)

/-- The commit of a tip-in: one colophon update moves PHYS and clears MOVING, the spare resumes, and the
source is OFFLINE once it has failed and IDLE otherwise (R259). -/
def State.tipCommit (s : State) (t : TipIn) (result : Nat) (srcFailed : Bool) : State :=
  let ctx := (s.q t.spare).ctx
  let s := s.colophon (fun s => s.setQmap t.logical.val (128 + t.spare.val))
  let s := s.modQ t.spare (fun c => { c with st := .running, result := BitVec.ofNat 8 result })
  let s := s.modQ t.source (fun c => { c.discarded with st := if srcFailed then .offline else .idle })
  let s := { s with tipin := none }
  ((s.emit (unitCode 1 t.source.val) 0x0105 (some ctx) 4 (BitVec.ofNat 64 t.spare.val)).emit
    (unitCode 1 t.spare.val) 0x0105 (some ctx) 4 (BitVec.ofNat 64 t.source.val)).availEvent

/-- The context of a tip-in is lost (R260): one ERROR completion, and the CONTEXT_LOST event. The source has failed: its
logical quire moves to a spare that is free, or is unavailable (R13, R21, R487). -/
def State.tipLost (s : State) (t : TipIn) : State :=
  let ctx := (s.q t.source).ctx
  let s := s.tipDiscard t
  let s := s.contextFatal ctx 0x03 (unitCode 1 t.source.val) none
  let s := s.modQ t.source (fun c => { c.discarded with st := .offline, result := 9 })
  let next := match s.freeSpare with | some j => 128 + j.val | none => 0
  let s := (s.colophon (fun s => s.setQmap t.logical.val next)).availEvent
  s.deviceEvent 3 0 (BitVec.ofNat 32 t.logical.val)

/-- An earlier image that the area of the source holds for its context, loaded onto the spare. -/
def State.earlierImage (s : State) (t : TipIn) : Option State :=
  let base := s.saveBase t.source
  match s.newerHeader base with
  | none => none
  | some n =>
    if s.readN (base + 0x100 * n + 0x18) 2 % 4096 = (s.q t.source).ctx.toNat
    then s.restoreImage t.spare base (base + 0x100 * n) else none

/-- The first row of the table of R260: roll the context back onto the spare, or lose it. -/
def State.tipRollback (s : State) (t : TipIn) : State :=
  match s.earlierImage t with
  | some u => (u.tipCommit t 8 true).deviceEvent 2 0 (BitVec.ofNat 32 t.logical.val)
  | none => s.tipLost t

/-- A quire becomes the spare of a tip-in (R259, R309). -/
def State.tipTarget (s : State) (src spare : QuireId) : State :=
  let s := s.setReg (qwin spare 0x18) (s.reg (qwin src 0x18))
  let ctx := (s.q src).ctx
  (s.modQ spare (fun d => { d with st := .tipinTarget, ctx := ctx })).isolate spare ctx

/-- SAVE_COMMIT (R256): the image is committed; a save that cannot write its area leaves the context HELD
with RESULT = 0x05. During a tip-in or a RELEASE, and with no committed image, the context then ends (R484); the save of a
tip-in whose source has failed is followed by the first row of the table of R260. -/
def execSaveCommit (q : QuireId) (s : State) : Res State :=
  let c := s.q q
  if c.st = .saving then
    match s.saveCommit q c.full false with
    | none =>
      let lost := s.releasing q && !s.imageHeld q
      let t := (s.modQ q (fun c => { c with st := .held })).actionEnd q c.ctx 5
      .next (if lost then t.contextFatal c.ctx 0x07 (unitCode 1 q.val) none else t)
    | some t =>
      if c.action = 6 then .next ((t.modQ q (fun c => { c with st := .running })).actionEnd q c.ctx 1)
      else .next ((t.modQ q (fun d => { d.discarded with action := c.action })).actionEnd q c.ctx 1)
  else match s.tipin with
    | some t =>
      if t.source = q && c.st = .tipinSource && t.quiesced && !t.saved then
        match s.saveCommit q true true with
        | some u =>
          .next ((({ u with tipin := some { t with saved := true } } : State).ctxResult q 3 c.ctx 1).emit
            (unitCode 1 q.val) 0x0105 (some c.ctx) 2 (BitVec.ofNat 64 t.spare.val))
        | none =>
          if !s.quireUp q then .next (s.tipRollback t)
          else
          let lost := !s.imageHeld q
          let u := (s.tipDiscard t).modQ q (fun c => { c with st := .held, result := 5 })
          .next (if lost then u.contextFatal c.ctx 0x07 (unitCode 1 q.val) none else u)
      else .next s
    | none => .next s

/-- RESTORE_COMPLETE (R258): the sections are loaded and the context resumes, its pending list to be
replayed; a spare in a tip-in holds the context until the commit. Poison or an unreadable section gives
RESULT = 0x05 and leaves the quire IDLE (R469). -/
def execRestoreComplete (q : QuireId) (s : State) : Res State :=
  let c := s.q q
  if c.isoWait then .next s
  else if c.st = .restoring then
    match s.loadImage q (s.saveBase q) with
    | some t => .next ((t.modQ q (fun c => { c with st := .running })).actionEnd q c.ctx 1)
    | none => .next ((s.modQ q (fun c => { c with st := .idle, ctx := 0 })).actionEnd q c.ctx 5)
  else match s.tipin with
    | some t =>
      if t.spare = q && c.st = .tipinTarget && t.saved && !t.restored then
        match s.loadImage q (s.saveBase q) with
        | some u =>
          .next ((({ u with tipin := some { t with restored := true } } : State).ctxResult q 2 c.ctx 1).emit
            (unitCode 1 q.val) 0x0105 (some c.ctx) 3 (BitVec.ofNat 64 t.source.val))
        | none => .next (s.modQ q (fun c => { c with result := 5 }))
      else .next s
    | none => .next s

/-- CINV_L2_COMPLETE (R273): every line has been cleaned, is invalidated with its L1D copies, and what waits goes on: an
instruction, or the CREATE that R309 held back. -/
def execCinvL2Complete (q : QuireId) (s : State) : Res State :=
  let c := s.q q
  if c.l2Cinv && !s.l2Busy q && s.cleaned q then
    let t := s.setQ q { c.l2Lose (fun _ => true) with
      l2Cinv := false, isoWait := false, stall := if c.stall = .cinvL2 then .none else c.stall }
    .next (if c.isoWait && c.action = 1 then t.createFinish q else t)
  else .next s

/-! ## Tip-in (R259, R260) -/

/-- TIP_IN (R259, steps 1 and 2): MOVING is set, and the source stops with no grace. Nothing happens unless
the logical quire runs a context, no tip-in is in progress, and the spare is an available quire that is
IDLE and carries no logical quire. -/
def execTipIn (logical : Fin 32) (spare : QuireId) (s : State) : Res State :=
  match s.physOf logical.val with
  | none => .next s
  | some src =>
    let c := s.q src
    if s.tipin.isSome || c.st ≠ .running || (s.q spare).st ≠ .idle || (s.q spare).action ≠ 0 ||
        (s.logicalOf spare).isSome || !s.quireUp spare then .next s
    else
      let s := s.colophon (fun s => s.setQmap logical.val (s.qmap logical.val ||| 64))
      let s := { s with tipin := some { logical := logical, source := src, spare := spare } }
      let s := (s.modQ src (fun c => { c with st := .tipinSource })).tipTarget src spare
      .next ((s.emit (unitCode 1 src.val) 0x0105 (some c.ctx) 1 (BitVec.ofNat 64 spare.val)).emit
        (unitCode 1 spare.val) 0x0105 (some c.ctx) 1 (BitVec.ofNat 64 src.val))

/-- TIP_IN_COMMIT (R259, step 4). -/
def execTipInCommit (logical : Fin 32) (s : State) : Res State :=
  match s.tipin with
  | some t => if t.logical = logical && t.restored then .next (s.tipCommit t 1 (!s.quireUp t.source)) else .next s
  | none => .next s

/-- A healthy source keeps its context (R260): the copy is discarded, and once its image is committed the source restores
it. An image that it cannot read leaves the context HELD with RESULT = 0x05 (log entry 171). -/
def State.tipResume (s : State) (t : TipIn) : State :=
  let s := s.tipDiscard t
  if !t.saved then s.modQ t.source (fun c => { c with st := .running })
  else match s.loadImage t.source (s.saveBase t.source) with
    | some u => u.modQ t.source (fun c => { c with st := .running })
    | none => s.modQ t.source (fun c => { c with st := .held, result := 5 })

/-- The first row of the table of R260 where the spare has failed too: the context rolls back onto another spare. -/
def State.tipOther (s : State) (t : TipIn) : State :=
  let s' := s.modQ t.spare (fun c => { c.discarded with st := .idle })
  match (List.finRange 34).find? (fun i => i ≠ t.spare && s.freeSpare = some i) with
  | some j => (s'.tipTarget t.source j).tipRollback { t with spare := j }
  | none => s.tipLost t

/-- TIP_IN_FAILURE (R260): by what failed and at which point. A failed spare, or a failover, leaves a healthy
source with its own context. -/
def execTipInFailure (logical : Fin 32) (what : TipFail) (s : State) : Res State :=
  match s.tipin with
  | none => .next s
  | some t =>
    let healthy := s.quireUp t.source
    if t.logical ≠ logical then .next s
    else match what with
      | .source => if t.saved then .next s else .next (s.tipRollback t)
      | .spare => .next (if healthy then s.tipResume t else s.tipOther t)
      | .headband => .next (if healthy then s.tipResume t else s.tipRollback t)

/-- Q_IRQ_SET (R253): interrupts 64 to 255 only, in the running context. -/
def execQIrqSet (q : QuireId) (src : Source) (num : BitVec 8) (s : State) : Res State :=
  s.inOrder src (.write 0 (qwin q 0x24) false (num.setWidth 64)) fun s =>
  .next (s.quireGate q src 0x24 (fun s =>
    if num.toNat < 64 then s.reject src (qwin q 0x24) else s.raiseIrq q num.toNat))

end Sys2Proof.Machine
end

