-- ==== Sys2Proof/Machine/Doorbells.lean ====
section
/-!
DEFINITION. Doorbell pages (14_host_queues.md, R386, R387).
-/
namespace Sys2Proof.Machine

/-- Offset of a doorbell-page register (R379, R386). -/
def dbOff (n : CtxId) (off : Nat) : Nat := 0x1000000 + n.toNat * 0x1000 + off

/-- A write of HST_DB_SQTAIL, on an ENABLED queue only (R387). -/
def State.dbTail (s : State) (src : Source) (n : CtxId) (v : W32) : State :=
  let x := s.queue n
  if x.st ≠ .enabled then s
  else if x.sqSize ≤ v.toNat % 65536 then s.reject src (dbOff n 0)
  else s.setQueue n { x with sqTail := v.setWidth 16 }

/-- A HEAD that R387 allows: inside the ring, and not past CQTAIL. -/
def Queue.headOk (x : Queue) (h : Nat) : Bool :=
  decide (h < x.cqSize) &&
    decide ((h + x.cqSize - x.cqHead.toNat) % x.cqSize ≤ (x.cqTail.toNat + x.cqSize - x.cqHead.toNat) % x.cqSize)

/-- A write of HST_DB_CQHEAD, on an ENABLED or DRAINING queue (R387). -/
def State.dbHead (s : State) (src : Source) (n : CtxId) (v : W32) : State :=
  let x := s.queue n
  if x.st ≠ .enabled && x.st ≠ .draining then s
  else if x.headOk (v.toNat % 65536) then s.setQueue n { x with cqHead := v.setWidth 16 }
  else s.reject src (dbOff n 8)

/-- A write of HST_DB_QIRQ, on an ENABLED or DRAINING queue: HOST_DOORBELL on each logical quire of the mask that
runs the context (R386, R387). -/
def State.dbQirq (s : State) (n : CtxId) (v : W32) : State :=
  let x := s.queue n
  if x.st ≠ .enabled && x.st ≠ .draining then s
  else (List.range 32).foldl (fun s k =>
    match s.physOf k with
    | some i => if bit v k && (s.q i).ctx = n then s.raiseIrq i 34 else s
    | none => s) s

/-- A write of a doorbell page's 32-bit register at an offset of the page. -/
def State.dbWrite (s : State) (src : Source) (n : CtxId) (off : Nat) (v : W32) : State :=
  match off with
  | 0 => s.dbTail src n v
  | 8 => s.dbHead src n v
  | _ => s.dbQirq n v

/-- A doorbell write in SLEEP (R514): it waits in the 64-entry buffer, or is dropped. -/
def State.dbBuffer (s : State) (n : CtxId) (off : Nat) (v : W32) : State :=
  if s.doorbells.length < 64 then { s with doorbells := s.doorbells ++ [(n, off, v)] }
  else { s.setFld 0x10030 28 28 1 with dbDrop := true }

/-- The doorbell buffer is replayed in arrival order (R514, R515). -/
def State.dbReplay (s : State) : State :=
  s.doorbells.foldl (fun s e => s.dbWrite .host e.1 e.2.1 e.2.2) { s with doorbells := [] }

end Sys2Proof.Machine
end

