-- ==== Sys2Proof/Machine/Stitch.lean ====
section
/-!
DEFINITION. The Tehus-S instructions that act on a bank's stack, flags and accumulator alone (12_stitcher_isa.md, R313 to R341).
Each is a function of the bank and its engine's STICKY and TRAPEN, and answers the vector of the
exception it raises (R366): 1 ILLEGAL, 2 STACK_OVERFLOW, 3 STACK_UNDERFLOW, 5 DIVIDE_BY_ZERO, 6 OVERFLOW.
-/
namespace Sys2Proof.Machine

/-- What these instructions act on (R313). -/
structure Core where
  bank : Bank
  sticky : W32
  trapen : W32
  deriving DecidableEq, Repr

/-- One of them: the new state, or the vector it raises. -/
abbrev COp := Core → Except Nat Core

/-- A modifier without a reserved value (R320). -/
def legal (ok : Bool) (f : COp) : COp := fun c => if ok then f c else .error 1

/-- The stack check of R314: p words are popped, q pushed. -/
def need (p q : Nat) (f : COp) : COp := fun c =>
  if c.bank.stack.length < p then .error 3
  else if 16 < c.bank.stack.length - p + q then .error 2
  else f c

/-- Replace the stack. -/
def Core.stk (c : Core) (l : List W32) : Core := { c with bank := { c.bank with stack := l } }
/-- Entry n of the stack. -/
def Core.at (c : Core) (n : Nat) : W32 := c.bank.stack.getD n 0
/-- Replace FLAGS. -/
def Core.setFl (c : Core) (x : W32) : Core := { c with bank := { c.bank with flags := x } }
/-- Set one bit of FLAGS. -/
def Core.flag (c : Core) (i : Nat) (b : Bool) : Core := c.setFl (setBit c.bank.flags i b)
/-- Set bits of STICKY. -/
def Core.stick (c : Core) (x : W32) : Core := { c with sticky := c.sticky ||| x }

/-- FLAGS.V (R337). -/
abbrev bV : Nat := 0
/-- FLAGS.C. -/
abbrev bC : Nat := 1
/-- FLAGS.Z. -/
abbrev bZ : Nat := 2
/-- FLAGS.N. -/
abbrev bN : Nat := 3
/-- FLAGS.S. -/
abbrev bS : Nat := 4
/-- FLAGS.EARLY. -/
abbrev bEarly : Nat := 5

/-- N and Z from a result. -/
def Core.nz (c : Core) (r : W32) : Core := (c.flag bN r.msb).flag bZ (r = 0)

/-- Push a word. -/
def pushOp (f : Core → W32) : COp := need 0 1 (fun c => .ok (c.stk (f c :: c.bank.stack)))

/-- Replace the top word. -/
def unary (f : Core → W32 → Except Nat (W32 × Core)) : COp := need 1 1 (fun c =>
  match f c (c.at 0) with
  | .error e => .error e
  | .ok (r, d) => .ok (d.stk (r :: c.bank.stack.drop 1)))

/-- Replace the two top words a and b, b on top, by one. -/
def binary (f : Core → W32 → W32 → Except Nat (W32 × Core)) : COp := need 2 1 (fun c =>
  match f c (c.at 1) (c.at 0) with
  | .error e => .error e
  | .ok (r, d) => .ok (d.stk (r :: c.bank.stack.drop 2)))

/-- Pop p words. -/
def popOp (p : Nat) (f : Core → Core) : COp := need p 0 (fun c => .ok ((f c).stk (c.bank.stack.drop p)))

/-! ## Stack and immediates (R322) -/

/-- PUSHI8. -/
def pushi8Op (m : Byte) : COp := pushOp (fun _ => m.signExtend 32)
/-- PUSHI16. -/
def pushi16Op (m : Byte) (w : W16) : COp := legal (m = 0) (pushOp (fun _ => w.signExtend 32))
/-- PUSHI32. -/
def pushi32Op (m : Byte) (w : W32) : COp := legal (m = 0) (pushOp (fun _ => w))
/-- PICK n, which pops n + 1 words for the check (R314). -/
def pickOp (m : Byte) : COp := legal (m.toNat < 16)
  (need (m.toNat + 1) (m.toNat + 2) (fun c => .ok (c.stk (c.at m.toNat :: c.bank.stack))))
/-- DROP n. -/
def dropOp (m : Byte) : COp := legal (m.toNat < 16) (popOp (m.toNat + 1) id)
/-- SWAP. -/
def swapOp (m : Byte) : COp := legal (m = 0)
  (need 2 2 (fun c => .ok (c.stk (c.at 1 :: c.at 0 :: c.bank.stack.drop 2))))
/-- ROLL n. -/
def rollOp (m : Byte) : COp := legal (m.toNat < 16)
  (need (m.toNat + 1) (m.toNat + 1) (fun c =>
    .ok (c.stk (c.at m.toNat :: c.bank.stack.eraseIdx m.toNat))))
/-- DEPTH. -/
def depthOp (m : Byte) : COp := legal (m = 0) (pushOp (fun c => BitVec.ofNat 32 c.bank.stack.length))

/-! ## Integer arithmetic and logic (R323, R324) -/

/-- NC of an addition with carry in: the carries out of the nibbles. -/
def ncAdd (a b cin : Nat) : Nat :=
  (List.range 8).foldl (fun n i =>
    n + (if 2 ^ (4 * i + 4) ≤ a % 2 ^ (4 * i + 4) + b % 2 ^ (4 * i + 4) + cin then 2 ^ i else 0)) 0

/-- NC of a subtraction with borrow in: the borrows out of the nibbles. -/
def ncSub (a b bin : Nat) : Nat :=
  (List.range 8).foldl (fun n i =>
    n + (if a % 2 ^ (4 * i + 4) < b % 2 ^ (4 * i + 4) + bin then 2 ^ i else 0)) 0

/-- FLAGS after an addition or subtraction. -/
def Core.arith (c : Core) (r : W32) (cf vf : Bool) (nc : Nat) : Core :=
  ((c.nz r).flag bC cf |>.flag bV vf).setFl
    (setBits ((c.nz r).flag bC cf |>.flag bV vf).bank.flags 15 8 nc)

/-- A checked form's overflow (R324). -/
def Core.chk (c : Core) (chk vf : Bool) (r : W32) : Except Nat (W32 × Core) :=
  if chk && vf then
    if bit c.trapen 1 then .error 6 else .ok (r, c.stick 0x40#32)
  else .ok (r, c)

/-- a + b + cin. -/
def Core.add (c : Core) (chk : Bool) (a b : W32) (cin : Nat) : Except Nat (W32 × Core) :=
  let r : W32 := BitVec.ofNat 32 (a.toNat + b.toNat + cin)
  let v : Bool := decide (r.toInt ≠ a.toInt + b.toInt + cin)
  (c.arith r (decide (2 ^ 32 ≤ a.toNat + b.toNat + cin)) v (ncAdd a.toNat b.toNat cin)).chk chk v r

/-- a − b − bin. -/
def Core.sub (c : Core) (chk : Bool) (a b : W32) (bin : Nat) : Except Nat (W32 × Core) :=
  let r : W32 := a - b - BitVec.ofNat 32 bin
  let v : Bool := decide (r.toInt ≠ a.toInt - b.toInt - bin)
  (c.arith r (decide (b.toNat + bin ≤ a.toNat)) v (ncSub a.toNat b.toNat bin)).chk chk v r

/-- C as a number. -/
def Core.carry (c : Core) : Nat := if bit c.bank.flags bC then 1 else 0

/-- ADD. -/
def addOp (m : Byte) : COp := legal (m.toNat < 2) (binary (fun c a b => c.add (m = 1) a b 0))
/-- ADC. -/
def adcOp (m : Byte) : COp := legal (m.toNat < 2) (binary (fun c a b => c.add (m = 1) a b c.carry))
/-- SUB. -/
def subOp (m : Byte) : COp := legal (m.toNat < 2) (binary (fun c a b => c.sub (m = 1) a b 0))
/-- SBC. -/
def sbcOp (m : Byte) : COp := legal (m.toNat < 2) (binary (fun c a b => c.sub (m = 1) a b (1 - c.carry)))

/-- N, Z and V of a logical operation. -/
def Core.logic (c : Core) (r : W32) : Except Nat (W32 × Core) := .ok (r, (c.nz r).flag bV false)

/-- AND. -/
def andOp (m : Byte) : COp := legal (m = 0) (binary (fun c a b => c.logic (a &&& b)))
/-- OR. -/
def orOp (m : Byte) : COp := legal (m = 0) (binary (fun c a b => c.logic (a ||| b)))
/-- XOR. -/
def xorOp (m : Byte) : COp := legal (m = 0) (binary (fun c a b => c.logic (a ^^^ b)))
/-- ANDN. -/
def andnOp (m : Byte) : COp := legal (m = 0) (binary (fun c a b => c.logic (a &&& ~~~ b)))

/-- CMP: the flags of a − b. -/
def cmpOp (m : Byte) : COp := legal (m = 0) (need 2 0 (fun c =>
  match c.sub false (c.at 1) (c.at 0) 0 with
  | .ok (_, d) => .ok (d.stk (c.bank.stack.drop 2))
  | .error e => .error e))
/-- TST: the flags of a and b. -/
def tstOp (m : Byte) : COp := legal (m = 0)
  (popOp 2 (fun c => (c.nz (c.at 1 &&& c.at 0)).flag bV false))
/-- ADDI. -/
def addiOp (m : Byte) : COp := unary (fun c a => c.add false a (m.signExtend 32) 0)
/-- NEG. -/
def negOp (m : Byte) : COp := legal (m.toNat < 2) (unary (fun c a => c.sub (m = 1) 0 a 0))
/-- NOT. -/
def notOp (m : Byte) : COp := legal (m = 0) (unary (fun c a => c.logic (~~~ a)))

/-! ## Shifts (R325) -/

/-- The shift modifiers that R325 allows. -/
def shiftOk (m : Byte) : Bool := bits m 6 5 = 0 && (bit m 7 || m = 0)

/-- Result of a shift by c, and the last bit shifted out; none leaves C unchanged. -/
def shiftVal (k : Nat) (a : W32) (c : Nat) : W32 × Option Bool :=
  match k with
  | 0 => (a <<< c, if c = 0 then none else some (c ≤ 32 && bit a (32 - c)))
  | 1 => (a >>> c, if c = 0 then none else some (c ≤ 32 && bit a (c - 1)))
  | 2 => (a.sshiftRight c, if c = 0 then none else some (if c ≤ 32 then bit a (c - 1) else a.msb))
  | _ => (a.rotateRight (c % 32), if c % 32 = 0 then none else some (bit a (c % 32 - 1)))

/-- Flags and result of a shift. -/
def Core.shifted (d : Core) (k : Nat) (a : W32) (c : Nat) : W32 × Core :=
  let r := shiftVal k a c
  let e := (d.nz r.1).flag bV false
  (r.1, match r.2 with | some b => e.flag bC b | none => e)

/-- SHL, SHR, SAR and ROR for k = 0 to 3. -/
def shiftOp (k : Nat) (m : Byte) : COp := legal (shiftOk m)
  (if bit m 7 then unary (fun c a => .ok (c.shifted k a (bits m 4 0)))
   else binary (fun c a b => .ok (c.shifted k a (bits b 5 0))))

/-! ## Multiply and divide (R326) -/

/-- A product and whether it saturated. -/
def product (kind : Nat) (a b : W32) : W64 × Bool :=
  match kind with
  | 0 => (BitVec.ofInt 64 (a.toInt * b.toInt), false)
  | 1 => (BitVec.ofNat 64 (a.toNat * b.toNat), false)
  | 2 => (BitVec.ofInt 64 (a.toInt * b.toNat), false)
  | _ => if a = 0x80000000#32 && b = 0x80000000#32 then (0x7FFFFFFFFFFFFFFF#64, true)
         else (BitVec.ofInt 64 (2 * (a.toInt * b.toInt)), false)

/-- MUL: the product is outstanding until MUL_PRODUCT_LAND (R316). -/
def mulOp (m : Byte) : COp := legal (m.toNat < 4) (popOp 2 (fun c =>
  { c with bank := { c.bank with muls := c.bank.muls ++ [product m.toNat (c.at 1) (c.at 0)] } }))

/-- DIV and REM. -/
def divOp (rem : Bool) (m : Byte) : COp := legal (m.toNat < 2) (binary (fun c a b =>
  if b = 0 then
    if bit c.trapen 0 then .error 5
    else .ok (if rem then a else 0xFFFFFFFF#32, c.stick 0x20#32)
  else if m = 0 then
    if a = 0x80000000#32 && b = 0xFFFFFFFF#32 then
      if rem then .ok (0, c)
      else if bit c.trapen 1 then .error 6
      else .ok (0x80000000#32, c.stick 0x40#32)
    else .ok (if rem then a.srem b else a.sdiv b, c)
  else .ok (if rem then a % b else a / b, c)))

/-! ## Fixed point and ACC (R315, R332, R333) -/

/-- rnd(x, k, m) of R332. -/
def rnd (x : Int) (k m : Nat) : Int :=
  if k = 0 then x
  else
    let f := x.fdiv (2 ^ k)
    let r := x - f * 2 ^ k
    if m = 0 || r < 2 ^ (k - 1) then f
    else if 2 ^ (k - 1) < r then f + 1
    else if m = 1 then f + 1
    else f + f.fmod 2

/-- sat(x, n) of R332, and whether it clamped. -/
def sat (x : Int) (n : Nat) : Int × Bool :=
  if 2 ^ (n - 1) ≤ x then (2 ^ (n - 1) - 1, true)
  else if x < -2 ^ (n - 1) then (-2 ^ (n - 1), true)
  else (x, false)

/-- Set FLAGS.S when a clamp happened. -/
def Core.setS (c : Core) (b : Bool) : Core := if b then c.flag bS true else c

/-- Result and flags of FADDS, FSUBS and FMULR. -/
def Core.frac (c : Core) (x : Int) : Except Nat (W32 × Core) :=
  let r := sat x 32
  let w : W32 := BitVec.ofInt 32 r.1
  .ok (w, ((c.nz w).flag bV r.2).setS r.2)

/-- FADDS. -/
def faddsOp (m : Byte) : COp := legal (m = 0) (binary (fun c a b => c.frac (a.toInt + b.toInt)))
/-- FSUBS. -/
def fsubsOp (m : Byte) : COp := legal (m = 0) (binary (fun c a b => c.frac (a.toInt - b.toInt)))
/-- FMULR. -/
def fmulrOp (m : Byte) : COp := legal (m.toNat < 3)
  (binary (fun c a b => c.frac (rnd (a.toInt * b.toInt) 31 m.toNat)))

/-- Put a value into ACC, saturating. -/
def Core.accPut (c : Core) (x : Int) : Core :=
  let r := sat x 40
  { c with bank := { c.bank with acc := BitVec.ofInt 40 r.1 } }.setS r.2

/-- ACCLD. -/
def accldOp (m : Byte) : COp := legal (m = 0) (popOp 1 (fun c => c.accPut (c.at 0).toInt))
/-- ACCADD. -/
def accaddOp (m : Byte) : COp := legal (m = 0)
  (popOp 1 (fun c => c.accPut (c.bank.acc.toInt + (c.at 0).toInt)))
/-- MAC. -/
def macOp (m : Byte) : COp := legal (m.toNat < 3) (popOp 2 (fun c =>
  c.accPut (c.bank.acc.toInt + rnd ((c.at 1).toInt * (c.at 0).toInt) 31 m.toNat)))
/-- MSU. -/
def msuOp (m : Byte) : COp := legal (m.toNat < 3) (popOp 2 (fun c =>
  c.accPut (c.bank.acc.toInt - rnd ((c.at 1).toInt * (c.at 0).toInt) 31 m.toNat)))
/-- ACCST. -/
def accstOp (m : Byte) : COp := legal (m.toNat < 2) (need 0 1 (fun c =>
  if m = 1 then
    let r := sat c.bank.acc.toInt 32
    .ok ((c.setS r.2).stk (BitVec.ofInt 32 r.1 :: c.bank.stack))
  else .ok (c.stk (c.bank.acc.setWidth 32 :: c.bank.stack))))
/-- ACCSHR. -/
def accshrOp (m : Byte) : COp := legal (!bit m 7 && bits m 6 5 < 3) (fun c =>
  .ok { c with bank := { c.bank with
    acc := BitVec.ofInt 40 (rnd c.bank.acc.toInt (bits m 4 0) (bits m 6 5)) } })
/-- ACCCLR. -/
def accclrOp (m : Byte) : COp := legal (m = 0) (fun c => .ok { c with bank := { c.bank with acc := 0 } })
/-- ACCGET. -/
def accgetOp (m : Byte) : COp := legal (m.toNat < 2) (pushOp (fun c =>
  if m = 0 then c.bank.acc.setWidth 32 else (c.bank.acc.extractLsb' 32 8).signExtend 32))
/-- ACCPUT. -/
def accputOp (m : Byte) : COp := legal (m.toNat < 2) (popOp 1 (fun c =>
  let a := if m = 0 then setBits c.bank.acc 31 0 (c.at 0).toNat
    else setBits c.bank.acc 39 32 ((c.at 0).toNat % 256)
  { c with bank := { c.bank with acc := a } }))

/-! ## Bit operations (R334, R335) -/

/-- Width of CRCP.CFG (R341). -/
def crcWidth (cfg : W32) : Nat := 2 ^ (bits cfg 1 0 + 3)

/-- CRC with the configuration in use (R334). -/
def crcOp (cfg lo hi : W32) (m : Byte) : COp :=
  let w := crcWidth cfg
  let step (s d : Nat) : Nat :=
    crcBytes w (lo.toNat + hi.toNat * 2 ^ 32) (bit cfg 7) (s % 2 ^ w) (leBytes (2 ^ m.toNat) d)
  legal (m.toNat < 3) (
    if w = 64 then need 3 2 (fun c =>
      let r := step ((c.at 2).toNat * 2 ^ 32 + (c.at 1).toNat) (c.at 0).toNat
      .ok (c.stk (BitVec.ofNat 32 r :: BitVec.ofNat 32 (r / 2 ^ 32) :: c.bank.stack.drop 3)))
    else need 2 1 (fun c =>
      .ok (c.stk (BitVec.ofNat 32 (step (c.at 1).toNat (c.at 0).toNat) :: c.bank.stack.drop 2))))

/-- Result of a bit operation: Z alone. -/
def Core.bitop (c : Core) (r : W32) : Except Nat (W32 × Core) := .ok (r, c.flag bZ (r = 0))

/-- PAR. -/
def parOp (m : Byte) : COp := legal (m.toNat < 3) (unary (fun c a =>
  c.bitop (BitVec.ofNat 32 (popCount (BitVec.ofNat 32 (a.toNat % 2 ^ (8 * 2 ^ m.toNat))) % 2))))
/-- BREV n. -/
def brevOp (m : Byte) : COp := legal (1 ≤ m.toNat && m.toNat ≤ 32) (unary (fun c a =>
  c.bitop (BitVec.ofNat 32 (reverseBits m.toNat a.toNat))))
/-- POPC. -/
def popcOp (m : Byte) : COp := legal (m = 0) (unary (fun c a => c.bitop (BitVec.ofNat 32 (popCount a))))
/-- CLZ. -/
def clzOp (m : Byte) : COp := legal (m = 0) (unary (fun c a => c.bitop (BitVec.ofNat 32 (leadZeros a))))
/-- BSWAP. -/
def bswapOp (m : Byte) : COp := legal (m = 0) (unary (fun c a =>
  c.bitop (a.extractLsb' 0 8 ++ a.extractLsb' 8 8 ++ a.extractLsb' 16 8 ++ a.extractLsb' 24 8)))

/-! ## Decimal (R336) -/

/-- Flags of the decimal instructions. -/
def Core.decimal (c : Core) (r : W32) : Core := ((c.flag bZ (r = 0)).flag bN false).flag bV false

/-- A word has a digit above 9. -/
def badDigit (x : W32) : Bool := (List.range 8).any (fun i => 9 < elem x 4 i)

/-- The digits of DADD or DSUB from digit i up, with the final carry or borrow. -/
def decDigits (sub : Bool) (a b : W32) : Nat → Nat → Nat → Nat × Nat
  | 0, _, c => (0, c)
  | n + 1, i, c =>
    let d : Int := if sub then (elem a 4 i : Int) - elem b 4 i - c else elem a 4 i + elem b 4 i + c
    let ov : Bool := if sub then d < 0 else 9 < d
    let d' : Int := if ov then (if sub then d + 10 else d - 10) else d
    let r := decDigits sub a b n (i + 1) (if ov then 1 else 0)
    ((d' % 16).toNat + 16 * r.1, r.2)

/-- DADD and DSUB. -/
def decOp (sub : Bool) (m : Byte) : COp := legal (m.toNat < 2) (binary (fun c a b =>
  let cin := if m = 0 then 0 else if sub then 1 - c.carry else c.carry
  let r := decDigits sub a b 8 0 cin
  let w : W32 := BitVec.ofNat 32 r.1
  let d := (c.decimal w).flag bC (if sub then r.2 = 0 else r.2 = 1)
  .ok (w, if badDigit a || badDigit b then d.stick 0x08#32 else d)))

/-- The correction of DADJ after an addition, as a number of up to 33 bits or more. -/
def adjAdd (nc : Nat) (x : Nat) : Nat :=
  (List.range 8).foldl (fun t i =>
    if nc.testBit i || 9 < t / 2 ^ (4 * i) % 16 then t + 6 * 2 ^ (4 * i) else t) x

/-- The correction of DADJ after a subtraction. -/
def adjSub (nc : Nat) (x : W32) : W32 :=
  (List.range 8).foldl (fun r i => if nc.testBit i then r - BitVec.ofNat 32 (6 * 2 ^ (4 * i)) else r) x

/-- DADJ. -/
def dadjOp (m : Byte) : COp := legal (m.toNat < 2) (unary (fun c x =>
  let nc := bits c.bank.flags 15 8
  if m = 0 then
    let t := adjAdd nc x.toNat
    let r : W32 := BitVec.ofNat 32 t
    .ok (r, (c.decimal r).flag bC (bit c.bank.flags bC || t.testBit 32))
  else
    let r := adjSub nc x
    .ok (r, c.decimal r)))

end Sys2Proof.Machine
end

