-- ==== Sys2Proof/Machine/Engines.lean ====
section
/-!
DEFINITION. The Tehus-S engines: issue, exceptions and the fast bank (13_stitcher_streams.md, R363 to R371), and every
instruction that reaches neither the far window nor the stream table (12_stitcher_isa.md).
-/
namespace Sys2Proof.Machine

/-! ## Banks -/

/-- A bank. -/
def State.bank (s : State) (e : EngineId) (b : Fin 9) : Bank := (s.eng e).banks[b]

/-- Change an engine. -/
def State.modEng (s : State) (e : EngineId) (f : Engine → Engine) : State := s.setEng e (f (s.eng e))

/-- Put a bank into an engine, which keeps its READY banks in the order in which they became so (R364). -/
def Engine.putBank (g : Engine) (b : Fin 9) (k : Bank) : Engine :=
  { g with banks := g.banks.set b k,
           order := if k.st ≠ .ready then g.order.filter (· ≠ b) else if b ∈ g.order then g.order else g.order ++ [b] }

/-- An engine is inside a far load (R364, R373). -/
def Engine.insideFar (g : Engine) : Bool := g.banks.any (fun k => match k.block with | .far _ _ => true | _ => false)

/-- Change a bank. -/
def State.modBank (s : State) (e : EngineId) (b : Fin 9) (f : Bank → Bank) : State :=
  s.modEng e (fun g => g.putBank b (f g.banks[b]))

/-- The frame of a stitcher; a headband has none. -/
def engFrame (e : EngineId) : Option (Fin 4) := if e.val < 64 then some (Fin.ofNat 4 (e.val / 16)) else none

/-- A word of a frame's instruction memory. -/
def Frame.imemAt (f : Frame) (byteAddr : Nat) : W32 := sGet 0 f.imem (byteAddr / 4)

/-- Effective priority of the stream that a bank holds (R463). -/
def State.bankPrio (s : State) (k : Bank) : Nat :=
  match k.stream with
  | some id => (s.stream id).prio
  | none => 0

/-- Whether a bank can issue: READY or RUNNING, or for bank 8 ACTIVE (R364). -/
def Bank.live (k : Bank) : Bool := k.st = .ready || k.st = .running

/-- A context bank of the highest PRIO that can issue (R364). -/
def State.topBank (s : State) (e : EngineId) (b : Fin 9) : Bool :=
  b ≠ 8 && (s.bank e b).live && (List.finRange 9).all (fun c => c = 8 || !(s.bank e c).live ||
    s.bankPrio (s.bank e c) ≤ s.bankPrio (s.bank e b))

/-- Whether the engine issues from this bank (R364): bank 8 while it is ACTIVE; otherwise, of the context banks of the
highest PRIO, the running one, or the one READY longest where none of them runs or the running one has had its 512
FABCLK (log entry 6). -/
def State.issues (s : State) (e : EngineId) (b : Fin 9) : Bool :=
  let g := s.eng e
  !(s.down && decide (e.val < 64)) && !s.asleep && !g.halted && !g.held && (s.bank e b).live &&
    (match engFrame e with | some f => s.frames[f].inService && s.domState (68 + f.val) = 0 | none => true) &&
    (b = 8 || (g.banks[(8 : Fin 9)].st = .free && s.topBank e b &&
      ((s.bank e b).st = .running || g.order.find? (fun c => s.topBank e c) = some b)))

/-- The value of a SYNC-class register in use: between a write and the next SYNC, the old value or any
written one (R331; free). -/
def State.syncVal (s : State) (e : EngineId) (reg : Nat) (old : W32) : W32 × State :=
  let vals := old :: ((s.eng e).syncPend.filter (fun w => w.1.toNat = reg)).map (·.2)
  if vals.length = 1 then (old, s)
  else let d := s.fresh; (vals.getD (d.1.toNat % vals.length) old, d.2)

/-! ## Events (R365) -/

/-- An event arrives at a bank: it sets its EVPEND bit, and ends a WAIT for it or for an event of EVIRQ. -/
def Bank.event (k : Bank) (bitNo : Nat) : Bank :=
  let ev := setBit k.evpend bitNo true
  { k with evpend := ev,
           st := if k.st = .waiting && ev &&& (k.waitMask ||| k.evirq) ≠ 0 then .ready else k.st }

/-- Set an event bit of a bank. -/
def State.bankEvent (s : State) (e : EngineId) (b : Fin 9) (bitNo : Nat) : State :=
  s.modBank e b (fun k => k.event bitNo)

/-- An event for the bank that holds a stream. -/
def State.streamEvent (s : State) (id : W16) (bitNo : Nat) : State :=
  match (s.stream id).bankOf id with
  | some (e, b) => s.bankEvent e b bitNo
  | none => s

/-! ## Exceptions (R366 to R368) -/

/-- ECAUSE. -/
def ecauseOf (vec code info : Nat) : W32 := BitVec.ofNat 32 (vec + code * 2 ^ 8 + info * 2 ^ 16)

/-- Address of a vector, VBASE + 16 × n. -/
def State.vector (s : State) (e : EngineId) (vec : Nat) : BitVec 18 × State :=
  let v := s.syncVal e 0x10 (s.eng e).vbase
  (BitVec.ofNat 18 (v.1.toNat + 16 * vec), v.2)

/-- Enter a vector in a context bank (R366). -/
def State.enterCtx (s : State) (e : EngineId) (b : Fin 9) (vec code info : Nat) (epc : BitVec 18)
    (addr : Option W32) : State :=
  let v := s.vector e vec
  let a := match addr with
    | some x => (x, v.2)
    | none => let d := v.2.fresh; (d.1.setWidth 32, d.2)
  let ec := ecauseOf vec code info
  let s := a.2.modBank e b (fun k => { k with
    epc := epc.setWidth 32, eflags := k.flags, ecause := ec, eaddr := a.1, exc := true, pc := v.1, waitMask := 0 })
  s.emit (unitCode 2 e.val) 0x0203 none (ec.setWidth 64) (epc.setWidth 64)

/-- Enter a vector in bank 8 (R366): it is ACTIVE. -/
def State.enterFast (s : State) (e : EngineId) (vec code info : Nat) : State :=
  let v := s.vector e vec
  let ec := ecauseOf vec code info
  let s := v.2.modBank e 8 (fun k => { k with ecause := ec, exc := true, pc := v.1, st := .ready })
  s.emit (unitCode 2 e.val) 0x0203 none (ec.setWidth 64) 0

/-- A request for bank 8 while it is IDLE (R367 item 1): in a WAIT, or blocked on a far load, it is ACTIVE. -/
def State.fastEntry (s : State) (e : EngineId) : Option State :=
  let g := s.eng e
  if g.halted || g.held || g.banks[(8 : Fin 9)].st ≠ .free then none
  else if g.fastReq then some ((s.setEng e { g with fastReq := false }).enterFast e 10 0x01 0)
  else match g.nesting with
    | (v, b) :: r => some ((s.setEng e { g with nesting := r }).enterFast e 9 v.toNat b.val)
    | [] => none

/-- A synchronous exception of bank 8 halts the engine (R368): its streams end with ENGINE_FAIL, its ring records NESTING
and the halt, and the active headband is notified. -/
def State.haltEngine (s : State) (e : EngineId) (vec : Nat) : State :=
  let ids := (List.finRange 9).filterMap (fun b => (s.bank e b).stream)
  let s := ids.foldl (fun s id => s.endStream id 0x06 0) s
  let s := s.modEng e (fun g => { g with halted := true })
  let s := s.emit (unitCode 2 e.val) 0x0203 none ((ecauseOf 9 vec 8).setWidth 64) ((s.bank e 8).pc.setWidth 64)
  let s := s.emit (unitCode 2 e.val) 0x0204 none ((ecauseOf vec 0 0).setWidth 64) 8
  { s with notices := e :: s.notices }

/-- A synchronous exception (R366, R368): in bank 8 it halts the engine; with EXC set the bank freezes and
bank 8 is asked for; otherwise the vector is entered. -/
def State.raiseS (s : State) (e : EngineId) (b : Fin 9) (vec code : Nat) (epc : BitVec 18)
    (addr : Option W32) : State :=
  if b = 8 then s.haltEngine e vec
  else if (s.bank e b).exc then
    let s := (s.modBank e b (fun k => { k with st := .frozen })).modEng e (fun g =>
      { g with nesting := g.nesting ++ [(BitVec.ofNat 4 vec, b)] })
    (s.fastEntry e).getD s
  else s.enterCtx e b vec code 0 epc addr

/-- What goes before the next instruction of a bank (R367 items 1 to 3). -/
def State.boundary (s : State) (e : EngineId) (b : Fin 9) : Option State :=
  let k := s.bank e b
  match s.fastEntry e with
  | some t => some t
  | none =>
    if k.exc then none
    else match k.fault with
      | some (st, id) =>
        some ((s.modBank e b (fun k => { k with fault := none })).enterCtx e b 8 st.toNat id.toNat k.pc none)
      | none =>
        if k.evpend &&& k.evirq ≠ 0 then
          some (s.enterCtx e b 11 (k.evpend &&& k.evirq).toNat 0 k.pc none)
        else none

/-! ## Running an instruction -/

/-- The engine issues from a bank: it is RUNNING, and the one that ran is READY (R363, R364). -/
def Engine.run (g : Engine) (b : Fin 9) : Engine :=
  let was := (List.finRange 9).filter (fun c => c ≠ b && g.banks[c].st = .running)
  (was.foldl (fun g c => g.putBank c { g.banks[c] with st := .ready }) g).putBank b { g.banks[b] with st := .running }

/-- What an instruction answers: done, with the PC of the next one; an exception, with the address that
ADDRESS reports; or a bank that stays, blocked. -/
inductive SOut where
  | done (s : State) (pc : BitVec 18)
  | fault (s : State) (vec : Nat) (addr : Option W32)
  | stay (s : State)

/-- Run one instruction of a bank: a bank that cannot issue leaves the command without effect (log entry
6), and what R367 puts first is taken in its place. The bank it ran in is RUNNING, the others READY. -/
def State.stitch (s : State) (e : EngineId) (b : Fin 9) (op : State → SOut) : Res State :=
  if !s.issues e b then .next s
  else match s.boundary e b with
    | some t => .next t
    | none =>
      match op (s.modEng e (fun g => g.run b)) with
      | .done t pc => .next (t.modBank e b (fun k => { k with pc := pc }))
      | .fault t vec addr => .next (t.raiseS e b vec 0 (t.bank e b).pc addr)
      | .stay t => .next t

/-- PC of a bank, `n` bytes on (R318). -/
def State.pcAfter (s : State) (e : EngineId) (b : Fin 9) (n : Nat) : BitVec 18 :=
  (s.bank e b).pc + BitVec.ofNat 18 n

/-- Put back what an instruction on the stack, flags and accumulator changed. -/
def State.putCore (s : State) (e : EngineId) (b : Fin 9) (c : Core) : State :=
  (s.modEng e (fun g => { g with sticky := c.sticky })).modBank e b (fun _ => c.bank)

/-- The bank, STICKY and TRAPEN such an instruction sees. -/
def State.coreOf (s : State) (e : EngineId) (b : Fin 9) : Core :=
  ⟨s.bank e b, (s.eng e).sticky, (s.eng e).trapen⟩

/-- Run an instruction of `len` bytes that acts on the stack, flags and accumulator. -/
def State.core (s : State) (e : EngineId) (b : Fin 9) (len : Nat) (op : COp) : SOut :=
  match op (s.coreOf e b) with
  | .ok c => .done (s.putCore e b c) (s.pcAfter e b len)
  | .error v => .fault s v none

/-- A command of such an instruction. -/
def State.runCore (s : State) (e : EngineId) (b : Fin 9) (len : Nat) (op : COp) : Res State :=
  s.stitch e b (fun s => s.core e b len op)

/-! ## Stack, arithmetic and bit operations (R322 to R326, R333 to R336) -/

/-- PUSHI8 (R322). -/
def execPushi8 (e : EngineId) (b : Fin 9) (m : Byte) (s : State) : Res State := s.runCore e b 2 (pushi8Op m)
/-- PUSHI16 (R322). -/
def execPushi16 (e : EngineId) (b : Fin 9) (m : Byte) (w : W16) (s : State) : Res State :=
  s.runCore e b 4 (pushi16Op m w)
/-- PUSHI32 (R322). -/
def execPushi32 (e : EngineId) (b : Fin 9) (m : Byte) (w : W32) (s : State) : Res State :=
  s.runCore e b 6 (pushi32Op m w)
/-- PICK (R322). -/
def execPick (e : EngineId) (b : Fin 9) (m : Byte) (s : State) : Res State := s.runCore e b 2 (pickOp m)
/-- DROP (R322). -/
def execDrop (e : EngineId) (b : Fin 9) (m : Byte) (s : State) : Res State := s.runCore e b 2 (dropOp m)
/-- SWAP (R322). -/
def execSSwap (e : EngineId) (b : Fin 9) (m : Byte) (s : State) : Res State := s.runCore e b 2 (swapOp m)
/-- ROLL (R322). -/
def execRoll (e : EngineId) (b : Fin 9) (m : Byte) (s : State) : Res State := s.runCore e b 2 (rollOp m)
/-- DEPTH (R322). -/
def execDepth (e : EngineId) (b : Fin 9) (m : Byte) (s : State) : Res State := s.runCore e b 2 (depthOp m)
/-- ADD (R323). -/
def execSAdd (e : EngineId) (b : Fin 9) (m : Byte) (s : State) : Res State := s.runCore e b 2 (addOp m)
/-- ADC (R323). -/
def execAdc (e : EngineId) (b : Fin 9) (m : Byte) (s : State) : Res State := s.runCore e b 2 (adcOp m)
/-- SUB (R323). -/
def execSSub (e : EngineId) (b : Fin 9) (m : Byte) (s : State) : Res State := s.runCore e b 2 (subOp m)
/-- SBC (R323). -/
def execSbc (e : EngineId) (b : Fin 9) (m : Byte) (s : State) : Res State := s.runCore e b 2 (sbcOp m)
/-- AND (R323). -/
def execSAnd (e : EngineId) (b : Fin 9) (m : Byte) (s : State) : Res State := s.runCore e b 2 (andOp m)
/-- OR (R323). -/
def execSOr (e : EngineId) (b : Fin 9) (m : Byte) (s : State) : Res State := s.runCore e b 2 (orOp m)
/-- XOR (R323). -/
def execSXor (e : EngineId) (b : Fin 9) (m : Byte) (s : State) : Res State := s.runCore e b 2 (xorOp m)
/-- ANDN (R323). -/
def execSAndn (e : EngineId) (b : Fin 9) (m : Byte) (s : State) : Res State := s.runCore e b 2 (andnOp m)
/-- CMP (R323). -/
def execCmp (e : EngineId) (b : Fin 9) (m : Byte) (s : State) : Res State := s.runCore e b 2 (cmpOp m)
/-- TST (R323). -/
def execSTst (e : EngineId) (b : Fin 9) (m : Byte) (s : State) : Res State := s.runCore e b 2 (tstOp m)
/-- ADDI (R323). -/
def execSAddi (e : EngineId) (b : Fin 9) (m : Byte) (s : State) : Res State := s.runCore e b 2 (addiOp m)
/-- NEG (R323). -/
def execNeg (e : EngineId) (b : Fin 9) (m : Byte) (s : State) : Res State := s.runCore e b 2 (negOp m)
/-- NOT (R323). -/
def execNot (e : EngineId) (b : Fin 9) (m : Byte) (s : State) : Res State := s.runCore e b 2 (notOp m)
/-- SHL (R325). -/
def execShl (e : EngineId) (b : Fin 9) (m : Byte) (s : State) : Res State := s.runCore e b 2 (shiftOp 0 m)
/-- SHR (R325). -/
def execShr (e : EngineId) (b : Fin 9) (m : Byte) (s : State) : Res State := s.runCore e b 2 (shiftOp 1 m)
/-- SAR (R325). -/
def execSar (e : EngineId) (b : Fin 9) (m : Byte) (s : State) : Res State := s.runCore e b 2 (shiftOp 2 m)
/-- ROR (R325). -/
def execSRor (e : EngineId) (b : Fin 9) (m : Byte) (s : State) : Res State := s.runCore e b 2 (shiftOp 3 m)
/-- MUL (R316, R326). -/
def execSMul (e : EngineId) (b : Fin 9) (m : Byte) (s : State) : Res State := s.runCore e b 2 (mulOp m)
/-- DIV (R326). -/
def execSDiv (e : EngineId) (b : Fin 9) (m : Byte) (s : State) : Res State := s.runCore e b 2 (divOp false m)
/-- REM (R326). -/
def execSRem (e : EngineId) (b : Fin 9) (m : Byte) (s : State) : Res State := s.runCore e b 2 (divOp true m)
/-- FADDS (R333). -/
def execFadds (e : EngineId) (b : Fin 9) (m : Byte) (s : State) : Res State := s.runCore e b 2 (faddsOp m)
/-- FSUBS (R333). -/
def execFsubs (e : EngineId) (b : Fin 9) (m : Byte) (s : State) : Res State := s.runCore e b 2 (fsubsOp m)
/-- FMULR (R333). -/
def execFmulr (e : EngineId) (b : Fin 9) (m : Byte) (s : State) : Res State := s.runCore e b 2 (fmulrOp m)
/-- ACCLD (R333). -/
def execAccld (e : EngineId) (b : Fin 9) (m : Byte) (s : State) : Res State := s.runCore e b 2 (accldOp m)
/-- ACCADD (R333). -/
def execAccadd (e : EngineId) (b : Fin 9) (m : Byte) (s : State) : Res State := s.runCore e b 2 (accaddOp m)
/-- MAC (R333). -/
def execMac (e : EngineId) (b : Fin 9) (m : Byte) (s : State) : Res State := s.runCore e b 2 (macOp m)
/-- MSU (R333). -/
def execMsu (e : EngineId) (b : Fin 9) (m : Byte) (s : State) : Res State := s.runCore e b 2 (msuOp m)
/-- ACCST (R333). -/
def execAccst (e : EngineId) (b : Fin 9) (m : Byte) (s : State) : Res State := s.runCore e b 2 (accstOp m)
/-- ACCSHR (R333). -/
def execAccshr (e : EngineId) (b : Fin 9) (m : Byte) (s : State) : Res State := s.runCore e b 2 (accshrOp m)
/-- ACCCLR (R333). -/
def execAccclr (e : EngineId) (b : Fin 9) (m : Byte) (s : State) : Res State := s.runCore e b 2 (accclrOp m)
/-- ACCGET (R333). -/
def execAccget (e : EngineId) (b : Fin 9) (m : Byte) (s : State) : Res State := s.runCore e b 2 (accgetOp m)
/-- ACCPUT (R333). -/
def execAccput (e : EngineId) (b : Fin 9) (m : Byte) (s : State) : Res State := s.runCore e b 2 (accputOp m)
/-- PAR (R335). -/
def execPar (e : EngineId) (b : Fin 9) (m : Byte) (s : State) : Res State := s.runCore e b 2 (parOp m)
/-- BREV (R335). -/
def execSBrev (e : EngineId) (b : Fin 9) (m : Byte) (s : State) : Res State := s.runCore e b 2 (brevOp m)
/-- POPC (R335). -/
def execSPopc (e : EngineId) (b : Fin 9) (m : Byte) (s : State) : Res State := s.runCore e b 2 (popcOp m)
/-- CLZ (R335). -/
def execSClz (e : EngineId) (b : Fin 9) (m : Byte) (s : State) : Res State := s.runCore e b 2 (clzOp m)
/-- BSWAP (R335). -/
def execSBswap (e : EngineId) (b : Fin 9) (m : Byte) (s : State) : Res State := s.runCore e b 2 (bswapOp m)
/-- DADD (R336). -/
def execDadd (e : EngineId) (b : Fin 9) (m : Byte) (s : State) : Res State := s.runCore e b 2 (decOp false m)
/-- DSUB (R336). -/
def execDsub (e : EngineId) (b : Fin 9) (m : Byte) (s : State) : Res State := s.runCore e b 2 (decOp true m)
/-- DADJ (R336). -/
def execDadj (e : EngineId) (b : Fin 9) (m : Byte) (s : State) : Res State := s.runCore e b 2 (dadjOp m)
/-- NOP (R330). -/
def execSNop (e : EngineId) (b : Fin 9) (m : Byte) (s : State) : Res State :=
  s.runCore e b 2 (legal (m = 0) (fun c => .ok c))

/-- CRC with the CRCP in use (R331, R334, R341). -/
def State.crcS (s : State) (e : EngineId) (b : Fin 9) (m : Byte) : SOut :=
  let g := s.eng e
  let cfg := s.syncVal e 0x08 g.crcCfg
  let lo := cfg.2.syncVal e 0x09 g.crcLo
  let hi := lo.2.syncVal e 0x0A g.crcHi
  hi.2.core e b 2 (crcOp cfg.1 lo.1 hi.1 m)

/-- CRC (R334). -/
def execSCrc (e : EngineId) (b : Fin 9) (m : Byte) (s : State) : Res State := s.stitch e b (fun s => s.crcS e b m)

/-- The oldest outstanding product of a bank lands; a saturated one sets S (R316, R326). -/
def Bank.land (k : Bank) : Bank :=
  match k.muls with
  | [] => k
  | (p, sat) :: r => { k with
      muls := r, mph := p.extractLsb' 32 32, mpl := p.setWidth 32,
      flags := if sat then setBit k.flags bS true else k.flags }

/-- MUL_PRODUCT_LAND (R316). -/
def execMulProductLand (e : EngineId) (b : Fin 9) (s : State) : Res State := .next (s.modBank e b Bank.land)

/-! ## Local data RAM (R317, R328) -/

/-- n bytes of the local data RAM. -/
def Engine.ramRead (g : Engine) (a n : Nat) : Nat :=
  leNat ((List.range n).map (fun i => sGet (0 : Byte) g.ram (a + i)))

/-- Write n bytes of the local data RAM. -/
def Engine.ramWrite (g : Engine) (a n v : Nat) : Engine :=
  { g with ram := (List.range n).foldl (fun r i => sSet (0 : Byte) r (a + i) (BitVec.ofNat 8 (v / 2 ^ (8 * i)))) g.ram }

/-- LDL (R328). -/
def State.ldl (s : State) (e : EngineId) (b : Fin 9) (m : Byte) : SOut :=
  s.core e b 2 (pushOp (fun _ => BitVec.ofNat 32 ((s.eng e).ramRead (4 * m.toNat) 4)))

/-- STL (R328). -/
def State.stl (s : State) (e : EngineId) (b : Fin 9) (m : Byte) : SOut :=
  match s.core e b 2 (popOp 1 id) with
  | .done t pc => .done (t.modEng e (fun g => g.ramWrite (4 * m.toNat) 4 ((s.coreOf e b).at 0).toNat)) pc
  | o => o

/-- LDL. -/
def execLdl (e : EngineId) (b : Fin 9) (m : Byte) (s : State) : Res State := s.stitch e b (fun s => s.ldl e b m)
/-- STL. -/
def execStl (e : EngineId) (b : Fin 9) (m : Byte) (s : State) : Res State := s.stitch e b (fun s => s.stl e b m)

/-! ## Control transfer (R317, R327) -/

/-- PC + 2 × offset, modulo 256 KiB (R318, R327). -/
def pcRel (pc : BitVec 18) (off : W32) : BitVec 18 := pc + (off.setWidth 18 <<< 1)

/-- A branch target with a bit of [31:18] or bit 0 set raises ADDRESS (R327). -/
def targetOk (t : W32) : Bool := bits t 31 18 = 0 && !bit t 0

/-- BR (R327). -/
def execBr (e : EngineId) (b : Fin 9) (m : Byte) (s : State) : Res State :=
  s.stitch e b (fun s => .done s (pcRel (s.bank e b).pc (m.signExtend 32)))

/-- BRL (R327). -/
def execBrl (e : EngineId) (b : Fin 9) (m : Byte) (w : W16) (s : State) : Res State :=
  s.stitch e b (fun s => if m ≠ 0 then .fault s 1 none
    else .done s (pcRel (s.bank e b).pc (w.signExtend 32)))

/-- Push a return address (R317): none when it passes RSLIMIT.LOW, or while no return stack is set up
(R340). -/
def State.pushRet (s : State) (e : EngineId) (b : Fin 9) (ret : BitVec 18) : Option State :=
  let k := s.bank e b
  if k.rslimit = 0 || k.rsp.toNat < bits k.rslimit 15 0 + 4 then none
  else some ((s.modBank e b (fun k => { k with rsp := k.rsp - 4 })).modEng e (fun g =>
    g.ramWrite (k.rsp.toNat - 4) 4 ret.toNat))

/-- The rest of a call, its target known: the stack limit, then the addresses (R321). -/
def State.callTo (s : State) (e : EngineId) (b : Fin 9) (ret : BitVec 18) (target : W32) : SOut :=
  match s.pushRet e b ret with
  | none => .fault s 4 none
  | some t =>
    if !targetOk target then .fault s 7 (some target)
    else if 0x8000 ≤ (s.bank e b).rsp.toNat - 4 then .fault s 7 (some ((s.bank e b).rsp - 4))
    else .done t (target.setWidth 18)

/-- CALL (R317, R327). -/
def execCall (e : EngineId) (b : Fin 9) (m : Byte) (w : W16) (s : State) : Res State :=
  s.stitch e b (fun s => if m ≠ 0 then .fault s 1 none
    else s.callTo e b (s.pcAfter e b 4) ((pcRel (s.bank e b).pc (w.signExtend 32)).setWidth 32))

/-- CALLI (R317, R327). -/
def execCalli (e : EngineId) (b : Fin 9) (m : Byte) (s : State) : Res State :=
  s.stitch e b (fun s =>
    let t := (s.coreOf e b).at 0
    match s.core e b 2 (legal (m = 0) (popOp 1 id)) with
    | .done u _ => match u.callTo e b (s.pcAfter e b 2) t with
      | .fault _ v a => .fault s v a
      | o => o
    | o => o)

/-- JMPI (R327). -/
def execJmpi (e : EngineId) (b : Fin 9) (m : Byte) (s : State) : Res State :=
  s.stitch e b (fun s =>
    let t := (s.coreOf e b).at 0
    match s.core e b 2 (legal (m = 0) (popOp 1 id)) with
    | .done u _ => if targetOk t then .done u (t.setWidth 18) else .fault s 7 (some t)
    | o => o)

/-- RET (R317, R327). -/
def execRet (e : EngineId) (b : Fin 9) (m : Byte) (s : State) : Res State :=
  s.stitch e b (fun s =>
    let k := s.bank e b
    if m ≠ 0 then .fault s 1 none
    else if bits k.rslimit 31 16 ≤ k.rsp.toNat then .fault s 4 none
    else
      let t : W32 := BitVec.ofNat 32 ((s.eng e).ramRead k.rsp.toNat 4)
      if targetOk t then .done (s.modBank e b (fun k => { k with rsp := k.rsp + 4 })) (t.setWidth 18)
      else .fault s 7 (some t))

/-- Branch conditions (R327). -/
def sCond (fl : W32) (c : Nat) : Bool :=
  let n := bit fl bN
  let z := bit fl bZ
  let cy := bit fl bC
  let v := bit fl bV
  let base := match c / 2 with
    | 0 => z | 1 => cy | 2 => n | 3 => v | 4 => cy && !z | 5 => n == v | 6 => !z && (n == v) | _ => bit fl bS
  if c % 2 = 0 then base else !base

/-- Bcc (R327). -/
def execBcc (e : EngineId) (b : Fin 9) (c : BitVec 4) (m : Byte) (s : State) : Res State :=
  s.stitch e b (fun s =>
    if sCond (s.bank e b).flags c.toNat then .done s (pcRel (s.bank e b).pc (m.signExtend 32))
    else .done s (s.pcAfter e b 2))

/-- RETI (R366): bank 8 becomes IDLE, its first RETI lets streams in, and a request that waited for it is taken
(R367). -/
def execReti (e : EngineId) (b : Fin 9) (m : Byte) (s : State) : Res State :=
  s.stitch e b (fun s =>
    let k := s.bank e b
    if m ≠ 0 || !k.exc then .fault s 1 none
    else
      let pc : BitVec 18 := k.epc.setWidth 18
      let t := s.modBank e b (fun k => { k with flags := k.eflags, exc := false, pc := pc })
      if b = 8 then
        let t := (t.modBank e b (fun k => { k with st := .free })).modEng e (fun g => { g with open_ := true })
        .stay ((t.fastEntry e).getD t)
      else .done t pc)

/-! ## Special registers (R331, R337 to R344; 13_stitcher_streams.md, 0x10 to 0x1A) -/

/-- ENGID (R344). -/
def engIdOf (e : EngineId) : W32 :=
  if e.val < 64 then BitVec.ofNat 32 (e.val / 16 * 16 + e.val % 16) else BitVec.ofNat 32 (2 ^ 31 + (e.val - 64))

/-- BANKST. -/
def bankstOf (b : Fin 9) (k : Bank) : W32 :=
  BitVec.ofNat 32 (b.val + (if k.exc then 2 ^ 14 else 0) + (if b = 8 then 2 ^ 15 else 0) +
    ((k.stream.getD 0).toNat) * 2 ^ 16)

/-- Read a special register; none for an unimplemented number (R331). A read of MPH or MPL while a product
is outstanding sets EARLY (R316); TIMER has counted down by a value left open (log entry 7). -/
def State.readSr (s : State) (e : EngineId) (b : Fin 9) (n : Nat) : Option (W32 × State) :=
  let g := s.eng e
  let k := s.bank e b
  let early := if k.muls.isEmpty then s
    else s.modBank e b (fun k => { k with flags := setBit k.flags bEarly true })
  match n with
  | 0x00 => some (k.flags, s)
  | 0x01 => some (g.sticky, s)
  | 0x02 => some (k.mph, early)
  | 0x03 => some (k.mpl, early)
  | 0x04 => some (k.rsp, s)
  | 0x05 => some (k.rslimit, s)
  | 0x06 => some (g.trapen, s)
  | 0x07 => some (engIdOf e, s)
  | 0x08 => some (s.syncVal e n g.crcCfg)
  | 0x09 => some (s.syncVal e n g.crcLo)
  | 0x0A => some (s.syncVal e n g.crcHi)
  | 0x0B => some (s.syncVal e n g.decen)
  | 0x0C => some (g.dwin, s)
  | 0x10 => some (s.syncVal e n g.vbase)
  | 0x11 => some (k.epc, s)
  | 0x12 => some (k.eflags, s)
  | 0x13 => some (k.ecause, s)
  | 0x14 => some (k.eaddr, s)
  | 0x15 => some (bankstOf b k, s)
  | 0x16 => some (k.evpend.setWidth 32, s)
  | 0x17 => some (k.evirq.setWidth 32, s)
  | 0x18 =>
    if k.timer = 0 then some (0, s)
    else
      let d := s.fresh
      let v : W32 := BitVec.ofNat 32 (1 + d.1.toNat % k.timer.toNat)
      some (v, d.2.modBank e b (fun k => { k with timer := v }))
  | 0x19 => some (s.syncVal e n g.detctl)
  | 0x1A => some (s.syncVal e n g.stwin)
  | _ => none

/-- RSLIMIT takes this value (R340). -/
def rslimitOk (v : W32) : Bool :=
  bits v 17 16 = 0 && bits v 1 0 = 0 && bits v 31 16 ≤ 0x8000 && bits v 15 0 ≤ bits v 31 16

/-- A SYNC-class write (R331): it waits for SYNC. -/
def Engine.pend (g : Engine) (n : Nat) (v : W32) : Engine :=
  { g with syncPend := g.syncPend ++ [(BitVec.ofNat 8 n, v)] }

/-- Write a special register; none where R331 raises ILLEGAL. -/
def State.writeSr (s : State) (e : EngineId) (b : Fin 9) (n : Nat) (v : W32) : Option State :=
  let bank (f : Bank → Bank) := some (s.modBank e b f)
  let eng (f : Engine → Engine) := some (s.modEng e f)
  match n with
  | 0x00 => bank (fun k => { k with flags := v &&& 0xFF3F#32 })
  | 0x01 => eng (fun g => { g with sticky := v &&& 0x6F#32 })
  | 0x04 => bank (fun k => { k with rsp := v &&& 0xFFFC#32 })
  | 0x05 => if rslimitOk v then bank (fun k => { k with rslimit := v }) else none
  | 0x06 => eng (fun g => { g with trapen := v &&& 3#32 })
  | 0x08 => eng (fun g => g.pend n (v &&& 0x83#32))
  | 0x09 | 0x0A => eng (fun g => g.pend n v)
  | 0x0B => eng (fun g => g.pend n (v &&& 0xFFFF#32))
  | 0x0C => eng (fun g => { g with dwin := v &&& 0x80007FFF#32, dcache := [] })
  | 0x10 => eng (fun g => g.pend n (v &&& 0x3FF00#32))
  | 0x11 => bank (fun k => { k with epc := v &&& 0x3FFFE#32 })
  | 0x12 => bank (fun k => { k with eflags := v &&& 0xFF3F#32 })
  | 0x13 => bank (fun k => { k with ecause := v &&& 0xFFFFFF0F#32 })
  | 0x14 => bank (fun k => { k with eaddr := v })
  | 0x16 => bank (fun k => { k with evpend := k.evpend &&& ~~~ v.setWidth 6 })
  | 0x17 => bank (fun k => { k with evirq := v.setWidth 6 })
  | 0x18 => bank (fun k => { k with timer := v })
  | 0x19 => eng (fun g => g.pend n (v &&& 1#32))
  | 0x1A => eng (fun g => g.pend n (v &&& 0x3F#32))
  | _ => none

/-- RDSR: ILLEGAL before the stack check (R321). -/
def State.rdsr (s : State) (e : EngineId) (b : Fin 9) (m : Byte) : SOut :=
  match s.readSr e b m.toNat with
  | none => .fault s 1 none
  | some r => match s.core e b 2 (pushOp (fun _ => r.1)) with
    | .fault _ v a => .fault s v a
    | _ => r.2.core e b 2 (pushOp (fun _ => r.1))

/-- RDSR. -/
def execRdsr (e : EngineId) (b : Fin 9) (m : Byte) (s : State) : Res State := s.stitch e b (fun s => s.rdsr e b m)

/-- The special registers that WRSR can write. -/
def srWritable (n : Nat) : Bool :=
  n ≤ 1 || (4 ≤ n && n ≤ 6) || (8 ≤ n && n ≤ 0xC) || (0x10 ≤ n && n ≤ 0x14) || (0x16 ≤ n && n ≤ 0x1A)

/-- WRSR: the number first, then the stack, then the value (R331). -/
def execWrsr (e : EngineId) (b : Fin 9) (m : Byte) (s : State) : Res State :=
  s.stitch e b (fun s =>
    if !srWritable m.toNat then .fault s 1 none
    else match s.core e b 2 (popOp 1 id) with
      | .done t pc => match t.writeSr e b m.toNat ((s.coreOf e b).at 0) with
        | some u => .done u pc
        | none => .fault s 1 none
      | o => o)

/-- A waiting SYNC-class write takes effect. -/
def Engine.commit (g : Engine) (w : Byte × W32) : Engine :=
  match w.1.toNat with
  | 0x08 => { g with crcCfg := w.2 }
  | 0x09 => { g with crcLo := w.2 }
  | 0x0A => { g with crcHi := w.2 }
  | 0x0B => { g with decen := w.2 }
  | 0x10 => { g with vbase := w.2 }
  | 0x19 => { g with detctl := w.2 }
  | 0x1A => { g with stwin := w.2 }
  | _ => g

/-- SYNC (R331, R371, R374): SYNC-class writes take effect, deterministic mode with them, which turns the
data cache off; custom opcodes come from the current image. -/
def Engine.sync (g : Engine) : Engine :=
  let g := g.syncPend.foldl Engine.commit { g with syncPend := [], oldImage := false, synced := true }
  { g with det := bit g.detctl 0, dcache := if bit g.detctl 0 then [] else g.dcache }

/-- SYNC. -/
def execSync (e : EngineId) (b : Fin 9) (m : Byte) (s : State) : Res State :=
  s.stitch e b (fun s => if m ≠ 0 then .fault s 1 none
    else .done (s.modEng e Engine.sync) (s.pcAfter e b 2))

/-- WAIT (R365): the mask's bits [7:6] and a mask of 0 are reserved. -/
def execSWait (e : EngineId) (b : Fin 9) (m : Byte) (s : State) : Res State :=
  s.stitch e b (fun s =>
    if m = 0 || 64 ≤ m.toNat then .fault s 1 none
    else if (s.bank e b).evpend &&& m.setWidth 6 ≠ 0 then .done s (s.pcAfter e b 2)
    else .done (s.modBank e b (fun k => { k with st := .waiting, waitMask := m.setWidth 6 })) (s.pcAfter e b 2))

/-- SWI (R366): SOFTWARE with the code, restarting after it. -/
def execSwi (e : EngineId) (b : Fin 9) (m : Byte) (s : State) : Res State :=
  s.stitch e b (fun s => .stay (s.raiseS e b 12 m.toNat (s.pcAfter e b 2) none))

/-- DCINV (R329). -/
def execDcinv (e : EngineId) (b : Fin 9) (m : Byte) (s : State) : Res State :=
  s.stitch e b (fun s => if m ≠ 0 then .fault s 1 none
    else .done (s.modEng e (fun g => { g with dcache := [] })) (s.pcAfter e b 2))

/-- The opcodes that generation 1 assigns (R319, R358). -/
def assignedOpcode (n : Nat) : Bool :=
  (1 ≤ n && n ≤ 8) || (0x10 ≤ n && n ≤ 0x1C) || (0x20 ≤ n && n ≤ 0x23) || (0x28 ≤ n && n ≤ 0x2A) ||
  (0x30 ≤ n && n ≤ 0x3B) || (0x40 ≤ n && n ≤ 0x45) || (0x48 ≤ n && n ≤ 0x4A) || (0x50 ≤ n && n ≤ 0x53) ||
  (0x60 ≤ n && n ≤ 0x66) || (0x70 ≤ n && n ≤ 0x81) || (0x90 ≤ n && n ≤ 0x94) || (0xA0 ≤ n && n ≤ 0xA8) ||
  (0xE0 ≤ n && n ≤ 0xEF)

/-- ILLEGAL (R320): the engine reaches a word whose opcode is unassigned. -/
def execIllegal (e : EngineId) (b : Fin 9) (w : W16) (s : State) : Res State :=
  if assignedOpcode (bits w 15 8) then .refused (.illFormed "ILLEGAL with an assigned opcode")
  else s.stitch e b (fun s => .fault s 1 none)

/-! ## Boundary exceptions and timers (R365 to R367) -/

/-- EVENT (R366, R367): taken at a boundary of the bank the engine issues from. -/
def execEvent (e : EngineId) (b : Fin 9) (s : State) : Res State :=
  let k := s.bank e b
  if s.issues e b && !k.exc && k.evpend &&& k.evirq ≠ 0 then .next ((s.boundary e b).getD s) else .next s

/-- STREAM_FAULT (R366, R367): a pending fault of the bank is taken at its boundary. -/
def execStreamFault (e : EngineId) (b : Fin 9) (s : State) : Res State :=
  let k := s.bank e b
  if s.issues e b && !k.exc && k.fault.isSome then .next ((s.boundary e b).getD s) else .next s

/-- FAST_INTERRUPT (R366, R367): a headband's request; it waits while bank 8 is ACTIVE or the engine is
held. -/
def execFastInterrupt (e : EngineId) (s : State) : Res State :=
  if (s.eng e).halted then .next s
  else
    let t := s.modEng e (fun g => { g with fastReq := true })
    .next ((t.fastEntry e).getD t)

/-- BANK_TIMER_EXPIRY (R365): a TIMER that was counting reaches 0. -/
def execBankTimerExpiry (e : EngineId) (b : Fin 9) (s : State) : Res State :=
  if (s.bank e b).timer = 0 then .next s
  else .next (s.modBank e b (fun k => Bank.event { k with timer := 0 } 2))

end Sys2Proof.Machine
end

