-- ==== Sys2Proof/Machine/Custom.lean ====
section
/-!
DEFINITION. Decode images of custom opcodes, and the conditions that they must meet (12_stitcher_isa.md, R345, R346).
-/
namespace Sys2Proof.Machine

/-- A micro-op that R346 allows at its place: END on the last alone, its reserved bits 0, an opcode from 0x01 to 0x53 or
RDSR, IMMS for PUSHI16 and PUSHI32 alone with their extra words supplied, and at most four stores. -/
def microOk (u : W32) (last : Bool) (imm stores : Nat) : Bool :=
  let op := bits u 15 8
  bit u 31 == last && bits u 28 16 = 0 &&
    ((1 ≤ op && op ≤ 0x53 && assignedOpcode op) || op = 0x80) &&
    bit u 29 == (op = 0x02 || op = 0x03) && (op ≠ 0x02 || 1 ≤ imm) && (op ≠ 0x03 || imm = 2) &&
    ((op ≠ 0x51 && op ≠ 0x53) || stores < 4)

/-- A header whose must-be-0 bits are 0 and whose IMM is not reserved (R345). -/
def headerOk (h : W32) : Bool := bits h 30 26 = 0 && bits h 19 16 = 0 && bits h 1 0 = 0 && bits h 3 2 ≠ 3

/-- Words that a micro-op pops and pushes (R314, R322 to R337); none where its modifier comes from the custom instruction
and decides them, or CRCP does. -/
def microStack (u : W32) : Option (Nat × Nat) :=
  let op := bits u 15 8
  let m := bits u 7 0
  if bit u 30 && ((4 ≤ op && op ≤ 5) || op = 7 || (0x20 ≤ op && op ≤ 0x23)) then none
  else if op ≤ 3 || op = 8 || op = 0x37 || op = 0x3A || op = 0x52 || op = 0x80 then some (0, 1)
  else if op = 4 then some (m + 1, m + 2)
  else if op = 5 then some (m + 1, 0)
  else if op = 6 then some (2, 2)
  else if op = 7 then some (m + 1, m + 1)
  else if op = 0x18 || op = 0x19 || op = 0x28 || op = 0x35 || op = 0x36 || op = 0x51 then some (2, 0)
  else if (0x1A ≤ op && op ≤ 0x1C) || (0x41 ≤ op && op ≤ 0x45) || op = 0x4A || op = 0x50 then some (1, 1)
  else if 0x20 ≤ op && op ≤ 0x23 then some (if 128 ≤ m then 1 else 2, 1)
  else if op = 0x33 || op = 0x34 || op = 0x3B || op = 0x53 then some (1, 0)
  else if op = 0x38 || op = 0x39 then some (0, 0)
  else if op = 0x40 then none
  else some (2, 1)

/-- What a list does to the stack: the words it consumes, the depth it has reached, relative to its start, and its
greatest. -/
abbrev StackTrace := Nat × Int × Int

/-- Trace a list; none where a micro-op's effect is not known before it runs. -/
def traceStack : List W32 → StackTrace → Option StackTrace
  | [], t => some t
  | u :: r, (pop, cur, top) =>
    match microStack u with
    | none => none
    | some (p, q) =>
      let next := cur - p + q
      traceStack r (max pop ((p : Int) - cur).toNat, next, max top next)

/-- The micro-ops of opcode n of an image. -/
def imageOps (img : List (Nat × W32)) (n : Nat) : List W32 :=
  (List.range (bits (sGet (0 : W32) img n) 25 20 + 1)).map (fun k => sGet (0 : W32) img (64 + 64 * n + k))

/-- The micro-ops of a list meet R346, `imm` extra words being there; `stores` counts the stores so far. -/
def listOk (imm : Nat) : List W32 → Nat → Bool
  | [], _ => true
  | u :: r, stores =>
    microOk u r.isEmpty imm stores &&
      listOk imm r (if bits u 15 8 = 0x51 || bits u 15 8 = 0x53 then stores + 1 else stores)

/-- Whether opcode n of an image meets R345 and R346; none where its POP, PEAK and PUSH cannot be traced. -/
def opcodeOk (img : List (Nat × W32)) (n : Nat) : Option Bool :=
  let h := sGet (0 : W32) img n
  let ops := imageOps img n
  if !bit h 31 then some true
  else if !headerOk h || !listOk (bits h 3 2) ops 0 then some false
  else (traceStack ops (0, 0, 0)).map (fun t =>
    decide (bits h 15 12 = t.1) && decide ((bits h 11 8 : Int) = t.1 + t.2.2) && decide ((bits h 7 4 : Int) = t.1 + t.2.1))

/-- Whether a headband loads an image (R346); none where some opcode cannot be judged. -/
def imageOk (img : List (Nat × W32)) : Option Bool :=
  let vs := (List.range 16).map (opcodeOk img)
  if vs.contains (some false) then some false
  else if vs.contains none then none
  else some true

end Sys2Proof.Machine
end

