-- ==== Sys2Proof/Machine/Movers.lean ====
section
/-!
DEFINITION. Mover descriptors and mover operations (R352, R357 to R359), translation stalls (R307, R308), and the
reductions that streams share (R362, R437 to R439). The operations of one stream are performed in stream
order.
-/
namespace Sys2Proof.Machine

/-! ## Descriptors (R352) -/

/-- MODE. -/
def mdMode (d : BitVec 512) : Nat := bits d 159 156
/-- L0. -/
def mdL0 (d : BitVec 512) : Nat := bits d 151 128
/-- N1 to N4, for k = 0 to 3. -/
def mdN (d : BitVec 512) (k : Nat) : Nat := bits d (175 + 16 * k) (160 + 16 * k)
/-- FMT. -/
def mdFmt (d : BitVec 512) : Nat := bits d 227 224
/-- OP. -/
def mdOp (d : BitVec 512) : Nat := bits d 229 228
/-- S1 to S4, for k = 0 to 3. -/
def mdS (d : BitVec 512) (k : Nat) : W64 := (d.extractLsb' (256 + 32 * k) 32).signExtend 64
/-- D1 to D4, for k = 0 to 3. -/
def mdD (d : BitVec 512) (k : Nat) : W64 := (d.extractLsb' (384 + 32 * k) 32).signExtend 64

/-- Length in bytes. -/
def mdLen (d : BitVec 512) : Nat := mdL0 d * mdN d 0 * mdN d 1 * mdN d 2 * mdN d 3

/-- Indices i1 to i4 of the run at a stream-order position, i1 first. -/
def mdIdx (d : BitVec 512) (pos : Nat) : List Nat :=
  let r := pos / mdL0 d
  [r % mdN d 0, r / mdN d 0 % mdN d 1, r / (mdN d 0 * mdN d 1) % mdN d 2, r / (mdN d 0 * mdN d 1 * mdN d 2)]

/-- Address of a position: base plus strided indices, plus the offset in the run. -/
def mdAddr (d : BitVec 512) (base : W64) (stride : Nat → W64) (pos : Nat) : W64 :=
  let ix := mdIdx d pos
  (List.range 4).foldl (fun a k => a + BitVec.ofNat 64 (ix.getD k 0) * stride k) base +
    BitVec.ofNat 64 (pos % mdL0 d)

/-- Width of an element in bytes: a REDUCE works element by element, everything else byte by byte. -/
def fmtBytes (fmt : Nat) : Nat := match fmt with | 0 | 8 => 8 | 3 => 2 | _ => 4

/-- Width of the elements of a descriptor. -/
def mdWidth (d : BitVec 512) : Nat := if mdMode d = 4 then fmtBytes (mdFmt d) else 1

/-- One combination of a REDUCE (R352): RNE, FAST, canonical NaN; integers are signed, and a wrapping SUM sets
IOV. -/
def combineVal (op fmt a b : Nat) : Nat × Flags :=
  let float (f : Fmt) : Nat × Flags :=
    match op with
    | 0 => addVals f ⟨.rne, false, 0, false⟩ (f.read false a) (f.read false b)
    | _ => minMaxVals f (op = 1) (f.read false a) (f.read false b)
  let int (w : Nat) : Nat × Flags :=
    let x := (BitVec.ofNat w a).toInt
    let y := (BitVec.ofNat w b).toInt
    match op with
    | 0 => let z := BitVec.ofInt w (x + y); (z.toNat, if z.toInt = x + y then 0 else 0x40#8)
    | 1 => (if x < y then b else a, 0)
    | _ => (if y < x then b else a, 0)
  match fmt with
  | 0 => float fp64 | 1 => float fp32 | 3 => float bf16 | 8 => int 64 | _ => int 32

/-- Set sticky flags of an engine (R338). -/
def State.stickyFlags (s : State) (e : EngineId) (fl : Flags) : State :=
  if fl = 0 then s
  else s.modEng e (fun g => { g with sticky := g.sticky ||| (fl.setWidth 32 &&& 0x4F#32) })

/-! ## Progress (R359) -/

/-- PROG. -/
def Stream.prog (x : Stream) : Nat := x.u 0x18 8

/-- How the write of a record ends: written or under way; no link tag is free; or failed, at an address. -/
inductive RecEnd where
  | fin (s : State)
  | wait (s : State)
  | bad (s : State) (pa : Nat)

/-- Write bytes of a stream's completion area (R359, R360): here, or at another node through a link request (R416). -/
def State.recordTo (s : State) (id : W16) (x : Stream) (va : W64) (bs : List Byte) : RecEnd :=
  let t := s.xlateStreamBytes x.owner (!x.pl1) .store va bs.length
  match t.1 with
  | .ok (pa :: _) =>
    if t.2.remotePa pa then
      let e := t.2.ctxEntry x.owner
      let w := writeSlots (pa % 16) bs
      match e.2.request (.record id) (pkeyOf e.1) w.1 false (pa / 16 * 16) w.2 with
      | some u => .fin u.2
      | none => .wait e.2
    else if regionOf (localOf pa) = .window then .bad t.2 (localOf pa)
    else .fin ((t.2.dmaWrite (localOf pa) bs).hostWrite x.owner (localOf pa) bs)
  | _ => .bad t.2 0

/-- Write progress records in order until one waits for a link tag (R359); one that cannot be written is abandoned. -/
def State.progRecords (s : State) (id : W16) : List Nat → State
  | [] => s.setStream id { s.stream id with recDue := [] }
  | p :: r =>
    match s.recordTo id (s.stream id) ((s.stream id).caddr + 0x10) (leBytes 8 p) with
    | .fin t | .bad t _ => t.progRecords id r
    | .wait t => t.setStream id { t.stream id with recDue := p :: r }

/-- PROG advances by n bytes, and a progress record is written where it passes a multiple of 2^(PN + 9) (R359). -/
def State.advance (s : State) (id : W16) (n : Nat) : State :=
  let x := s.stream id
  let p := x.prog
  let s := s.setStream id (x.put 0x18 8 (p + n))
  let m := 2 ^ (x.u 6 1 / 16 + 9)
  let due := x.recDue ++
    (if x.u 6 1 / 16 = 0 || x.caddr = 0 || (p + n) / m = p / m then [] else [(p + n) / m * m])
  if due.isEmpty then s else s.progRecords id due

/-! ## Translation faults of streams (R307, R308) -/

/-- PENDING of GLB_XFQ_PTR. -/
def State.xfqPending (s : State) : State := s.setFld 0x230 63 48 s.xfqHeld.length

/-- Slots of the translation fault queue. -/
def State.xfqSize (s : State) : Nat := 64 * 2 ^ s.fld 0x220 3 0

/-- Whether a record can be written now. -/
def State.xfqRoom (s : State) : Bool :=
  bit (s.reg 0x228) 31 && (s.fld 0x230 31 16 + 1) % s.xfqSize ≠ s.fld 0x230 15 0

/-- Write a record at TAIL and raise the interrupt (R308). -/
def State.xfqWrite (s : State) (r : FaultRec) : State :=
  let tail := s.fld 0x230 31 16
  let s := s.dmaWrite (s.fld 0x220 45 12 * 4096 + 32 * tail)
    (leBytes 2 r.stream.toNat ++ leBytes 2 r.ctx.toNat ++ leBytes 4 r.detail.toNat ++ leBytes 8 r.va.toNat ++
      leBytes 8 r.gtime.toNat ++ leBytes 8 r.kind.toNat)
  (s.setFld 0x230 31 16 ((tail + 1) % s.xfqSize)).raiseIrqN (s.fld 0x228 13 8) (s.fld 0x228 7 0)

/-- Write the oldest held record where there is room. -/
def State.xfqStep (s : State) : State :=
  match s.xfqHeld with
  | [] => s
  | r :: rest => if s.xfqRoom then { s with xfqHeld := rest }.xfqPending.xfqWrite r else s

/-- Whether two records of operations are of one operation: its stream, bytes, mover and kind. -/
def MoverOp.same (o p : MoverOp) : Bool :=
  p.stream = o.stream && p.start = o.start && p.pos + p.len = o.pos + o.len && p.mover = o.mover && p.land = o.land

/-- Replace or remove an operation of a frame. -/
def State.putOp (s : State) (o : MoverOp) (new : Option MoverOp) : State :=
  let f := frameOf o.stream
  let fr := s.frames[f]
  s.setFrame f { fr with ops := fr.ops.flatMap (fun p => if o.same p then new.toList else [p]) }

/-- A stream stalls on a translation fault of one of its operations (R307): the operation waits from the
faulting position, and the record is written, or held while it cannot be. -/
def State.xlateStall (s : State) (o : MoverOp) (va : W64) (f : XFault) (acc : Nat) : State :=
  let fr := frameOf o.stream
  let x := s.stream o.stream
  let s := s.putOp o (some { o with stalled := true })
  let s := s.setStream o.stream (x.setState 3)
  let s := (s.emit (unitCode 3 fr.val) 0x0303 (some x.owner) (o.stream.setWidth 64) va).countEvent
    (unitCode 3 fr.val) 0x0303 1
  let r : FaultRec := ⟨o.stream, x.owner, f.detail, va, s.gtime, BitVec.ofNat 8 acc⟩
  { s with xfqHeld := s.xfqHeld ++ [r] }.xfqPending.xfqStep

/-! ## Accesses of movers (R357, R467 to R469) -/

/-- How an access ends: done; a translation fault with its address and access kind; failed, with its error-log entry if it
has one; or at another node, at a physical address. -/
inductive Mv (α : Type) where
  | ok (a : α) (s : State)
  | xf (s : State) (va : W64) (f : XFault) (acc : Nat)
  | bad (s : State) (pa : Nat) (ref : W32)
  | away (s : State) (pa : Nat)

/-- Read n bytes for a stream: they and whether they are poisoned. Only a PAGE stream carries poison (R469). -/
def State.mvRead (s : State) (x : Stream) (va : W64) (n : Nat) : Mv (List Byte × Bool) :=
  let t := s.xlateStreamBytes x.owner (!x.pl1) .load va n
  match t.1 with
  | .error (a, f) => .xf t.2 a f 2
  | .ok [] => .ok ([], false) t.2
  | .ok (pa :: pas) =>
    let s := t.2
    let a := localOf pa
    if s.remotePa pa then .away s pa
    else if regionOf a = .window then .bad s a 0
    else match s.poisonAmong (pa :: pas) 0 with
      | some (k, ref) =>
        if x.kind = 7 then .ok (leBytes n (s.readN a n), true) (s.dmaRead a n).2
        else
          let l := localOf ((pa :: pas).getD k pa)
          let e := s.logErr (s.unitOf l) 0x08 0 (BitVec.ofNat 64 (l / 64 * 64)) ref (some x.owner)
          .bad e.2 l e.1
      | none => .ok ((pa :: pas).map (fun p => s.byte (localOf p)), false) ((s.dmaRead a n).2.hostRead x.owner a n)

/-- Write bytes for a stream, poisoned or not (R467, R468). -/
def State.mvWrite (s : State) (x : Stream) (va : W64) (bs : List Byte) (poison : Bool) : Mv Unit :=
  let t := s.xlateStreamBytes x.owner (!x.pl1) .store va bs.length
  match t.1 with
  | .error (a, f) => .xf t.2 a f 3
  | .ok [] => .ok () t.2
  | .ok (pa :: pas) =>
    let s := t.2
    let a := localOf pa
    let lost := s.logErr (unitCode 0x0A 0) 0x0B 0 (BitVec.ofNat 64 a) 0 (some x.owner)
    if s.remotePa pa then (if poison then .bad lost.2 a lost.1 else .away s pa)
    else if regionOf a = .window then .bad s a 0
    else if poison && regionOf a = .host then .bad lost.2 a lost.1
    else
      let s := (s.dmaWriteAt (pa :: pas) bs).hostWrite x.owner a bs
      .ok () (if poison then s.setPoison a 0 else s)

/-- The element of the index array for the run of the next byte (R352): 0 where the MODE has none. -/
def State.mvIndex (s : State) (x : Stream) (o : MoverOp) : Mv Nat :=
  if mdMode o.mdesc ≠ 2 && mdMode o.mdesc ≠ 3 then .ok 0 s
  else if o.ibuf.length = 4 then .ok (leNat o.ibuf) s
  else match s.mvRead x (BitVec.ofNat 64 (x.u 0x60 8) + BitVec.ofNat 64 (4 * ((mdIdx o.mdesc o.pos).headD 0))) 4 with
    | .ok r t => .ok (leNat r.1) t
    | .xf t va f acc => .xf t va f acc
    | .bad t pa ref => .bad t pa ref
    | .away t pa => .away t pa

/-- Source address of the next byte (R352): GATHER indexes it. -/
def MoverOp.src (o : MoverOp) (ix : Nat) : W64 :=
  let base := o.mdesc.extractLsb' 0 64
  if mdMode o.mdesc = 2 then base + BitVec.ofNat 64 ix * mdS o.mdesc 0 + BitVec.ofNat 64 (o.pos % mdL0 o.mdesc)
  else mdAddr o.mdesc base (mdS o.mdesc) o.pos

/-- Destination address of the next byte (R352): SCATTER indexes it. -/
def MoverOp.dst (o : MoverOp) (ix : Nat) : W64 :=
  let base := o.mdesc.extractLsb' 64 64
  if mdMode o.mdesc = 3 then base + BitVec.ofNat 64 ix * mdD o.mdesc 0 + BitVec.ofNat 64 (o.pos % mdL0 o.mdesc)
  else mdAddr o.mdesc base (mdD o.mdesc) o.pos

/-- The source bytes of a position: fetched before, a FILL pattern, or read. -/
def State.mvBytes (s : State) (x : Stream) (o : MoverOp) (ix w : Nat) : Mv (List Byte × Bool) :=
  if w ≤ o.buf.length then .ok (o.buf.take w, false) s
  else if mdMode o.mdesc = 1 then
    .ok ((List.range w).map (fun k => BitVec.ofNat 8 (x.u (0x60 + (o.pos % mdL0 o.mdesc + k) % 8) 1)), false) s
  else s.mvRead x (o.src ix) w

/-! ## Collated and collective reductions (R362, R437 to R439) -/

/-- RANK, SIZE, GROUP and STEP of PARAM (R350). -/
def Stream.rank (x : Stream) : Nat := x.u 0x60 4
/-- SIZE. -/
def Stream.size (x : Stream) : Nat := x.u 0x64 4
/-- GROUP. -/
def Stream.group (x : Stream) : Nat := x.u 0x68 4
/-- STEP. -/
def Stream.stepOf (x : Stream) : Nat := x.u 0x6C 2
/-- The descriptor of the entry (R351). -/
def Stream.mdesc (x : Stream) : BitVec 512 := x.raw.extractLsb' 256 512
/-- CTL.COLL (R351). -/
def Stream.coll (x : Stream) : Bool := bit x.raw 50
/-- A member of a collated group: a REDUCE or a REDUCE-mode COLLECTIVE with COLL = 1 (R362). -/
def Stream.collated (x : Stream) : Bool := (x.kind = 3 || (x.kind = 6 && mdMode x.mdesc = 4)) && x.coll

/-- Whether two members agree (R362). -/
def Stream.agrees (x y : Stream) : Bool :=
  x.size = y.size && mdOp x.mdesc = mdOp y.mdesc && mdFmt x.mdesc = mdFmt y.mdesc && mdL0 x.mdesc = mdL0 y.mdesc &&
  (List.range 4).all (fun k => mdN x.mdesc k = mdN y.mdesc k && mdD x.mdesc k = mdD y.mdesc k) &&
  x.mdesc.extractLsb' 64 64 = y.mdesc.extractLsb' 64 64

/-- The members of a stream's collated group on this node: those of its owner with its GROUP that are ACTIVE or STALLED, or
have ended with operations still to be performed (R360). -/
def State.members (s : State) (x : Stream) : List (Nat × Stream) :=
  s.streams.filter (fun e => e.2.collated && e.2.group = x.group && e.2.owner = x.owner &&
    (e.2.state = 2 || e.2.state = 3 || (e.2.state = 4 && !(s.opsOf (BitVec.ofNat 16 e.1)).isEmpty)))

/-- Whether a stream reduces within its frame's node: a REDUCE member, or a COLLECTIVE one that shares a group with one
(R362). -/
def State.localGroup (s : State) (x : Stream) : Bool :=
  x.collated && (x.kind = 3 || (s.members x).any (fun e => e.2.kind = 3))

/-- Contributed bytes at a position, when all w are there. -/
def Stream.contribAt (x : Stream) (pos w : Nat) : Option (List Byte) :=
  (List.range w).mapM (fun i => (x.contrib.find? (fun e => e.1 = pos + i)).map (·.2))

/-- Store contributed bytes. -/
def Stream.contribute (x : Stream) (pos : Nat) (bs : List Byte) : Stream :=
  { x with contrib := (List.range bs.length).foldl (fun c i => sInsert c (pos + i) (bs.getD i 0)) x.contrib }

/-- Drop n bytes of the contribution. -/
def Stream.dropContrib (x : Stream) (pos n : Nat) : Stream :=
  { x with contrib := x.contrib.filter (fun e => !(decide (pos ≤ e.1) && decide (e.1 < pos + n))) }

/-- n bytes from `pos` of a contribution are performed or abandoned: those of them that an operation contributed no longer
wait. -/
def MoverOp.settled (o : MoverOp) (pos n : Nat) : MoverOp :=
  { o with wait := o.wait - (min o.pos (pos + n) - max o.start pos) }

/-- n bytes from `pos` of a stream's contribution are performed (`adv`), so that PROG follows where it stood there, or
abandoned; an operation whose last bytes they are has been performed (R358, R359, R365). -/
def State.settle (s : State) (id : W16) (pos n : Nat) (adv : Bool) : State :=
  let s := if adv && (s.stream id).prog = pos then s.advance id n else s
  let f := frameOf id
  let fr := s.frames[f]
  let mine (o : MoverOp) : Bool := o.stream = id && !o.land
  let ends (o : MoverOp) : Bool := mine o && o.held && (o.settled pos n).wait = 0
  let t := s.setFrame f { fr with ops := (fr.ops.filter (fun o => !ends o)).map (fun o => if mine o then o.settled pos n else o) }
  if fr.ops.any ends then t.streamEvent id 4 else t

/-- The mover that takes the next operation (R358): the one in service with the fewest busy slots, the lowest
number on ties; none when every slot is busy. -/
def Frame.freeMover (f : Frame) : Option (Fin 16) :=
  let busy (m : Fin 16) : Nat := f.ops.countP (fun o => o.mover = m)
  (List.finRange 16).foldl (fun best m =>
    if !bit f.movers m.val || 4 ≤ busy m then best
    else match best with
      | none => some m
      | some k => if busy m < busy k then some m else some k) none

/-- Give mover slots to the chunks that a stream has to land, oldest first, while there are free ones (R357). -/
def State.landMove (s : State) (id : W16) : List (Nat × List Byte) → State
  | [] => s.setStream id { s.stream id with rdy := [] }
  | c :: r =>
    let f := frameOf id
    let x := s.stream id
    match s.frames[f].freeMover with
    | none => s.setStream id { x with rdy := c :: r }
    | some m =>
      let o : MoverOp := { mover := m, stream := id, engine := x.ran.getD 0, bank := ((x.bankOf id).map (·.2)).getD 0,
                           mdesc := x.mdesc, start := c.1, pos := c.1, len := c.2.length, land := true, stalled := false,
                           buf := c.2 }
      (s.setFrame f { s.frames[f] with ops := s.frames[f].ops ++ [o] }).landMove id r

/-- Bytes are to land at the destination of a stream, as far as it reaches. -/
def State.landPut (s : State) (id : W16) (pos : Nat) (bs : List Byte) : State :=
  let x := s.stream id
  let bs := bs.take (mdLen x.mdesc - pos)
  if bs.isEmpty then s else s.landMove id (x.rdy ++ [(pos, bs)])

/-- A slot of a frame is free: what waits for one takes it. -/
def State.landNext (s : State) (f : Fin 4) : State :=
  ((s.streams.filter (fun e => e.1 / 16384 = f.val && !e.2.rdy.isEmpty)).map (·.1)).foldl (fun s n =>
    let id : W16 := BitVec.ofNat 16 n
    s.landMove id (s.stream id).rdy) s

/-- Pairs of tree nodes combine (R120, R362); the flags go to the engine of the lower rank. -/
def collLevel (op fmt : Nat) (engOf : Nat → Option EngineId) :
    List (Nat × Option Nat) → State → List (Nat × Option Nat) × State
  | a :: b :: r, s =>
    let c : Option Nat × State := match a.2, b.2 with
      | some x, some y =>
        let v := combineVal op fmt x y
        (some v.1, match engOf a.1 with | some e => s.stickyFlags e v.2 | none => s)
      | some x, none => (some x, s)
      | none, y => (y, s)
    let t := collLevel op fmt engOf r c.2
    ((a.1, c.1) :: t.1, t.2)
  | l, s => (l, s)

/-- The levels of the tree. -/
def collTree (op fmt : Nat) (engOf : Nat → Option EngineId) :
    Nat → List (Nat × Option Nat) → State → Option Nat × State
  | 0, l, s => ((l.headD (0, none)).2, s)
  | n + 1, l, s => let t := collLevel op fmt engOf l s; collTree op fmt engOf n t.1 t.2

/-- The contributions of every rank at an element, in rank order; none while one is missing. -/
def State.collInputs (s : State) (ids : List Nat) (size pos w : Nat) : Option (List Nat) :=
  (List.range size).mapM (fun r =>
    (ids.find? (fun n => (s.stream (BitVec.ofNat 16 n)).rank = r)).bind (fun n =>
      ((s.stream (BitVec.ofNat 16 n)).contribAt pos w).map leNat))

/-- The group's values of successive elements from a position, as long as every rank has contributed them: the tree of
R120 (R362). -/
def State.collTake (s : State) (ids : List Nat) (x0 : Stream) (pos : Nat) : Nat → List Byte × State
  | 0 => ([], s)
  | n + 1 =>
    let d := x0.mdesc
    let w := mdWidth d
    match s.collInputs ids x0.size pos w with
    | none => ([], s)
    | some xs =>
      let l := (List.range (2 ^ Nat.log2 (2 * x0.size - 1))).map (fun r => (r, xs[r]?))
      let engOf (r : Nat) : Option EngineId :=
        (ids.find? (fun n => (s.stream (BitVec.ofNat 16 n)).rank = r)).bind (fun n => (s.stream (BitVec.ofNat 16 n)).ran)
      let t := collTree (mdOp d) (mdFmt d) engOf (Nat.log2 (2 * x0.size - 1)) l s
      let u := ids.foldl (fun s n =>
        let id : W16 := BitVec.ofNat 16 n
        s.setStream id ((s.stream id).dropContrib pos w)) t.2
      let r := u.collTake ids x0 (pos + w) n
      (leBytes w (t.1.getD 0) ++ r.1, r.2)

/-- Reduce what every rank has contributed: chunks of up to 256 bytes, which rank 0's stream lands on the destination, and
so combines with its prior value last (R362); `fuel` bounds their number. -/
def State.collRun (s : State) (id : W16) : Nat → State
  | 0 => s
  | n + 1 =>
    let ms := s.members (s.stream id)
    let ids := ms.map (·.1)
    match ms.find? (fun e => e.2.rank = 0) with
    | none => s
    | some (n0, x0) =>
      let w := mdWidth x0.mdesc
      match x0.contrib.find? (fun e => (s.collInputs ids x0.size e.1 w).isSome) with
      | none => s
      | some (p, _) =>
        let t := s.collTake ids x0 p (256 / w)
        (t.2.landPut (BitVec.ofNat 16 n0) p t.1).collRun id n

/-- After a contribution (R362): members that disagree, or ranks that do not fit, end the group. -/
def State.collate (s : State) (id : W16) : State :=
  let x := s.stream id
  let ms := s.members x
  if ms.any (fun e => !x.agrees e.2 || x.size ≤ e.2.rank ||
      ms.any (fun f => f.1 ≠ e.1 && f.2.rank = e.2.rank)) then
    ms.foldl (fun s e => let d := s.fresh; d.2.endStream (BitVec.ofNat 16 e.1) 0x07 (d.1.setWidth 32)) s
  else s.collRun id (mdLen x.mdesc)

/-- Base of the group-table entry of a collective stream, none when GROUP lies outside the table (R437). -/
def State.cgEntry (s : State) (x : Stream) : Option Nat :=
  if x.group < 256 * 2 ^ s.fld 0xD80020 3 0 then some (s.fld 0xD80020 45 12 * 4096 + 16 * x.group) else none

/-- NODE and stream of a member (R437). -/
def State.cgMember (s : State) (entry rank : Nat) : Nat × Nat :=
  let a := s.readN (entry + 8) 8 + 8 * rank
  (s.readN a 4 % 2 ^ 18, s.readN (a + 4) 2)

/-- Whether the group is valid for a stream (R437). -/
def State.cgValid (s : State) (id : W16) (x : Stream) : Bool :=
  match s.cgEntry x with
  | none => false
  | some a => s.readN a 4 = x.size && s.readN (a + 4) 2 % 4096 = x.owner.toNat && x.rank < x.size &&
      s.cgMember a x.rank = (s.nodeId, id.toNat)

/-- The CRC-64 of a COLL descriptor (R439). -/
def Stream.cgCrc (x : Stream) : W64 :=
  let d := x.mdesc
  crc64 (([x.size, x.stepOf, mdOp d, mdFmt d, mdL0 d, mdN d 0, mdN d 1, mdN d 2, mdN d 3]).flatMap (leBytes 4))

/-- Send bytes of a chunk to a rank as a COLL packet (R438, R439). -/
def State.sendColl (s : State) (x : Stream) (rank level pos : Nat) (bs : List Byte) : State :=
  match s.cgEntry x with
  | none => s
  | some a =>
    let m := s.cgMember a rank
    let e := s.ctxEntry x.owner
    let desc : BitVec 128 := BitVec.ofNat 128 (x.rank % 2 ^ 18 + level % 32 * 2 ^ 18 + x.cgCrc.toNat * 2 ^ 64)
    let pad := bs ++ List.replicate ((16 - bs.length % 16) % 16) 0
    e.2.send ⟨BitVec.ofNat 18 m.1, BitVec.ofNat 18 e.2.nodeId, pkeyOf e.1, 0x0A, 0, true, false, 0,
      BitVec.ofNat 46 (m.2 * 2 ^ 30 + pos / 256 % 2 ^ 30), desc :: slotsOf 16 pad⟩

/-- Combine two chunks element by element. -/
def combineBytes (op fmt : Nat) : Nat → List Byte → List Byte → List Byte × Flags
  | 0, a, _ => (a, 0)
  | n + 1, a, b =>
    let w := fmtBytes fmt
    if a.length < w then (a, 0)
    else
      let v := combineVal op fmt (leNat (a.take w)) (leNat (b.take w))
      let r := combineBytes op fmt n (a.drop w) (b.drop w)
      (leBytes w v.1 ++ r.1, v.2 ||| r.2)

/-- Ranks a node of the tree receives from, by level, and the level at which it sends to its parent (R438). -/
def treeChildren (rank size : Nat) : List Nat :=
  ((List.range 18).takeWhile (fun k => rank % 2 ^ (k + 1) = 0)).filter (fun k => rank + 2 ^ k < size)

/-- Level at which a rank other than 0 sends its partial (R438). -/
def treeParent (rank : Nat) : Nat := ((List.range 18).find? (fun k => rank % 2 ^ (k + 1) = 2 ^ k)).getD 0

/-- Send a chunk down the tree, from a rank to the ranks it received from. -/
def State.sendDown (s : State) (x : Stream) (pos : Nat) (bs : List Byte) : State :=
  (treeChildren x.rank x.size).foldl (fun s k => s.sendColl x (x.rank + 2 ^ k) k pos bs) s

/-- One chunk of a collective, when what it needs is there (R437, R438): a broadcast starts at rank 0, which lands it and
sends it down; a reduction combines the partials by level, or in the order they arrived without COLL, and goes to the
parent, or at rank 0 onto the destination and, for an all-reduce, down again from there. -/
def State.collChunk (s : State) (id : W16) (pos n : Nat) : Option State :=
  let x := s.stream id
  match x.contribAt pos n with
  | none => none
  | some own =>
    let fin (s : State) : State := s.setStream id ((s.stream id).dropContrib pos n)
    if x.stepOf = 1 then
      if x.rank = 0 then some (((fin s).landPut id pos own).sendDown x pos own) else none
    else
      let want := treeChildren x.rank x.size
      let got := x.parts.filter (fun p => p.2.1 = pos)
      if !want.all (fun k => got.any (fun p => p.1 = k)) then none
      else
        let order : List (List Byte) := if x.coll
          then want.filterMap (fun k => (got.find? (fun p => p.1 = k)).map (fun p => p.2.2))
          else got.map (fun p => p.2.2)
        let c := order.foldl (fun (a : List Byte × Flags) b =>
          let r := combineBytes (mdOp x.mdesc) (mdFmt x.mdesc) n a.1 b
          (r.1, a.2 ||| r.2)) (own, 0)
        let s := match x.ran with | some e => s.stickyFlags e c.2 | none => s
        let s := fin (s.setStream id { s.stream id with parts := x.parts.filter (fun p => p.2.1 ≠ pos) })
        if x.rank = 0 then some (s.landPut id pos c.1)
        else
          let s := s.sendColl x (x.rank - 2 ^ treeParent x.rank) (treeParent x.rank) pos c.1
          some (if x.stepOf = 2 then s else s.settle id pos n true)

/-- Every chunk of a collective that can go on; chunks are 256 bytes, the last shorter. -/
def State.collectAll (s : State) (id : W16) : Nat → Nat → State
  | 0, _ => s
  | n + 1, pos =>
    let len := mdLen (s.stream id).mdesc
    if len ≤ pos then s
    else (((s.collChunk id pos (min 256 (len - pos))).getD s)).collectAll id n (pos + 256)

/-! ## SEND (R350, R358, R417) -/

/-- Send the blocks of a SEND stream whose bytes have been read, in stream order (R359, R417). -/
def State.sendBlocks (s : State) (id : W16) : Nat → State
  | 0 => s
  | k + 1 =>
    let x := s.stream id
    let p := x.prog
    let n := min 256 (mdLen x.mdesc - p)
    if n = 0 then s
    else match x.contribAt p n with
      | none => s
      | some bs =>
        let e := s.ctxEntry x.owner
        let pad := bs ++ List.replicate ((16 - n % 16) % 16) 0
        let s := e.2.setStream id (x.dropContrib p n)
        let s := s.send ⟨BitVec.ofNat 18 (x.u 0x60 4), BitVec.ofNat 18 s.nodeId, pkeyOf e.1, 0x08, 0, true,
          false, 0, BitVec.ofNat 46 (x.u 0x64 2 * 2 ^ 30 + p / 256 % 2 ^ 30), slotsOf 16 pad⟩
        (s.advance id n).sendBlocks id k

/-! ## Performing an operation -/

/-- How far an operation gets: to its end; to a translation fault; to a failed access, with its error-log entry; or to a
request to another node, whose response it waits for. -/
inductive MvEnd where
  | fin (s : State) (o : MoverOp)
  | stall (s : State) (o : MoverOp) (va : W64) (f : XFault) (acc : Nat)
  | bad (s : State) (o : MoverOp) (pa : Nat) (ref : W32)
  | wait (s : State) (o : MoverOp)
  /-- an element is done, and the operation goes on with the next -/
  | more (s : State) (o : MoverOp)

/-- How many successive bytes from a position one request to another node covers: within the run, the
operation, and the aligned 256-byte block of the address. -/
def MoverOp.chunk (o : MoverOp) (pa : Nat) : Nat :=
  min (min (mdL0 o.mdesc - o.pos % mdL0 o.mdesc) o.len) (256 - pa % 256)

/-- Ask another node for n bytes (R416): the operation waits for the RSP, or for a free tag. -/
def State.mvFetch (s : State) (o : MoverOp) (what : Fetch) (pa n : Nat) : MvEnd :=
  let e := s.ctxEntry (s.stream o.stream).owner
  match e.2.request (.mover o.stream) (pkeyOf e.1) 0x01 false (pa / 16 * 16) [] with
  | some (t, s) => .wait s { o with tag := some t, fetch := (what, pa % 16, n) }
  | none => .wait e.2 o

/-- Read the bytes of one request's worth from a position, for a write to another node. -/
def State.mvGather (s : State) (x : Stream) (o : MoverOp) (ix : Nat) : Nat → Mv (List Byte)
  | 0 => .ok [] s
  | n + 1 => match s.mvBytes x o ix 1 with
    | .ok (b, po) t =>
      if po then .bad t 0 0
      else match t.mvGather x { o with pos := o.pos + 1, buf := o.buf.drop 1 } ix n with
        | .ok r u => .ok (b ++ r) u
        | e => e
    | .xf t va f acc => .xf t va f acc
    | .bad t pa ref => .bad t pa ref
    | .away t pa => .away t pa

/-- Write a chunk at another node (R416). -/
def State.mvPut (s : State) (o : MoverOp) (pa : Nat) (bs : List Byte) : MvEnd :=
  let e := s.ctxEntry (s.stream o.stream).owner
  let w := writeSlots (pa % 16) bs
  match e.2.request (.mover o.stream) (pkeyOf e.1) w.1 false (pa / 16 * 16) w.2 with
  | some (t, s) => .wait s { o with tag := some t, wr := bs.length }
  | none => .wait e.2 o

/-- An operation past its next `k` bytes; an index read for its run serves the run alone. -/
def MoverOp.next (o : MoverOp) (k : Nat) : MoverOp :=
  { o with pos := o.pos + k, len := o.len - k, buf := o.buf.drop k, dbuf := o.dbuf.drop k,
           ibuf := if (o.pos + k) / mdL0 o.mdesc = o.pos / mdL0 o.mdesc then o.ibuf else [] }

/-- Count the bytes an element read and wrote (R538); what lands was not read here. -/
def State.mvCount (s : State) (o : MoverOp) (wrote : Nat) : State :=
  let u := unitCode 3 (frameOf o.stream).val
  (s.countEvent u 0x0300 (if o.land then 0 else mdWidth o.mdesc)).countEvent u 0x0301 wrote

/-- n bytes from an operation's position are performed at the destination (`adv`) or abandoned: PROG follows where it stood
there (R359). What lands for a group is performed for each of its members (R358, R362). -/
def State.landed (s : State) (o : MoverOp) (n : Nat) (adv : Bool) : State :=
  let x := s.stream o.stream
  if o.land && s.localGroup x then
    (s.members x).foldl (fun s e => s.settle (BitVec.ofNat 16 e.1) o.pos n adv) s
  else if o.land && x.kind = 6 then s.settle o.stream o.pos n adv
  else if adv && x.prog = o.pos then s.advance o.stream n
  else s

/-- An element is in place. -/
def State.mvDone (s : State) (o : MoverOp) : MvEnd :=
  let w := mdWidth o.mdesc
  .more ((s.mvCount o w).landed o w true) (o.next w)

/-- The destination element that a REDUCE combines with (R352). -/
def State.mvPrior (s : State) (x : Stream) (o : MoverOp) (va : W64) : Mv (List Byte × Bool) :=
  let w := mdWidth o.mdesc
  if w ≤ o.dbuf.length then .ok (o.dbuf.take w, false) s else s.mvRead x va w

/-- The result of an all-reduce, which rank 0 sends down once it is performed (R437). -/
def Stream.keepDown (x : Stream) (pos : Nat) (bs : List Byte) : Stream :=
  { x with down := (List.range bs.length).foldl (fun c i => sInsert c (pos + i) (bs.getD i 0)) x.down }

/-- Combine an element with its destination (R352). -/
def State.mvReduce (s : State) (x : Stream) (o : MoverOp) (va : W64) (b : List Byte) : MvEnd :=
  match s.mvPrior x o va with
  | .xf t va f acc => .stall t o va f acc
  | .bad t pa ref => .bad t o pa ref
  | .away t pa => t.mvFetch (if o.buf.length < mdWidth o.mdesc then { o with buf := b } else o) .dst pa (o.chunk pa)
  | .ok old t =>
    let v := combineVal (mdOp o.mdesc) (mdFmt o.mdesc) (leNat old.1) (leNat b)
    let bs := leBytes (mdWidth o.mdesc) v.1
    let t := if o.land && x.kind = 6 && x.stepOf = 2 then t.setStream o.stream ((t.stream o.stream).keepDown o.pos bs) else t
    match (t.stickyFlags o.engine v.2).mvWrite x va bs false with
    | .xf t va f acc => .stall t o va f acc
    | .bad t pa ref => .bad t o pa ref
    | .away t pa => t.mvPut o pa bs
    | .ok _ t => t.mvDone o

/-- Store an element at its destination. -/
def State.mvStore (s : State) (x : Stream) (o : MoverOp) (ix : Nat) (va : W64) (b : List Byte) (poison : Bool) : MvEnd :=
  match s.mvWrite x va b poison with
  | .xf t va f acc => .stall t o va f acc
  | .bad t pa ref => .bad t o pa ref
  | .away t pa =>
    (match t.mvGather x o ix (o.chunk pa) with
    | .ok bs t => t.mvPut o pa bs
    | .xf t va f acc => .stall t o va f acc
    | .bad t pa ref => .bad t o pa ref
    | .away t pa => t.mvFetch o .src pa (o.chunk pa))
  | .ok _ t => t.mvDone o

/-- Whether an operation's bytes are a contribution, or go to a peer, and are not stored by it (R358, R362, R438). -/
def MoverOp.gives (o : MoverOp) (x : Stream) : Bool := !o.land && (x.kind = 4 || x.collated || x.kind = 6)

/-- Perform the next element of an operation. Bytes that land combine with the destination at rank 0 of a reduction alone;
an operation that a handler issues for a RECEIVE stream moves nothing. -/
def State.mvElem (s : State) (o : MoverOp) : MvEnd :=
  let x := s.stream o.stream
  let w := mdWidth o.mdesc
  if o.len < w || (x.kind = 5 && !o.land) || 5 ≤ mdMode o.mdesc then .fin s o
  else match s.mvIndex x o with
    | .xf t va f acc => .stall t o va f acc
    | .bad t pa ref => .bad t o pa ref
    | .away t pa => t.mvFetch o .idx pa 4
    | .ok ix t => match t.mvBytes x o ix w with
      | .xf t va f acc => .stall t o va f acc
      | .bad t pa ref => .bad t o pa ref
      | .away t pa => t.mvFetch o .src pa (o.chunk pa)
      | .ok b t =>
        if o.gives x then
          .more ((t.setStream o.stream ((t.stream o.stream).contribute o.pos b.1)).mvCount o 0)
            { o.next w with wait := if x.kind = 4 then 0 else o.wait + w }
        else if mdMode o.mdesc = 4 && (!o.land || x.rank = 0) then t.mvReduce x o (o.dst ix) b.1
        else t.mvStore x o ix (o.dst ix) b.1 b.2

/-- Perform an operation element by element; `fuel` is at least its length. -/
def State.mvRun (s : State) : Nat → MoverOp → MvEnd
  | 0, o => .fin s o
  | n + 1, o =>
    match s.mvElem o with
    | .more t p => t.mvRun n p
    | .fin t p => .fin t p
    | .stall t p va f acc => .stall t p va f acc
    | .bad t p pa ref => .bad t p pa ref
    | .wait t p => .wait t p

/-- The result of an all-reduce in a chunk goes down the tree (R437). -/
def State.sendResult (s : State) (id : W16) (pos n : Nat) : State :=
  let x := s.stream id
  match (List.range n).mapM (fun i => (x.down.find? (fun e => e.1 = pos + i)).map (·.2)) with
  | none => s
  | some bs =>
    let y := { x with down := x.down.filter (fun e => !(decide (pos ≤ e.1) && decide (e.1 < pos + n))) }
    (s.setStream id y).sendDown x pos bs

/-- What the bytes of an operation allow goes on: blocks of a SEND, a group's elements, a collective's chunks. -/
def State.opFeeds (s : State) (o : MoverOp) : State :=
  let x := s.stream o.stream
  if o.land then
    (if x.kind = 6 && x.rank = 0 && x.stepOf = 2 && !s.localGroup x then
      s.sendResult o.stream o.start (o.pos + o.len - o.start) else s)
  else if x.kind = 4 then s.sendBlocks o.stream (mdLen x.mdesc / 256 + 1)
  else if s.localGroup x then s.collate o.stream
  else if x.kind = 6 then s.collectAll o.stream (mdLen x.mdesc / 256 + 1) 0
  else s

/-- An operation has read all its bytes. A contribution waits until it is performed (R358, R362); any other operation has
been performed: MOVER in its bank, or DATA where it landed bytes of a SEND (R365). -/
def State.opEnded (s : State) (o : MoverOp) : State :=
  let x := s.stream o.stream
  let s :=
    if 0 < o.wait then s.putOp o (some { o with len := 0 })
    else
      let t := s.putOp o none
      if !o.land then t.streamEvent o.stream 4 else if x.kind = 5 then t.streamEvent o.stream 0 else t
  (s.opFeeds o).landNext (frameOf o.stream)

/-- A failed access (R357): the operation is abandoned, and STREAM_FAULT is owed to the stream's bank. What it was to land
is abandoned for the whole group (log entry 179). -/
def State.opFailed (s : State) (o : MoverOp) (pa : Nat) (status : Byte) (ref : W32) : State :=
  let x := s.stream o.stream
  let s := s.emit (unitCode 3 (frameOf o.stream).val) 0x0302 (some x.owner) (o.stream.setWidth 64)
    (BitVec.ofNat 64 pa)
  let s := match x.bankOf o.stream with
    | some (e, b) => s.modBank e b (fun k => { k with fault := some (status, o.stream) })
    | none => s
  let s := s.setStream o.stream { x with err := x.err.orElse (fun _ => some (status, ref)) }
  let s := (s.putOp o none).landNext (frameOf o.stream)
  if o.land then s.landed o o.len false else s.streamEvent o.stream 4

/-- Perform an operation as far as it goes. One of a stream that has ended is abandoned where it would
stall. -/
def State.performOp (s : State) (o : MoverOp) : State :=
  match s.mvRun (o.len + 1) o with
  | .fin t p => t.opEnded p
  | .stall t p va f acc =>
    if (t.stream o.stream).state = 4 then t.opFailed p 0 0x03 0 else (t.putOp o (some p)).xlateStall p va f acc
  | .bad t p pa ref => t.opFailed p pa 0x03 ref
  | .wait t p | .more t p => t.putOp o (some p)

/-- The oldest operation of a stream that has bytes to move. -/
def State.firstOp (s : State) (id : W16) : Option MoverOp := (s.opsOf id).find? (fun o => !o.held)

/-- Perform a stream's operations in order, until one waits or stalls; `fuel` bounds their number. -/
def State.performAll (s : State) (id : W16) : Nat → State
  | 0 => s
  | n + 1 => match s.firstOp id with
    | some o => if o.stalled || o.tag.isSome then s else (s.performOp o).performAll id n
    | none => s

/-- At the issue of an operation, or a retry: where the stream's operations run into a translation fault,
everything before the faulting element is performed and the stream stalls there (R307); otherwise they stay
to be performed. -/
def State.checkStall (s : State) (id : W16) : State :=
  let t := s.performAll id 64
  if (t.stream id).state = 3 then t else s

end Sys2Proof.Machine
end

