-- ==== Sys2Proof/Machine/Streams.lean ====
section
/-!
DEFINITION. The stream table (13_stitcher_streams.md, R349 to R361), the stream instructions (R358), invalidation of
translations (R304, R305), the translation fault queue's rows (R307, R308) and patches (R372 to R374).
-/
namespace Sys2Proof.Machine

/-! ## Creation (R350 to R354, R395) -/

/-- The PARAM bytes that a KIND uses, as a mask of the 128 bits (R350). -/
def paramMask (kind mode : Nat) : Nat :=
  match kind with
  | 0 => if mode = 1 then 2 ^ 64 - 1 else 0
  | 1 | 2 => 2 ^ 64 - 1
  | 3 => 2 ^ 96 - 1
  | 4 => 2 ^ 18 - 1 + 0xFFFF * 2 ^ 32 + 7 * 2 ^ 48
  | 5 => 2 ^ 18 - 1 + 0xFFFF * 2 ^ 32
  | 6 => 2 ^ 112 - 1
  | _ => 0

/-- The MODEs that a KIND allows (R350). -/
def modeAllowed (kind mode : Nat) : Bool :=
  match kind with
  | 0 => mode ≤ 1
  | 1 => mode = 2
  | 2 => mode = 3
  | 3 => mode = 4
  | 6 => mode = 0 || mode = 4
  | _ => mode = 0

/-- FMT codes of REDUCE (R352). -/
def fmtAllowed (f : Nat) : Bool := f ≤ 1 || f = 3 || f = 8 || f = 0xA

/-- A request block is INVALID (R354). -/
def blockInvalid (x : Stream) : Bool :=
  let d := x.mdesc
  let kind := x.kind
  let mode := mdMode d
  x.u 0 4 ≠ 0 || x.u 5 1 ≠ 0 || x.u 7 1 ≠ 0 || x.u 0x14 4 ≠ 0 || x.u 0x18 8 ≠ 0 || x.u 0x70 16 ≠ 0 ||
  7 < kind || !modeAllowed kind mode ||
  bits d 155 152 ≠ 0 || bits d 255 230 ≠ 0 || mdOp d = 3 ||
  (if mode = 4 then !fmtAllowed (mdFmt d) || mdL0 d % fmtBytes (mdFmt d) ≠ 0 else mdFmt d ≠ 0) ||
  ((kind = 1 || kind = 2) && !(mdN d 1 = 1 && mdN d 2 = 1 && mdN d 3 = 1)) ||
  mdLen d = 0 || x.u 8 8 % 32 ≠ 0 ||
  bits x.raw 159 142 ≠ 0 ||
  (bit x.raw 51 && (x.u 0x10 1 < 64 || 33 < bits x.raw 141 136)) ||
  Nat.land (x.u 0x60 16) (2 ^ 128 - 1 - paramMask kind mode) ≠ 0

/-- A member of a collective group is on another node (R350). -/
def State.anyRemote (s : State) (x : Stream) : Bool :=
  match s.cgEntry x with
  | none => false
  | some a => (List.range (min x.size 262143)).any (fun r => (s.cgMember a r).1 ≠ s.nodeId)

/-- A request block is DENIED (R350, R354). -/
def State.blockDenied (s : State) (x : Stream) (e : Option (BitVec 128)) (pl1 : Bool) : Bool :=
  match e with
  | none => true
  | some en => !bit en 1 || ((x.kind = 4 || x.kind = 5) && !bit en 2) ||
      (x.kind = 6 && !bit en 2 && s.anyRemote x) || (x.kind = 7 && !(pl1 && bit en 4))

/-- The lowest FREE entry of a frame (R354). -/
def State.freeEntry (s : State) (f : Fin 4) : Option Nat :=
  ((List.range (s.streams.length + 1)).find? (fun n =>
    n < 16384 && (s.stream (BitVec.ofNat 16 (16384 * f.val + n))).state = 0)).map (fun n => 16384 * f.val + n)

/-- Units whose counters a STREAM command's start latches: any stitcher of the frame may run it (R539). -/
def State.streamUnits (s : State) (f : Fin 4) : List Nat :=
  (List.range 16).map (fun k => unitCode 2 (16 * f.val + k)) ++ [unitCode 3 f.val] ++ s.snapSet

/-- Kinds that a role profile raises by one (R463). -/
def roleRaises (role kind : Nat) : Bool :=
  match role with
  | 2 => kind = 1 || kind = 5
  | 3 => kind = 4 || kind = 5 || kind = 7
  | 4 => kind = 3 || kind = 6
  | _ => false

/-- Effective priority at creation (R463). -/
def State.effPrio (s : State) (x : Stream) : Nat :=
  min 3 (x.u 6 1 % 4 + (if roleRaises (s.fld 0x300 10 8) x.kind then 1 else 0))

/-- Create a stream from the 128 bytes of a request block (R354): STATUS, and the ID when it is OK. A frame out of
service (R487) or OFF (R509) answers as a full table. -/
def State.createStream (s : State) (f : Fin 4) (raw : BitVec 1024) (owner : CtxId) (pl1 : Bool)
    (origin : Option Origin) : (Nat × Nat) × State :=
  let x : Stream := { raw := raw }
  let e := s.ctxEntry owner
  if blockInvalid x then ((3, 0), e.2)
  else if e.2.blockDenied x e.1 pl1 then ((4, 0), e.2)
  else match (if s.frames[f].inService && s.domState (68 + f.val) ≠ 3 then e.2.freeEntry f else none) with
    | none => ((2, 0), e.2)
    | some id =>
      let s := e.2
      let y := ((((x.put 0 2 id).put 2 2 owner.toNat).put 5 1 (1 + (if pl1 then 128 else 0))).put 7 1 0xFF).put
        0x78 8 s.gtime.toNat
      let latch := match origin with
        | some o => if o.snap = 0xFFFF#16 then ([], s) else s.latchUnits (s.streamUnits f)
        | none => ([], s)
      let s := latch.2
      ((1, id), { s.setStream (BitVec.ofNat 16 id) { y with
        order := s.streamOrder, prio := s.effPrio x, origin := origin, latch := latch.1 } with streamOrder := s.streamOrder + 1 })

/-- The register-window offset of a frame's register (R353). -/
def sfwin (f : Fin 4) (off : Nat) : Nat := 0x400000 + f.val * 0x100000 + off

/-- SF_SCREATE (R353, R354): by a quire, for its own context, or by a headband, for the one it names; other
writers are rejected (R5). A poisoned block ends the creation with no result word. -/
def State.screate (s : State) (f : Fin 4) (src : Source) (q : QuireId) (v : W64) : State :=
  let off := 0x400000 + f.val * 0x100000
  let block := bits v 45 7 * 128
  match src with
  | .quire | .headband =>
    if !inFolioText block 128 then s.reject src off
    else
      let owner : CtxId := if src = .quire then (s.q q).ctx else BitVec.ofNat 12 (bits v 59 48)
      let pl1 := src = .headband || bits ((s.q q).crGet 0) 13 12 ≠ 0
      match s.poisonedIn block 128 with
      | some ref => (s.logErr (unitCode 3 f.val) 0x0B 0 (BitVec.ofNat 64 block) ref (some owner)).2
      | none =>
        let b := s.dmaRead block 128
        let r := b.2.createStream f (BitVec.ofNat 1024 b.1) owner pl1 none
        r.2.dmaWrite (block + 0x78) (leBytes 8 (r.1.2 + r.1.1 * 2 ^ 16))
  | _ => s.reject src off

/-- SF_SCREATE. -/
def execSfScreate (f : Fin 4) (src : Source) (q : QuireId) (v : W64) (s : State) : Res State :=
  s.inOrder src (.write 0 (sfwin f 0) true v) fun s =>
    .next (s.gate src (sfwin f 0) (fun s => s.screate f src q v))

/-! ## SF_SCTL (R356, R361) -/

/-- CANCEL (R361). -/
def State.cancel (s : State) (id : W16) : State :=
  let d := s.fresh
  if (s.stream id).state = 0 || (s.stream id).state = 4 then s
  else d.2.endStream id 0x01 (d.1.setWidth 32)

/-- DOORBELL (R356). -/
def State.doorbell (s : State) (id : W16) : State :=
  let x := s.stream id
  if x.state = 1 then s.setStream id { x with doorbell := true } else s.streamEvent id 3

/-- An action on a stream that must be the context's own (R356). -/
def State.sctl (s : State) (ctx : CtxId) (id : W16) (cancel : Bool) : State :=
  let x := s.stream id
  if x.state = 0 || x.owner ≠ ctx then s
  else if cancel then s.cancel id else s.doorbell id

/-- The context on whose behalf a writer acts (R353, R356): a quire's own, the one a headband names, none
for others. -/
def State.writerCtx (s : State) (src : Source) (q : QuireId) (ctx : CtxId) : Option CtxId :=
  match src with
  | .quire => some (s.q q).ctx
  | .headband => some ctx
  | _ => none

/-- SF_SCTL of a frame: a stream of another frame is not acted on (R356). -/
def State.sctlWrite (s : State) (f : Fin 4) (src : Source) (q : QuireId) (ctx : CtxId) (id : W16)
    (cancel : Bool) : State :=
  match s.writerCtx src q ctx with
  | some c => if frameOf id = f then s.sctl c id cancel else s
  | none => s

/-- CANCEL. -/
def execCancel (f : Fin 4) (src : Source) (q : QuireId) (ctx : CtxId) (id : W16) (s : State) : Res State :=
  s.inOrder src (.write 0 (sfwin f 8) true (BitVec.ofNat 64 (2 ^ 62 + ctx.toNat * 2 ^ 48 + id.toNat))) fun s =>
    .next (s.gate src (sfwin f 8) (fun s => s.sctlWrite f src q ctx id true))
/-- DOORBELL. -/
def execDoorbell (f : Fin 4) (src : Source) (q : QuireId) (ctx : CtxId) (id : W16) (s : State) : Res State :=
  s.inOrder src (.write 0 (sfwin f 8) true (BitVec.ofNat 64 (2 ^ 63 + ctx.toNat * 2 ^ 48 + id.toNat))) fun s =>
    .next (s.gate src (sfwin f 8) (fun s => s.sctlWrite f src q ctx id false))

/-! ## Dispatch (R355, R363, R437) -/

/-- QUEUED streams of a frame. -/
def State.queued (s : State) (f : Fin 4) : List (Nat × Stream) :=
  s.streams.filter (fun e => e.1 / 16384 = f.val && e.2.state = 1)

/-- The stream to dispatch (R355): the highest PRIO, then the owners in rotation from the one last served,
then creation order. -/
def State.nextStream (s : State) (f : Fin 4) : Option (Nat × Stream) :=
  let turn (x : Stream) : Nat := (x.owner.toNat + 4095 - s.lastOwner.toNat) % 4096
  let key (x : Stream) : Nat × Nat × Nat := (3 - x.prio, turn x, x.order)
  let less (a b : Nat × Nat × Nat) : Bool :=
    decide (a.1 < b.1) || (a.1 = b.1 && (decide (a.2.1 < b.2.1) || (a.2.1 = b.2.1 && decide (a.2.2 < b.2.2))))
  (s.queued f).foldl (fun best e => match best with
    | none => some e
    | some b => if less (key e.2) (key b.2) then some e else some b) none

/-- The lowest stitcher of a frame with a free context bank, and its lowest free bank (R355, R366). -/
def State.freeBankOf (s : State) (f : Fin 4) : Option (EngineId × Fin 9) :=
  (List.finRange 16).findSome? (fun k =>
    let e : EngineId := Fin.ofNat 66 (16 * f.val + k.val)
    let g := s.eng e
    if g.halted || !g.open_ then none
    else ((List.finRange 9).find? (fun b => b ≠ 8 && g.banks[b].st = .free)).map (fun b => (e, b)))

/-- Give a stream to a bank (R363): the bank's stack, FLAGS, ACC, EXC, EVPEND, EVIRQ and TIMER start at 0, its
descriptor at the entry's, and its PC at the halfword address of its KIND's word. -/
def State.dispatch (s : State) (id : W16) (e : EngineId) (b : Fin 9) : State :=
  let x := s.stream id
  let f := frameOf id
  let vb := s.syncVal e 0x10 (s.eng e).vbase
  let pc : BitVec 18 := ((s.frames[f].imemAt (vb.1.toNat + 0x100 + 4 * x.kind)).setWidth 18) &&& 0x3FFFE#18
  let s := vb.2.modBank e b (fun k => { k with
    stack := [], flags := 0, acc := 0, exc := false, evpend := 0, evirq := 0, timer := 0, waitMask := 0,
    block := .none, fault := none, mdesc := x.mdesc, issued := 0, pc := pc, st := .ready, stream := some id })
  let s := s.setStream id { (x.setState 2).put 7 1 (e.val % 16 * 16 + b.val) with doorbell := false, ran := some e }
  let s := { s with lastOwner := x.owner }
  let s := s.emit (unitCode 2 e.val) 0x0201 (some x.owner) (BitVec.ofNat 64 (id.toNat + b.val * 2 ^ 16))
    (BitVec.ofNat 64 x.kind)
  if x.doorbell then s.bankEvent e b 3 else s

/-- STREAM_DISPATCH (R355): a collective whose group is not valid, or whose STEP is unknown, ends instead
(R437). -/
def execStreamDispatch (f : Fin 4) (s : State) : Res State :=
  if !s.frames[f].inService || s.down || s.domState (68 + f.val) = 3 then .next s
  else
  let s := if (s.nextStream f).isSome then s.wakeDomain (68 + f.val) else s
  match s.nextStream f, s.freeBankOf f with
  | some (n, x), some (e, b) =>
    let id : W16 := BitVec.ofNat 16 n
    let t := s.dispatch id e b
    let d := t.fresh
    if x.kind = 6 && !s.cgValid id x then .next (d.2.endStream id 0x07 (d.1.setWidth 32))
    else if x.kind = 6 && 2 < x.stepOf then .next (d.2.endStream id 0x05 (d.1.setWidth 32))
    else .next t
  | _, _ => .next s

/-! ## Mover operations (R357) -/

/-- MOVER_OPERATION_COMPLETE (R357): the oldest operation of a stream is performed, or fails at its next access
with an error response or a timeout (R469). One that is stalled, or waits for another node, is left. -/
def execMoverOperationComplete (id : W16) (fail : Option Bool) (s : State) : Res State :=
  match s.firstOp id with
  | none => .next s
  | some o =>
    if o.stalled || o.tag.isSome || s.down then .next s
    else match fail with
      | none => .next (s.performOp o)
      | some timeout =>
        let l := s.logErr (unitCode 0x0A 0) (if timeout then 0x0A else 0x09) 0 0 0 (some (s.stream id).owner)
        .next (l.2.opFailed o 0 0x03 l.1)

/-! ## Completion (R360, R395, R539) -/

/-- The sections of a STREAM command's snapshot: the stitcher that ran it, its frame, and the listed units
(R539). -/
def streamLatch (id : W16) (x : Stream) : List (Nat × W64 × Counters) :=
  let own := match x.ran with
    | some e => [unitCode 2 e.val, unitCode 3 (frameOf id).val]
    | none => []
  let listed := (x.latch.drop 17).map (·.1)
  (((own ++ listed).eraseDups).filterMap (fun u => x.latch.find? (fun l => l.1 = u))).take 48

/-- The completion record of a stream (R360). -/
def State.recordBytes (s : State) (id : W16) (x : Stream) (status : Byte) (detail : W32) : List Byte :=
  leBytes 2 id.toNat ++ [status, BitVec.ofNat 8 x.kind] ++ leBytes 4 detail.toNat ++ leBytes 8 s.gtime.toNat ++ leBytes 8 x.prog

/-- Write the completion record at CADDR (R360); one that faults is abandoned and logged. None while it waits for a link
tag. -/
def State.completionRecord (s : State) (id : W16) (x : Stream) (status : Byte) (detail : W32) : Option State :=
  match s.recordTo id x x.caddr (s.recordBytes id x status detail) with
  | .fin t => some t
  | .wait _ => none
  | .bad t pa => some (t.logErr (unitCode 3 (frameOf id).val) 0x0B 0 (BitVec.ofNat 64 pa) 0 (some x.owner)).2

/-- What the queue of a stream's STREAM command gets (R360, R388, R395): its snapshot block, and with
CADDR = 0 an entry of KIND 0x01. -/
def State.streamToQueue (s : State) (id : W16) (x : Stream) (o : Origin) (status : Byte) : State :=
  let opc : Nat := 3
  let s := if o.snap ≠ 0xFFFF#16 then s.writeSnapshot o.queue o.cid opc o.snap (streamLatch id x) [] else s
  let d := s.fresh
  if x.caddr = 0 then
    if status = 0 then d.2.writeCompletion o.queue o.cid 0 1 o.snap (d.1.setWidth 32) o.quiet
    else s.writeCompletion o.queue o.cid 6 1 o.snap (BitVec.ofNat 32 (id.toNat + status.toNat * 2 ^ 16)) o.quiet
  else s

/-- The record in memory and the interrupt that an ended stream asks for (R360); none while the record waits. -/
def State.streamTells (s : State) (id : W16) (x : Stream) (status : Byte) (detail : W32) : Option State :=
  let irq (s : State) : State := if bit x.raw 51 then s.raiseIrqN (bits x.raw 141 136) (x.u 0x10 1) else s
  if x.caddr ≠ 0 then (s.completionRecord id x status detail).map irq else some (irq s)

/-- A stream that a queue created leaves what the queue owes and counts (R388, R395). -/
def State.streamLeaves (s : State) (id : W16) (o : Origin) : State :=
  let q := s.queue o.queue
  s.setQueue o.queue ({ q with owed := q.owed.erase id, streams := q.streams.erase id } : Queue).settle

/-- STREAM_COMPLETION (R360): a DRAINING stream none of whose operations is outstanding, and whose progress records are
written, writes ERR, its record or queue entry, and its interrupt; the entry is FREE. -/
def execStreamCompletion (id : W16) (s : State) : Res State :=
  let x := s.stream id
  if x.state ≠ 4 || !(s.opsOf id).isEmpty || !x.rdy.isEmpty || s.down then .next s
  else
    let s := if x.recDue.isEmpty then s else s.progRecords id x.recDue
    if !(s.stream id).recDue.isEmpty then .next s
    else
      let e := x.ending.getD (0, 0)
      let y := x.put 0x70 8 (e.1.toNat + e.2.toNat * 2 ^ 32)
      let t := match x.origin with
        | some o => s.streamToQueue id y o e.1
        | none => s
      match t.streamTells id y e.1 e.2 with
      | none => .next s
      | some u =>
        .next ((match x.origin with
          | some o => u.streamLeaves id o
          | none => u).setStream id {})

/-! ## Stream instructions (R358) -/

/-- The stream of a context bank; a stream instruction in bank 8, or in a bank without a stream, raises
ILLEGAL. -/
def State.onStream (s : State) (e : EngineId) (b : Fin 9) (f : W16 → SOut) : SOut :=
  match (s.bank e b).stream with
  | some id => if b = 8 then .fault s 1 none else f id
  | none => .fault s 1 none

/-- SLD. -/
def execSld (e : EngineId) (b : Fin 9) (m : Byte) (s : State) : Res State :=
  s.stitch e b (fun s => s.onStream e b (fun id =>
    s.core e b 2 (legal (m.toNat < 32) (pushOp (fun _ => BitVec.ofNat 32 (elem (s.stream id).view 32 m.toNat))))))

/-- SST: CREDIT or a PARAM word. -/
def execSst (e : EngineId) (b : Fin 9) (m : Byte) (s : State) : Res State :=
  s.stitch e b (fun s => s.onStream e b (fun id =>
    match s.core e b 2 (legal (m = 5 || (24 ≤ m.toNat && m.toNat ≤ 27)) (popOp 1 (fun k => k))) with
    | .done t pc => .done (t.setStream id ((t.stream id).put (4 * m.toNat) 4 ((s.coreOf e b).at 0).toNat)) pc
    | o => o))

/-- Issue the next n bytes of a bank's stream (R358); none while no slot is free or, for SEND, CREDIT is too
small. -/
def State.mvgo (s : State) (e : EngineId) (b : Fin 9) (id : W16) (n : W32) : Option State :=
  let f := frameOf id
  let x := s.stream id
  let k := s.bank e b
  let need := (n.toNat + 255) / 256
  match s.frames[f].freeMover with
  | none => none
  | some m =>
    if x.kind = 4 && x.u 0x14 4 < need then none
    else
      let x := if x.kind = 4 then x.put 0x14 4 (x.u 0x14 4 - need) else x
      let len := min n.toNat (mdLen k.mdesc - k.issued)
      let o : MoverOp := { mover := m, stream := id, engine := e, bank := b, mdesc := k.mdesc, start := k.issued,
                           pos := k.issued,
                           len := len, stalled := false }
      let s := (s.setStream id x).setFrame f { s.frames[f] with ops := s.frames[f].ops ++ [o] }
      let s := s.modBank e b (fun k => { k with issued := k.issued + len })
      some (s.checkStall id)

/-- MVGO: the bank is BLOCKED while it cannot issue. -/
def execMvgo (e : EngineId) (b : Fin 9) (m : Byte) (s : State) : Res State :=
  s.stitch e b (fun s => s.onStream e b (fun id =>
    let n := (s.coreOf e b).at 0
    match s.core e b 2 (legal (m = 0) (popOp 1 (fun k => k))) with
    | .done t pc => match t.mvgo e b id n with
      | some u => .done u pc
      | none => .stay (s.modBank e b (fun k => { k with st := .blocked, block := .mvgo n }))
    | o => o))

/-- MVGO_RESUME: a BLOCKED MVGO goes on once a slot is free and the credits suffice. -/
def execMvgoResume (e : EngineId) (b : Fin 9) (s : State) : Res State :=
  let k := s.bank e b
  match k.st, k.block, k.stream with
  | .blocked, .mvgo n, some id =>
    if (s.eng e).halted || (s.eng e).held || s.down then .next s
    else match s.mvgo e b id n with
    | some t => .next (t.modBank e b (fun k => { k with
        st := .ready, block := .none, stack := k.stack.drop 1, pc := k.pc + 2 }))
    | none => .next s
  | _, _, _ => .next s

/-- MVSET. -/
def execMvset (e : EngineId) (b : Fin 9) (m : Byte) (s : State) : Res State :=
  s.stitch e b (fun s => s.onStream e b (fun _ =>
    s.core e b 2 (legal (m.toNat < 16) (popOp 1 (fun c =>
      { c with bank := { c.bank with mdesc := setElem c.bank.mdesc 32 m.toNat (c.at 0).toNat } })))))

/-- MVPEND. -/
def execMvpend (e : EngineId) (b : Fin 9) (m : Byte) (s : State) : Res State :=
  s.stitch e b (fun s => s.onStream e b (fun id =>
    s.core e b 2 (legal (m = 0) (pushOp (fun _ =>
      BitVec.ofNat 32 ((s.opsOf id).countP (fun o => o.engine = e && o.bank = b && !o.land)))))))

/-- Return the credits of a stream (R359, R417): those of a RECEIVE stream go to its peer, those of a COLLECTIVE
one are kept here. -/
def State.creditReturn (s : State) (id : W16) (n : Nat) : State :=
  let x := s.stream id
  let t := s.setStream id { x with granted := x.granted + 256 * n }
  if x.kind = 6 then t
  else
    let en := t.ctxEntry x.owner
    en.2.send ⟨BitVec.ofNat 18 (x.u 0x60 4), BitVec.ofNat 18 en.2.nodeId, pkeyOf en.1, 0x09, 0, true,
      false, 0, BitVec.ofNat 46 (x.u 0x64 2 * 2 ^ 30 + n % 2 ^ 30), []⟩

/-- Credits that would run more than 2^29 blocks past PROG (R359). -/
def Stream.overCredit (x : Stream) (n : Nat) : Bool := decide (x.prog + 2 ^ 37 < x.granted + 256 * n)

/-- CRRET (R359, R417): credits beyond 2^29 past PROG raise ADDRESS. -/
def execCrret (e : EngineId) (b : Fin 9) (m : Byte) (s : State) : Res State :=
  s.stitch e b (fun s => s.onStream e b (fun id =>
    let c := (s.coreOf e b).at 0
    match s.core e b 2 (legal (m = 0) (popOp 1 (fun k => k))) with
    | .done t pc =>
      let x := t.stream id
      if x.kind ≠ 5 && x.kind ≠ 6 then .done t pc
      else if x.overCredit c.toNat then .fault s 7 (some c)
      else .done (t.creditReturn id c.toNat) pc
    | o => o))

/-- SDONE (R360, R366): after a mover error the stream ends with the status of that error, and its error-log entry as the
detail (log entry 180). -/
def execSdone (e : EngineId) (b : Fin 9) (m : Byte) (s : State) : Res State :=
  s.stitch e b (fun s => s.onStream e b (fun id =>
    match s.core e b 2 (legal (m = 0 || m = 5) (popOp 1 (fun k => k))) with
    | .done t pc =>
      let f := (t.stream id).err.getD (m, (s.coreOf e b).at 0)
      .stay ((t.modBank e b (fun k => { k with pc := pc })).endStream id f.1 f.2)
    | o => o))

/-- SIGNAL: bank t[3:0] of stitcher t[7:4] of the frame. A headband has no frame. -/
def execSignal (e : EngineId) (b : Fin 9) (m : Byte) (s : State) : Res State :=
  s.stitch e b (fun s =>
    let t := (s.coreOf e b).at 0
    match s.core e b 2 (legal (m = 0) (popOp 1 (fun k => k))), engFrame e with
    | .done u pc, some f =>
      if 8 < bits t 3 0 then .fault s 7 (some t)
      else .done (u.bankEvent (Fin.ofNat 66 (16 * f.val + bits t 7 4)) (Fin.ofNat 9 (bits t 3 0)) 5) pc
    | .done _ _, none => .fault s 1 none
    | o, _ => o)

/-- BKILL: only in bank 8. -/
def execBkill (e : EngineId) (b : Fin 9) (m : Byte) (s : State) : Res State :=
  s.stitch e b (fun s =>
    let bk := (s.coreOf e b).at 1
    if b ≠ 8 then .fault s 1 none
    else match s.core e b 2 (legal (m = 0) (popOp 2 (fun k => k))) with
      | .done t pc =>
        if 7 < bk.toNat then .fault s 7 (some bk)
        else
          let c : Fin 9 := Fin.ofNat 9 bk.toNat
          let t := match (t.bank e c).stream with
            | some id => t.endStream id 0x05 ((s.coreOf e b).at 0)
            | none => t
          .done (t.freeBank e c) pc
      | o => o)

/-! ## Invalidation of translations (R304, R305) -/

/-- Whether an invalidation covers a cached leaf or segment, by context, segment and offset (R304). -/
def invCovers (v : W64) (ctx : CtxId) (seg : Nat) (page : Option Nat) : Bool :=
  match bits v 62 60 with
  | 0 => true
  | 1 => ctx.toNat = bits v 59 48
  | 2 => ctx.toNat = bits v 59 48 && seg = bits v 47 44
  | 3 => ctx.toNat = bits v 59 48 && seg = bits v 47 44 &&
      (match page with
       | none => false
       | some p => if p % 2 = 1 then bits v 43 17 / 512 = p / 2 else bits v 43 17 = p / 2)
  | _ => false

/-- Remove what an invalidation covers (R305): leaves, context-table entries, and segments; a page's segment
stays. What a quire holds belongs to the context it ran last. A quire that held such an entry fetches anew. -/
def State.invalidate (s : State) (v : W64) : State :=
  let sc := bits v 62 60
  { s with
    xlat := s.xlat.filter (fun e => !invCovers v e.1 e.2.2.1 (some e.2.2.2.1)),
    ctxCache := s.ctxCache.filter (fun e => !(sc = 0 || ((sc = 1 || sc = 4) && e.1.toNat = bits v 59 48))),
    quires := Vector.ofFn (fun i =>
      let c := s.quires[i]
      let ctx := c.lastCtx.getD 0
      { c with segCache := c.segCache.filter (fun e => !invCovers v ctx e.2.1 none),
               tlb := c.tlb.filter (fun e => !invCovers v ctx e.2.1 (some e.2.2.1)) }) }

/-- GLB_XLAT_INV (R304, R305): BUSY is set; while it is, a further write is held. -/
def State.xlatInvWrite (s : State) (src : Source) (v : W64) : State :=
  { s.setFld 0x208 63 63 1 with xlatInv := s.xlatInv ++ [(src, v)] }

/-- A write of GLB_XLAT_INV with a scope and the fields that the row gives. -/
def invWord (scope : Nat) (ctx : CtxId) (seg : BitVec 4) (vpn : BitVec 27) : W64 :=
  BitVec.ofNat 64 (scope * 2 ^ 60 + ctx.toNat * 2 ^ 48 + seg.toNat * 2 ^ 44 + vpn.toNat * 2 ^ 17)

/-- XLAT_INV_ALL (R304). The rows of this register name no writer: supervisor code on a quire (log entry 183). -/
def execXlatInvAll (s : State) : Res State := .next (s.xlatInvWrite .quire (invWord 0 0 0 0))
/-- XLAT_INV_CTX (R304). -/
def execXlatInvCtx (ctx : CtxId) (s : State) : Res State := .next (s.xlatInvWrite .quire (invWord 1 ctx 0 0))
/-- XLAT_INV_SEG (R304). -/
def execXlatInvSeg (ctx : CtxId) (seg : BitVec 4) (s : State) : Res State :=
  .next (s.xlatInvWrite .quire (invWord 2 ctx seg 0))
/-- XLAT_INV_PAGE (R304). -/
def execXlatInvPage (ctx : CtxId) (seg : BitVec 4) (vpn : BitVec 27) (s : State) : Res State :=
  .next (s.xlatInvWrite .quire (invWord 3 ctx seg vpn))
/-- XLAT_INV_CTXTBL (R304). -/
def execXlatInvCtxtbl (ctx : CtxId) (s : State) : Res State := .next (s.xlatInvWrite .quire (invWord 4 ctx 0 0))

/-- Whether an access that may have been translated by an entry which an invalidation covers is still to be performed
(R305 item 3): a quire's outstanding load or atomic, store or queued atomic, and a mover operation's request. -/
def State.xlatOut (s : State) (v : W64) : Bool :=
  let of (c : CtxId) : Bool := bits v 62 60 = 0 || c.toNat = bits v 59 48
  (List.finRange 34).any (fun i =>
    let c := s.q i
    of (c.lastCtx.getD 0) && (s.storesOut i || s.atomics.any (fun e => e.quire = some i && e.result.isNone) ||
      (match c.stall with | .host .. | .remote .. => true | _ => false))) ||
  s.frames.toList.any (fun f => f.ops.any (fun o => o.tag.isSome && of (s.stream o.stream).owner))

/-- XLAT_INV_COMPLETE (R305): the invalidation in progress completes, and a held one starts. It waits for the accesses
already translated. -/
def execXlatInvComplete (s : State) : Res State :=
  match s.xlatInv with
  | [] => .next s
  | (_, v) :: r =>
    let s := (List.finRange 34).foldl (fun s i => s.drain i) s
    if s.xlatOut v then .next s
    else
    let t : State := { s.invalidate v with xlatInv := r }
    .next (if r.isEmpty then t.setFld 0x208 63 63 0 else t)

/-! ## The translation fault queue (R307, R308) -/

/-- XFQ_RECORD_WRITE (R308): the oldest held record is written once a slot is free. -/
def execXfqRecordWrite (s : State) : Res State := .next s.xfqStep

/-- A stalled stream that a RESUME names with its owner (R308). -/
def State.resumes (s : State) (ctx : CtxId) (id : W16) : Bool :=
  (s.stream id).state = 3 && (s.stream id).owner = ctx

/-- XFQ_RETRY (R307): translation is tried again from the faulting position, and can fault again. -/
def execXfqRetry (ctx : CtxId) (id : W16) (s : State) : Res State :=
  if s.resumes ctx id then
    let f := frameOf id
    let s := s.setFrame f { s.frames[f] with ops := s.frames[f].ops.map (fun o =>
      if o.stream = id then { o with stalled := false } else o) }
    .next ((s.setStream id ((s.stream id).setState 2)).checkStall id)
  else .next s

/-- XFQ_FAIL (R307, R360): the stream ends with XLATE_FAIL. -/
def execXfqFail (ctx : CtxId) (id : W16) (s : State) : Res State :=
  if s.resumes ctx id then
    let d := s.fresh
    .next (d.2.endStream id 0x02 (d.1.setWidth 32))
  else .next s

/-! ## Patches (R372 to R374) -/

/-- A record of SF_PATCH_BUF: malformed when a must-be-0 bit is 1 or its index is outside the image (R372). -/
def patchBad (r : W64) : Bool :=
  bits r 30 18 ≠ 0 || bits r 1 0 ≠ 0 || (bit r 31 && 1087 < bits r 17 2)

/-- Record n of the patch buffer. -/
def Frame.patchRec (f : Frame) (n : Nat) : W64 :=
  BitVec.ofNat 64 ((sGet 0 f.patchBuf (2 * n)).toNat + (sGet 0 f.patchBuf (2 * n + 1)).toNat * 2 ^ 32)

/-- The records of the patch in progress. -/
def Frame.patchRecs (f : Frame) : List W64 := (List.range f.patchCount).map f.patchRec

/-- Engines of a frame. -/
def frameEngines (f : Fin 4) : List EngineId := (List.finRange 16).map (fun k => Fin.ofNat 66 (16 * f.val + k.val))

/-- Change every engine of a frame. -/
def State.modFrameEngs (s : State) (f : Fin 4) (g : Engine → Engine) : State :=
  (frameEngines f).foldl (fun s e => s.modEng e g) s

/-- Write the records of a patch that aim at one image, in buffer order. -/
def putRecs (m : List (Nat × W32)) (recs : List W64) (dec : Bool) : List (Nat × W32) :=
  (recs.filter (fun r => bit r 31 == dec)).foldl (fun m r => sSet 0 m (bits r 17 2) (r.extractLsb' 32 32)) m

/-- Whether a headband refuses to load the decode image that a patch makes (R346): where R346's trace through a list is not
known before it runs, a free value (log entry 181). -/
def State.refusesImage (s : State) (fr : Frame) : Bool × State :=
  if !fr.patchRecs.any (fun r => bit r 31) || fr.patchRecs.any patchBad then (false, s)
  else match imageOk (putRecs fr.dec fr.patchRecs true) with
    | some ok => (!ok, s)
    | none => let d := s.fresh; (bit d.1 0, d.2)

/-- A headband's GO (R372 to R374): rejected while a patch is in progress; a malformed record ends it with nothing applied.
Every engine is held at its boundary, unless decode records wait for SYNCs (R374). -/
def State.patchGo (s : State) (f : Fin 4) (fr : Frame) : State :=
  if fr.patchBusy then s.reject .headband (0x400100 + f.val * 0x100000)
  else if fr.patchRecs.any patchBad then s.setFrame f { fr with patchResult := 2 }
  else
    let dec := fr.patchRecs.any (fun r => bit r 31)
    let hold := dec && (frameEngines f).any (fun e => !(s.eng e).halted && !(s.eng e).synced)
    let s := s.setFrame f { fr with patchBusy := true, patchDhold := hold }
    if hold || !fr.patchRecs.any (fun r => !bit r 31) then s
    else s.modFrameEngs f (fun g => { g with held := true })

/-- PATCH_START (R312, R346, R372): only by a headband, which loads nothing of an image that it refuses. -/
def State.patchStart (s : State) (f : Fin 4) (src : Source) (countm1 : Nat) : State :=
  if src ≠ .headband then s.reject src (0x400100 + f.val * 0x100000)
  else
    let fr := s.frames[f]
    if fr.patchBusy then s.patchGo f fr
    else
      let new := { fr with patchCount := countm1 + 1 }
      let r := s.refusesImage new
      if r.1 then r.2 else r.2.patchGo f new

/-- PATCH_START. -/
def execPatchStart (f : Fin 4) (src : Source) (countm1 : BitVec 11) (s : State) : Res State :=
  s.inOrder src (.write 0 (sfwin f 0x100) true (BitVec.ofNat 64 (2 ^ 63 + countm1.toNat))) fun s =>
    .next (s.gate src (sfwin f 0x100) (fun s => s.patchStart f src countm1.toNat))

/-- PATCH_APPLY (R373, R374): once every engine has executed SYNC since the last decode commit, where decode
records need it, the records are applied in buffer order and the engines go on. The decode image that was
current stays in use in each engine until its next SYNC. -/
def execPatchApply (f : Fin 4) (s : State) : Res State :=
  let fr := s.frames[f]
  let recs := fr.patchRecs
  let dec := recs.any (fun r => bit r 31)
  if !fr.patchBusy then .next s
  else if dec && (frameEngines f).any (fun e => !(s.eng e).halted && !(s.eng e).synced) then .next s
  else if (frameEngines f).any (fun e => (s.eng e).insideFar) then .next s
  else
    let fr' := { fr with
      imem := putRecs fr.imem recs false,
      dec := putRecs fr.dec recs true,
      decOld := if dec then fr.dec else fr.decOld,
      patchBusy := false, patchDhold := false, patchResult := 1 }
    let d := s.fresh
    let s := if fr.patchDhold then d.2 else s
    let s := (s.setFrame f fr').modFrameEngs f (fun g =>
      { g with held := false, oldImage := if dec then true else g.oldImage,
               synced := if dec then false else g.synced })
    let s := s.emit (unitCode 3 f.val) 0x0301 none (BitVec.ofNat 64 recs.length)
      (if fr.patchDhold then d.1 else 0)
    .next ((frameEngines f).foldl (fun s e => (s.fastEntry e).getD s) s)

end Sys2Proof.Machine
end

