-- ==== Sys2Proof/Machine/Links.lean ====
section
/-!
DEFINITION. The Lorotte ports' training, retry and capability exchange, and what packets do at this node
(15_lorotte_links.md, R405 to R449; marks of R543).
-/
namespace Sys2Proof.Machine

/-! ## Ports (R407, R419, R434, R440) -/

/-- A port is bonded out (R556). -/
def State.bonded (s : State) (p : PortId) : Bool := bit s.straps (7 + p.val)

/-- LNK_CTL.EN in force (R440). -/
def State.linkEn (s : State) (p : PortId) : Bool := bit (s.reg (lnk p 0)) 0 && s.bonded p && !bit s.portFailed p.val

/-- SAFE HOLD for a cause that leaves the router or spine suspect: no port drives its lanes (R436). -/
def State.linksDark (s : State) : Bool :=
  s.safeHold && (s.fld 0x20000 27 24 = 4 || s.fld 0x20000 27 24 = 5)

/-- A port's domain lets it work (R503, R509). -/
def State.linkPowered (s : State) (p : PortId) : Bool :=
  s.present && !s.linksDark && s.domState (73 + p.val / 4) = 0

/-- A port changes state, with its ring event (R419, R535). -/
def State.portState (s : State) (p : PortId) (v : BitVec 4) : State :=
  let old := (s.port p).st
  if old = v then s
  else (s.modPort p (fun x => { x with st := v })).emit (unitCode 9 p.val) 0x0901 none
    (BitVec.ofNat 64 (v.toNat + 16 * old.toNat)) ((s.port p).reason.setWidth 64)

/-- Code of a lane count (R442, R565). -/
def laneCode (n : Nat) : Nat := if n = 4 then 3 else if n = 2 then 2 else if n = 1 then 1 else 0

/-- Widest width on locked lanes within LMAX (R407, R440). -/
def widthOf (locked : BitVec 4) (lmax : Nat) : Nat :=
  if lmax = 3 && locked = 0xF#4 then 4
  else if 2 ≤ lmax && ((bit locked 0 && bit locked 1) || (bit locked 2 && bit locked 3)) then 2
  else if locked ≠ 0 then 1
  else 0

/-- GLB_AVAIL_LINK takes a port's width (R434, R565). -/
def State.availLink (s : State) (p : PortId) (lanes : Nat) : State :=
  if s.fld 0x028 (2 * p.val + 1) (2 * p.val) = laneCode lanes then s
  else (s.colophon (fun s => s.setFld 0x028 (2 * p.val + 1) (2 * p.val) (laneCode lanes))).availEvent

/-! ## Leaving and entering ACTIVE (R433) -/

/-- The replay buffer and the held packets are given up (R433): requests are answered UNAVAILABLE, SDATA and COLL
end their streams, and the held packets take their new route, but for those of a stream that has failed. -/
def State.discardHold (s : State) (p : PortId) : State :=
  let x := s.port p
  let lost := x.replay.filterMap (·.pkt)
  let held := x.held.filter (fun k => !(k.cls = 2 && lost.any (fun d =>
    d.cls = 2 && d.src = k.src && d.dest = k.dest && bits d.addr 45 30 = bits k.addr 45 30)))
  let s := s.setPort p { x with replay := [], held := [], holding := false }
  let s := lost.foldl (fun s k =>
    if k.cls = 0 || k.ptype = 0x08#6 || k.ptype = 0x0A#6 then
      match k.answer s.nodeId 0x01 [] with
      | some a => s.send a
      | none => s
    else s) s
  held.foldl State.send s

/-- A port stops carrying traffic (R433): its packets not yet sent are held when ordered, and take another route
otherwise; its replay buffer is kept for LNK_HOLD.MS. -/
def State.dropTraffic (s : State) (p : PortId) : State :=
  let x := s.port p
  let s := s.setPort p { x with
    txq := [], held := x.held ++ (x.txq.filter (fun e => e.pkt.ord)).map (·.pkt), holding := true,
    part := Vector.replicate 8 none, asked := false, ackDue := false, ret := Vector.replicate 8 0, retSh := 0 }
  let s := (x.txq.filter (fun e => !e.pkt.ord)).foldl (fun s e => s.send e.pkt) s
  if s.fld (lnk p 0x20) 15 0 = 0 then s.discardHold p else s

/-- A port goes to another state; when it was ACTIVE, its traffic stops and REASON says why (R433, R442). -/
def State.leaveFor (s : State) (p : PortId) (v : BitVec 4) (reason : Option (BitVec 4)) : State :=
  if (s.port p).st = 6 then
    let s := match reason with
      | some r => s.modPort p (fun x => { x with reason := r })
      | none => s
    (s.portState p v).dropTraffic p
  else s.portState p v

/-- A port without signal, or disabled: no lane works (R419, R434). -/
def State.portDown (s : State) (p : PortId) (v : BitVec 4) (reason : BitVec 4) : State :=
  let s := s.leaveFor p v (some reason)
  (s.modPort p (fun x => { x with locked := 0, failed := 0, lanes := 0, agreed := 0, capAt := none })).availLink p 0

/-! ## Capability exchange (R420 to R424) -/

/-- The wait of step k in microseconds (R423). -/
def backoffUs (node port k hint : Nat) : Nat :=
  let b := max (1000 * 2 ^ min k 6) (1000 * hint)
  let h := (node * 0x9E37 + k * 0x7F4B + port * 0x2C1B) % 65536
  b + b * h / 131072

/-- A port waits for its step before the next CAP_REQ (R423). -/
def State.backoff (s : State) (p : PortId) : State :=
  let x := s.port p
  s.setPort p { x with
    capAt := some (s.gtime + BitVec.ofNat 64 (1000 * backoffUs s.nodeId p.val x.k x.hint.toNat)) }

/-- A port enters CAPEX (R423). -/
def State.enterCapex (s : State) (p : PortId) : State :=
  ((s.portState p 4).modPort p (fun x => { x with k := 0, hint := 0 })).backoff p

/-- A NOT_READY with its HINT (R423). -/
def State.notReady (s : State) (p : PortId) (hint : Byte) : State :=
  (s.modPort p (fun x => { x with k := min (x.k + 1) 6, hint := hint })).backoff p

/-- Buffer credits of a port in use: those of packets received and not consumed. -/
def Port.usedCredits (x : Port) (v : Fin 8) (shared : Bool) : Nat :=
  (x.rx.filter (fun e => e.vc = v || shared)).foldl (fun n e => n + e.frees.countP (· = shared)) 0

/-- The capability message a port sends (R420). -/
def State.capMsg (s : State) (p : PortId) (status hint : Byte) : CapMsg :=
  let x := s.port p
  { status := status, hint := hint, nidw := 18, vermin := 0x0100, vermax := 0x0100,
    node := BitVec.ofNat 18 s.nodeId, port := BitVec.ofNat 5 p.val, linkgen := s.linkGen,
    nextseq := x.expSeq.setWidth 16, lanes := BitVec.ofNat 8 x.lanes,
    ded := packElems 64 8 8 (fun v => 8 - x.usedCredits (Fin.ofNat 8 v) false),
    shared := BitVec.ofNat 16 (192 - x.usedCredits 0 true), feat := 0 }

/-- Its payload bytes. -/
def capBytes (m : CapMsg) (kind : Nat) : List Byte :=
  [BitVec.ofNat 8 kind, m.status, m.hint, m.nidw] ++
  (leBytes 2 m.vermin.toNat).reverse ++ (leBytes 2 m.vermax.toNat).reverse ++
  leBytes 4 (m.node.toNat + m.port.toNat * 2 ^ 18) ++ leBytes 4 m.linkgen.toNat ++ leBytes 2 m.nextseq.toNat ++
  [m.lanes] ++ leBytes 8 m.ded.toNat ++ leBytes 2 m.shared.toNat ++ leBytes 8 m.feat.toNat

/-- Send a CTRL flit with a capability message. -/
def State.sendCap (s : State) (p : PortId) (kind : Nat) (status hint : Byte) : State :=
  s.modPort p (fun x => x.sendCtl 3 (capBytes (s.capMsg p status hint) kind))

/-- How a partner's terms are judged (R421): READY, INCOMPATIBLE or MISWIRED. -/
def State.judgeCap (s : State) (p : PortId) (m : CapMsg) : Byte :=
  let ver := min m.vermax.toNat 0x0100
  let w := min m.nidw.toNat 18
  if ver < max m.vermin.toNat 0x0100 || 2 ^ w ≤ m.node.toNat || 2 ^ w ≤ s.nodeId then 2
  else if bit (s.reg (lnk p 0)) 4 && m.node.toNat ≠ s.fld (lnk p 0x08) 17 0 then 3
  else 0

/-- What a capability message tells of the partner (R442), with its ring event (R535). -/
def State.heardCap (s : State) (p : PortId) (kind : Nat) (m : CapMsg) : State :=
  (s.modPort p (fun x => { x with pnode := m.node, pport := m.port })).emit (unitCode 9 p.val) 0x0904 none
    (BitVec.ofNat 64 (kind + m.status.toNat * 256)) (m.node.setWidth 64)

/-- Resend flits of the replay buffer. -/
def State.resendList (s : State) (p : PortId) (l : List TxFlit) : State :=
  l.foldl (fun s f =>
    ((s.modPort p (fun x => x.sendData f)).countEvent (unitCode 9 p.val) 0x0904 1).mark p 0x0E01 f.n true s.linkGen) s

/-- Whether SEQ a is covered by an acknowledgement of SEQ b, modulo 4,096 (R408). -/
def seqCovered (a b : BitVec 12) : Bool := (b - a).toNat < 2048

/-- The link becomes ACTIVE on the partner's terms (R421, R543). A partner that returns within the hold time with
the same NODE and LINKGEN gets the replay buffer from its NEXTSEQ, and the held packets follow; otherwise the
buffer is given up (R433). -/
def State.activate (s : State) (p : PortId) (m : CapMsg) : State :=
  let x := s.port p
  let same := x.holding && x.pnode = m.node && x.pgen = m.linkgen
  let s := if x.holding && !same then s.discardHold p else s
  let x := s.port p
  let next := m.nextseq.setWidth 12
  let rep := x.replay.filter (fun f => !seqCovered f.seq (next - 1))
  let s := s.setPort p { x with
    pnode := m.node, pport := m.port, pgen := m.linkgen, ver := 0x10, agreed := min x.lanes m.lanes.toNat,
    replay := rep, nextSeq := if rep.isEmpty then next else x.nextSeq, resends := 0, asked := false,
    cred := Vector.ofFn (fun v => elem m.ded 8 v.val), credSh := m.shared.toNat, nTx := 0, nRx := 0,
    capAt := none, holding := false, held := [] }
  let s := (s.portState p 6).resendList p rep
  let s := x.held.foldl (fun s k =>
    s.modPort p (fun y => { y with txq := y.txq ++ [{ vc := k.vc, pkt := k }] })) s
  s.pump p

/-- LANE_SIGNAL_DETECT (R419, R425): an enabled port that is DOWN starts to train; a RETAINED group returns to ON
(R509). -/
def execLaneSignalDetect (p : PortId) (s : State) : Res State :=
  let s := if s.linkEn p then s.wakeDomain (73 + p.val / 4) else s
  if s.linkEn p && s.linkPowered p && (s.port p).st = 1 then
    .next ((s.modPort p (fun x => { x with locked := 0, failed := 0, lanes := 0 })).portState p 2)
  else .next s

/-- LANE_LOCK (R406, R419, R526): a lane locks; the port aligns from the first lane on. Whether it converged on
another preset than its own, which stores a LINKEQ record, is a free value. -/
def execLaneLock (p : PortId) (lane : Fin 4) (s : State) : Res State :=
  let x := s.port p
  if !(x.st = 2 || x.st = 3 || x.st = 7) || bit x.failed lane.val then .next s
  else
    let d := s.fresh
    let s := if bit d.1 0 then { d.2 with calLink := setBit s.calLink p.val true } else d.2
    .next ((s.modPort p (fun x => { x with locked := setBit x.locked lane.val true })).portState p 3)

/-- LANE_TRAINING_TIMEOUT (R406, R419): an unlocked lane has failed this training; with no lane left the port is
DOWN. -/
def execLaneTrainingTimeout (p : PortId) (lane : Fin 4) (s : State) : Res State :=
  let x := s.port p
  if !(x.st = 2 || x.st = 3) || bit x.locked lane.val then .next s
  else
    let s := s.modPort p (fun x => { x with failed := setBit x.failed lane.val true })
    .next (if x.st = 2 && (s.port p).failed = 0xF#4 then s.portDown p 1 0 else s)

/-- ALIGN_COMPLETE (R419, R434): the port has its width, and waits for release or exchanges capabilities. -/
def execAlignComplete (p : PortId) (s : State) : Res State :=
  let x := s.port p
  if x.st ≠ 3 || x.locked = 0 then .next s
  else
    let w := widthOf x.locked (s.fld (lnk p 0) 7 6)
    let s := (s.modPort p (fun x => { x with lanes := w })).availLink p w
    .next (if bit (s.reg 0xD80008) 31 then s.enterCapex p else s.portState p 5)

/-- Release of every port, the last boot step (R424, R445, R523). -/
def State.releasePorts (s : State) : State :=
  let s := if bit (s.reg 0xD80008) 31 then s else s.emit (unitCode 0x0B (s.fld 0x20000 0 0)) 0x0B01 none 11 0
  (List.finRange 24).foldl (fun s p => if (s.port p).st = 5 then s.enterCapex p else s) (s.setFld 0xD80008 31 31 1)

/-- PORT_RELEASE (R424): a headband sets RTE_BOOT.REL. -/
def execPortRelease (src : Source) (s : State) : Res State :=
  s.inOrder src (.write 0 0xD80008 false 0x80000000) fun s =>
  .next (s.gate src 0xD80008 (fun s => if src = .headband then s.releasePorts else s.reject src 0xD80008))

/-- BACKOFF_EXPIRY (R423): GTIME reaches the end of the wait (log entry 8), and a CAP_REQ goes out. -/
def execBackoffExpiry (p : PortId) (s : State) : Res State :=
  match (s.port p).st, (s.port p).capAt with
  | 4, some t =>
    let s := if s.gtime.toNat < t.toNat then { s with gtime := t } else s
    .next ((s.modPort p (fun x => { x with capAt := none })).sendCap p 1 0 0)
  | _, _ => .next s

/-- CAP_REQ (R421 to R423): a port in STANDBY answers NOT_READY; one in CAPEX judges the terms. An ACTIVE port, which
sends none, goes DOWN when the partner's LINKGEN has changed. -/
def execCapReq (p : PortId) (m : CapMsg) (s : State) : Res State :=
  let x := s.port p
  if x.st = 5 then
    .next ((s.heardCap p 1 m).sendCap p 2 1 (BitVec.ofNat 8 (s.fld 0xD80008 7 0)))
  else if x.st = 4 then
    let j := s.judgeCap p m
    let t := (s.heardCap p 1 m).sendCap p 2 j 0
    .next (if j = 0 then
        ({ t with ports := t.ports.set p { t.port p with pnode := x.pnode } } : State).activate p m
      else if j = 2 then (t.modPort p (fun x => { x with reason := 6 })).portState p 8
      else (t.modPort p (fun x => { x with reason := 7 })).portState p 9)
  else if x.st = 6 && m.linkgen ≠ x.pgen then .next ((s.heardCap p 1 m).portDown p 1 4)
  else .next s

/-- CAP_RSP (R421, R423). -/
def execCapRsp (p : PortId) (m : CapMsg) (s : State) : Res State :=
  let x := s.port p
  if x.st ≠ 4 then .next s
  else
    let t := s.heardCap p 2 m
    let bad (t : State) (v r : BitVec 4) : State := (t.modPort p (fun x => { x with reason := r })).portState p v
    match m.status.toNat with
    | 0 =>
      let j := s.judgeCap p m
      .next (if j = 0 then
          ({ t with ports := t.ports.set p { t.port p with pnode := x.pnode } } : State).activate p m
        else if j = 2 then bad t 8 6 else bad t 9 7)
    | 1 => .next (t.notReady p m.hint)
    | 2 => .next (bad t 8 6)
    | 3 => .next (bad t 9 7)
    | _ => .next t

/-- BOOT_NAK (R422): the sender keeps its replay buffer and returns to CAPEX; it counts as a NOT_READY with HINT
0. -/
def execBootNak (p : PortId) (s : State) : Res State :=
  let x := s.port p
  if x.st = 6 then .next (((s.leaveFor p 4 none).enterCapex p).notReady p 0)
  else if x.st = 4 then .next (s.notReady p 0)
  else .next s

/-! ## Flits (R408 to R410, R415) -/

/-- A field of a flit's header. -/
def flitField (raw : BitVec 2048) (hi lo : Nat) : Nat := bits raw hi lo

/-- The CRC of a flit is right (R408). -/
def flitOk (raw : BitVec 2048) : Bool := bits raw 2047 2016 = (crc32 (leBytes 252 raw.toNat)).toNat

/-- Slot n of a flit's payload. -/
def flitSlot (raw : BitVec 2048) (n : Nat) : BitVec 128 := raw.extractLsb' (96 + 128 * n) 128

/-- Acknowledgement and credits of a flit whose CRC is right (R408, R409, R412). -/
def State.takeReturns (s : State) (p : PortId) (raw : BitVec 2048) : State :=
  let x := s.port p
  let v : Fin 8 := Fin.ofNat 8 (flitField raw 35 33)
  let ack : BitVec 12 := BitVec.ofNat 12 (flitField raw 31 20)
  let rep := if bit raw 32 then x.replay.filter (fun f => !seqCovered f.seq ack) else x.replay
  let x := { x with
    cred := x.cred.set v (x.cred[v] + flitField raw 39 36), credSh := x.credSh + flitField raw 47 40,
    replay := rep, resends := if rep.length < x.replay.length then 0 else x.resends }
  (s.setPort p x).pump p

/-- Count what is wrong with a received flit (R443, R472). -/
def State.countBad (s : State) (p : PortId) (crcBad unc : Bool) : State :=
  let s := if crcBad then s.errCount p 48 else s
  if unc then (s.errCount p 32).logErr (unitCode 9 p.val) 0x10 0 0 0 none |>.2 else s

/-- A DATA flit that cannot be accepted: the first asks for the expected SEQ again (R409). -/
def State.askRetry (s : State) (p : PortId) : State :=
  let x := s.port p
  if x.asked then s
  else s.setPort p { x.sendCtl (2 + x.expSeq.toNat * 2 ^ 8) [] with asked := true }

/-- Return the buffer credits of a consumed packet. -/
def Port.freeCredits (x : Port) (v : Fin 8) (frees : List Bool) : Port :=
  { x with ret := x.ret.set v (x.ret[v] + frees.countP (· = false)), retSh := x.retSh + frees.countP (· = true) }

/-- A packet has arrived whole: it waits to be consumed, or is refused (R416). -/
def State.arrived (s : State) (p : PortId) (v : Fin 8) (k : Packet) (frees : List Bool) : State :=
  if (ptypeClass k.ptype.toNat).isNone || !lenOk k.ptype.toNat k.data.length || k.cls ≠ v.val / 2 then
    ((s.refused p k).modPort p (fun x => x.freeCredits v frees))
  else s.modPort p (fun x => { x with rx := x.rx ++ [⟨v, k, frees⟩] })

/-- Cut the packets that begin at a slot of a flit; the flit's credit goes with the last of them. `fuel` bounds
their number. -/
def State.cutPackets (s : State) (p : PortId) (v : Fin 8) (sh : Bool) : Nat → List (BitVec 128) → State
  | 0, _ => s.modPort p (fun x => x.freeCredits v [sh])
  | _ + 1, [] => s.modPort p (fun x => x.freeCredits v [sh])
  | n + 1, h :: r =>
    let k := Packet.ofHeader h
    if k.1.ptype = 0 then s.modPort p (fun x => x.freeCredits v [sh])
    else
      let data := r.take k.2
      let rest := r.drop k.2
      let pkt : Packet := { k.1 with data := data }
      if data.length < k.2 then
        s.modPort p (fun x => { x with part := x.part.set v (some ⟨pkt, k.2 - data.length, [sh]⟩) })
      else
        let more := match rest with
          | [] => false
          | a :: _ => (Packet.ofHeader a).1.ptype ≠ 0
        let t := s.arrived p v pkt (if more then [] else [sh])
        if more then t.cutPackets p v sh n rest else t

/-- The packets of an accepted DATA flit (R415): the continuation of a packet of the channel, then those that
begin in it. -/
def State.takePackets (s : State) (p : PortId) (raw : BitVec 2048) : State :=
  let v : Fin 8 := Fin.ofNat 8 (flitField raw 6 4)
  let sh := bit raw 7
  let slots := (List.range 15).map (flitSlot raw)
  let first := flitField raw 51 48
  let rest := if first < 15 then slots.drop first else []
  match (s.port p).part[v] with
  | none => s.cutPackets p v sh 16 rest
  | some q =>
    let got := slots.take q.missing
    let pkt : Packet := { q.pkt with data := q.pkt.data ++ got }
    if got.length < q.missing then
      s.modPort p (fun x => { x with part := x.part.set v (some ⟨pkt, q.missing - got.length, q.frees ++ [sh]⟩) })
    else
      let more := match rest with
        | [] => false
        | a :: _ => (Packet.ofHeader a).1.ptype ≠ 0
      let s := s.modPort p (fun x => { x with part := x.part.set v none })
      let t := s.arrived p v pkt (if more then q.frees else q.frees ++ [sh])
      if more then t.cutPackets p v sh 16 rest else t

/-- Whether a port's receiver works: it exchanges capabilities or carries traffic, or loops back. -/
def Port.receives (x : Port) : Bool := x.st = 4 || x.st = 5 || x.st = 6 || x.st = 0xA

/-- DATA_FLIT (R409, R410, R422): accepted with a right CRC, no uncorrectable codeword and the expected SEQ; in
STANDBY it is answered with BOOT_NAK. A reserved TYPE counts as a CRC error (R408). -/
def execDataFlit (p : PortId) (raw : BitVec 2048) (unc : Bool) (s : State) : Res State :=
  let x := s.port p
  let type := flitField raw 3 0
  let bad := !flitOk raw
  if !x.receives then .next s
  else if bad || unc then
    let s := s.countBad p bad unc
    .next (if x.st = 6 then s.askRetry p else s)
  else if 4 ≤ type then .next (s.countBad p true false)
  else if type ≠ 1 then .next s
  else if x.st = 5 then .next (s.sendCap p 3 0 0)
  else if x.st ≠ 6 then .next s
  else
    let s := s.takeReturns p raw
    let x := s.port p
    if BitVec.ofNat 12 (flitField raw 19 8) ≠ x.expSeq then .next (s.askRetry p)
    else
      let n := x.nRx
      let s := s.setPort p { x with expSeq := x.expSeq + 1, asked := false, ackDue := true, nRx := n + 1 }
      let s := (s.countEvent (unitCode 9 p.val) 0x0901 1).mark p 0x0E02 n false (s.port p).pgen
      .next ((s.takePackets p raw).pump p)

/-- NULL_FLIT (R408): acknowledgements and credits. -/
def execNullFlit (p : PortId) (raw : BitVec 2048) (unc : Bool) (s : State) : Res State :=
  let bad := !flitOk raw
  if !(s.port p).receives then .next s
  else if bad || unc then .next (s.countBad p bad unc)
  else if flitField raw 3 0 = 0 && (s.port p).st = 6 then .next (s.takeReturns p raw)
  else .next s

/-- Resend from a SEQ (R409), counting consecutive resends without progress. -/
def State.resendFrom (s : State) (p : PortId) (seq : BitVec 12) (timeout : Bool) : State :=
  let x := s.port p
  let l := x.replay.dropWhile (fun f => f.seq ≠ seq)
  if l.isEmpty || 16 ≤ x.resends then s
  else
    let s := s.modPort p (fun x => { x with resends := x.resends + 1 })
    let s := (s.errCount p 16).emit (unitCode 9 p.val) 0x0902 none (seq.setWidth 64) (if timeout then 1 else 0)
    s.resendList p l

/-- RETRY_REQ (R409): everything from the SEQ it names is sent again, in the original order. -/
def execRetryReq (p : PortId) (raw : BitVec 2048) (unc : Bool) (s : State) : Res State :=
  let bad := !flitOk raw
  if !(s.port p).receives then .next s
  else if bad || unc then .next (s.countBad p bad unc)
  else if flitField raw 3 0 = 2 && (s.port p).st = 6 then
    .next ((s.takeReturns p raw).resendFrom p (BitVec.ofNat 12 (flitField raw 19 8)) false)
  else .next s

/-- RETRY_TIMEOUT (R409): no acknowledgement progress for 2 µs. -/
def execRetryTimeout (p : PortId) (s : State) : Res State :=
  let x := s.port p
  match x.st, x.replay with
  | 6, f :: _ => .next (s.resendFrom p f.seq true)
  | _, _ => .next s

/-- RETRAIN (R409, R434): after sixteen resends without progress, or when lanes fail, an ACTIVE port retrains on the
other lanes, with a LINK record (R472). -/
def execRetrain (p : PortId) (failed : BitVec 4) (s : State) : Res State :=
  let x := s.port p
  if x.st ≠ 6 || (failed = 0 && x.resends < 16) then .next s
  else
    let s := s.leaveFor p 7 (some (if failed = 0 then 2 else 3))
    let s := s.modPort p (fun x => { x with locked := 0, failed := failed, resends := 0 })
    .next (s.logErr (unitCode 9 p.val) 0x10 0 0 0 none).2

/-- RETRAIN_TIMEOUT (R419): no lane locked within 50 ms. -/
def execRetrainTimeout (p : PortId) (s : State) : Res State :=
  if (s.port p).st = 7 then .next (s.portDown p 1 (s.port p).reason) else .next s

/-- LOSS_OF_SIGNAL (R419, R433). -/
def execLossOfSignal (p : PortId) (s : State) : Res State :=
  let st := (s.port p).st
  if 2 ≤ st.toNat && st.toNat ≤ 9 then .next (s.portDown p 1 1) else .next s

/-- LNK_HOLD_EXPIRY (R433): the port did not return in time. -/
def execLnkHoldExpiry (p : PortId) (s : State) : Res State :=
  if (s.port p).holding && (s.port p).st ≠ 6 then .next (s.discardHold p) else .next s

/-! ## LNK_CTL (R440) -/

/-- Effects of a change of EN and LOOP. -/
def State.lnkCtlApply (s : State) (p : PortId) (v : W64) : State :=
  let was := s.reg (lnk p 0)
  let en := bit was 0 && s.bonded p
  let s := s.applyWrite (lnk p 0) v
  if en && !bit v 0 then s.portDown p 0 5
  else
    let s := if !en && bit v 0 then s.portState p 1 else s
    if !bit was 3 && bit v 3 && (s.port p).st ≠ 0 then s.leaveFor p 0xA none
    else if bit was 3 && !bit v 3 && (s.port p).st = 0xA then s.portState p 3
    else s

/-- A write of LNK_CTL: LMAX 0, and EN on a port not bonded out, are rejected. -/
def State.lnkCtlWrite (s : State) (p : PortId) (src : Source) (v : W64) : State :=
  if bits v 7 6 = 0 || (bit v 0 && !s.bonded p) then s.reject src (lnk p 0) else s.lnkCtlApply p v

/-- LNK_CTL. -/
def execLnkCtl (p : PortId) (src : Source) (v : W32) (s : State) : Res State :=
  s.inOrder src (.write 0 (lnk p 0) false (v.setWidth 64)) fun s =>
  .next (s.gate src (lnk p 0) (fun s => s.lnkCtlWrite p src (v.setWidth 64)))

/-! ## Epochs (R429, R447) -/

/-- A write of RTE_EPOCH: with FLIP the epochs switch, between two packets at every port; packets already sent on an
ordered route are marked. -/
def State.epochWrite (s : State) (v : W64) : State :=
  let s := s.setFld 0xD80018 11 4 (bits v 11 4)
  if !bit v 1 then s
  else
    let cur := 1 - s.epoch
    let s := s.setFld 0xD80018 0 0 cur
    let s := s.emit (unitCode 0x0A 0) 0x0A01 none (BitVec.ofNat 64 cur) (if bit v 2 then 1 else 0)
    if bit v 2 then
      { s with ordHold := true, odrainEnd := s.gtime + BitVec.ofNat 64 (1000 * bits v 11 4),
               ports := s.ports.map (fun x => { x with
                 txq := x.txq.map (fun e => { e with old := e.old || e.pkt.ord }),
                 replay := x.replay.map (fun f => { f with old := f.old || (f.pkt.map (·.ord)).getD f.old }) }) }
    else s

/-- FLIP. -/
def execFlip (src : Source) (v : W32) (s : State) : Res State :=
  s.inOrder src (.write 0 0xD80018 false (v.setWidth 64)) fun s =>
  .next (s.gate src 0xD80018 (fun s =>
    if bit (s.reg 0xD80018) 31 then s.reject src 0xD80018 else s.epochWrite (v.setWidth 64)))

/-- ORDERED_HOLD_RELEASE (R429): ODRAIN has passed (log entry 8), and what was sent on the old routes has been
acknowledged. -/
def execOrderedHoldRelease (s : State) : Res State :=
  if !s.ordHold || (List.finRange 24).any (fun p =>
      (s.port p).txq.any (·.old) || (s.port p).replay.any (·.old)) then .next s
  else
    let s := if s.gtime.toNat < s.odrainEnd.toNat then { s with gtime := s.odrainEnd } else s
    let held := s.ordHeld
    .next (held.foldl State.send { s with ordHold := false, ordHeld := [] })

/-! ## Taking a packet (R412, R430, R431) -/

/-- The oldest packet of a channel of a port, of a type. -/
def Port.headOf (x : Port) (type : Nat) : Option RxPkt :=
  x.rx.find? (fun e => e.pkt.ptype.toNat = type && (x.rx.find? (fun f => f.vc = e.vc)) = some e)

/-- Take a packet of a type from a port, or from this node itself, whose credits return. -/
def State.takePacket (s : State) (port : Option PortId) (type : Nat) : Option (Packet × State) :=
  match port with
  | none =>
    match s.localQ.find? (fun k => k.ptype.toNat = type &&
        s.localQ.find? (fun j => j.cls = k.cls) = some k) with
    | some k => some (k, { s with localQ := s.localQ.erase k })
    | none => none
  | some p =>
    match (s.port p).headOf type with
    | some e =>
      some (e.pkt, (s.modPort p (fun x => { x with rx := x.rx.erase e }.freeCredits e.vc e.frees)).pump p)
    | none => none

/-- An entry of the key table (R430). -/
def State.keyEntry (s : State) (n : Nat) : BitVec 128 := BitVec.ofNat 128 (s.rteWord (0x2000 + 16 * n) 16)

/-- Whether a key-table entry admits a packet that arrived on a port, with the rights asked, bits [28:24], and
with the bytes of its access in its window. -/
def keyAdmits (e : BitVec 128) (key : W16) (p : PortId) (rights : Nat) (span : Option (Nat × Nat)) : Bool :=
  bit e 16 && e.extractLsb' 0 16 = key && bit e (40 + p.val) && Nat.land (bits e 28 24) rights = rights &&
  (match span with
   | none => true
   | some (a, n) => bits e 84 64 ≤ a / 2 ^ 25 && (a + n - 1) / 2 ^ 25 ≤ bits e 105 85)

/-- Rights a packet needs at this node, as bits [28:24] of an entry (R431). -/
def rightsOf (type : Nat) : Nat :=
  match type with
  | 0x01 => 1 | 0x02 | 0x03 => 2 | 0x04 => 7 | 0x08 | 0x09 | 0x0A => 8 | _ => 0

/-- Whether a packet passes R431 at a receiving port; `span` is the memory it accesses here. -/
def State.admitted (s : State) (port : Option PortId) (k : Packet) (span : Option (Nat × Nat)) : Bool :=
  let mgmt := k.ptype = 0x20#6
  let here := k.dest.toNat = s.nodeId
  let io (a : Nat) : Bool := regionOf a = .window || regionOf a = .host
  let rsp := k.ptype ≠ 0x10#6 || !here || s.tags.any (fun t => t.tag = k.tag && t.dest = k.src && t.pkey = k.pkey)
  let memOk := match span with
    | some (a, n) => !here || !(io a || io (a + n - 1))
    | none => true
  rsp && memOk && (mgmt = (k.pkey = 0)) &&
  (match port with
   | none => true
   | some p => mgmt || (List.range 64).any (fun n =>
       keyAdmits (s.keyEntry n) k.pkey p (if here then rightsOf k.ptype.toNat else 16) (if here then span else none)))

/-- A refused packet is counted and answered (R431). -/
def State.refuse (s : State) (port : Option PortId) (k : Packet) : State :=
  let s := match port with
    | some p => s.refused p k
    | none => s
  match k.answer s.nodeId 0x02 [] with
  | some a => s.send a
  | none => s

/-- Send an answer to a packet. -/
def State.reply (s : State) (k : Packet) (status : Nat) (data : List (BitVec 128)) : State :=
  match k.answer s.nodeId status data with
  | some a => s.send a
  | none => s

/-- Take the next packet of a type: one not admitted is refused, one for another node goes on, and one for this
node in SAFE HOLD is answered UNAVAILABLE (R436). -/
def State.withPacket (s : State) (port : Option PortId) (type : Nat) (span : Packet → Option (Nat × Nat))
    (local_ : Packet → State → State) : Res State :=
  match s.takePacket port type with
  | none => .next s
  | some (k, t) =>
    if !t.admitted port k (span k) then .next (t.refuse port k)
    else if k.dest.toNat ≠ t.nodeId then .next (t.send k)
    else if t.safeHold && type ≠ 0x10 then .next (t.reply k 0x01 [])
    else .next (local_ k t)

/-! ## Memory requests from other nodes (R416, R418) -/

/-- Bytes a request of a type covers (R416): a RD one slot at least, a write its data, an atomic 8. -/
def reqSpan (k : Packet) : Option (Nat × Nat) :=
  match k.ptype.toNat with
  | 0x01 => some (k.addr.toNat, 16)
  | 0x02 => some (k.addr.toNat, 16 * k.data.length)
  | 0x03 => some (k.addr.toNat, 16 * (k.data.length - 1))
  | _ => some (k.addr.toNat, 4)

/-- An address maps to a unit out of service (R418), rather than to nothing. -/
def State.unitOut (s : State) (a : Nat) : Bool :=
  match regionOf a with
  | .folio => s.folioMap ≠ 3 && (s.folioMap = 0 || a < 0x20000000) && bit s.folioFailed (folioBank s.folioMap a)
  | .text => s.txbMap ≠ 3 && (s.txbMap = 0 || a - 0x800000000 < 0x400000000) &&
      !bit (s.reg 0x20) (txbChannel s.txbMap (a - 0x800000000))
  | .hbm | .lpd | .cxl =>
    bit (s.reg (tierReg (regionOf a))) 31 &&
      (match s.tierUnit (regionOf a) (a - (regionOf a).base) with
       | some u => !s.unitUp (regionOf a) u.1
       | none => false)
  | _ => false

/-- Status that stops an access to n bytes (R418), 0 when none does. -/
def State.accessStatus (s : State) (a n : Nat) (read : Bool) : Nat :=
  let as := (List.range n).map (fun i => a + i)
  if as.any (fun x => s.unitOut x) then 0x01
  else if as.any (fun x => !s.backed x) then 0x03
  else if read && (s.poisonedIn a n).isSome then 0x04
  else 0

/-- RD (R416, R431): the number of slots asked for is known to the requester's tag alone: a free value from 1 to
16. Reading outside the window is refused. -/
def execRd (port : Option PortId) (s : State) : Res State :=
  s.withPacket port 0x01 reqSpan (fun k s =>
    let d := s.fresh
    let n := 16 * (1 + d.1.toNat % 16)
    let a := k.addr.toNat / 16 * 16
    let s := d.2
    if !s.admitted port k (some (a, n)) then s.refuse port k
    else
      let s := s.wakeFor a
      let st := s.accessStatus a n true
      if st ≠ 0 then s.reply k st []
      else
        let r := s.dmaRead a n
        r.2.reply k 0 (slotsOf 16 (leBytes n r.1)))

/-- WR (R416, R431). -/
def execWr (port : Option PortId) (s : State) : Res State :=
  s.withPacket port 0x02 reqSpan (fun k s =>
    let a := k.addr.toNat / 16 * 16
    let s := s.wakeFor a
    let st := s.accessStatus a (16 * k.data.length) false
    if st ≠ 0 then s.reply k st [] else (s.dmaWrite a k.bytes).reply k 0 [])

/-- WRBE (R416): the first data slot holds a byte enable for each byte after it. -/
def execWrbe (port : Option PortId) (s : State) : Res State :=
  s.withPacket port 0x03 reqSpan (fun k s =>
    let a := k.addr.toNat / 16 * 16
    let en := k.data.headD 0
    let bs := k.bytes.drop 16
    let s := s.wakeFor a
    let st := s.accessStatus a bs.length false
    if st ≠ 0 then s.reply k st []
    else
      let s := (List.range bs.length).foldl (fun s i =>
        if bit en i then s.dmaWrite (a + i) [bs.getD i 0] else s) s
      (if (List.range bs.length).all (fun i => bit en i) then s.clearCovered a bs.length else s).reply k 0 [])

/-- ATOM (R285, R416): performed at the far-atomic unit of the target. What the data slot holds is read by
`Config.atomDecode` (log entry 14). It runs behind the atomics that entered the unit's queue before it (R286). -/
def execAtom (port : Option PortId) (s : State) : Res State :=
  s.withPacket port 0x04 reqSpan (fun k s =>
    let d := Config.atomDecode (k.data.headD 0)
    let n := if d.2.1 = 4 then 4 else 8
    let a := k.addr.toNat
    let s := s.wakeFor a
    let st := s.accessStatus a n true
    if !s.admitted port k (some (a, n)) then s.refuse port k
    else if st ≠ 0 then s.reply k st []
    else
      let s := s.runAtomicsTo (fun e => s.unitOf e.addr = s.unitOf a)
      let r := s.execAtomic a n d.1 d.2.2.1.toNat d.2.2.2.toNat
      r.2.reply k 0 [BitVec.ofNat 128 r.1])

/-! ## Streams (R417, R418, R432, R437 to R439) -/

/-- The destination stream of a STREAM packet. -/
def Packet.stream (k : Packet) : W16 := k.addr.extractLsb' 30 16

/-- The full position of a packet at a stream (R417). -/
def fullPos (prog field : Nat) : Nat :=
  let m := 2 ^ 38
  prog + (field * 256 % m + m - prog % m) % m

/-- A stream may take a packet: it is ACTIVE, and its owner carries the packet's key (R432). -/
def State.streamTakes (s : State) (x : Stream) (k : Packet) : Bool × State :=
  let e := s.ctxEntry x.owner
  (x.state = 2 && e.1.isSome && pkeyOf e.1 = k.pkey, e.2)

/-- A RECEIVE stream takes the data of a packet (R417, R432): within its credits, from the peer it names. -/
def State.landsHere (s : State) (k : Packet) : Bool × State :=
  let x := s.stream k.stream
  let t := s.streamTakes x k
  (t.1 && x.kind = 5 && x.u 0x60 4 = k.src.toNat &&
    fullPos x.prog (bits k.addr 29 0) + 16 * k.data.length ≤ x.granted, t.2)

/-- No mover of a frame has a free slot for the data of the next SDATA packet, which then waits in its buffer (R357,
R412). -/
def State.sdataWaits (s : State) (port : Option PortId) : Bool :=
  match s.takePacket port 0x08 with
  | some (k, t) => (s.frames[frameOf k.stream]).freeMover.isNone && t.admitted port k none && k.dest.toNat = t.nodeId &&
      !t.safeHold && (t.landsHere k).1
  | none => false

/-- SDATA (R417, R432): the data lands in the RECEIVE stream that names the sender, by an operation of its frame's movers
(R350, R357). -/
def execSdata (port : Option PortId) (s : State) : Res State :=
  if s.sdataWaits port then .next s
  else s.withPacket port 0x08 (fun _ => none) (fun k s =>
    let t := s.landsHere k
    if t.1 then
      (t.2.landPut k.stream (fullPos (s.stream k.stream).prog (bits k.addr 29 0)) k.bytes).performAll k.stream 64
    else t.2.refuse port k)

/-- SCRED (R359, R432): credits for the SEND stream that names the sender. -/
def execScred (port : Option PortId) (s : State) : Res State :=
  s.withPacket port 0x09 (fun _ => none) (fun k s =>
    let x := s.stream k.stream
    let t := s.streamTakes x k
    if t.1 && x.kind = 4 && x.u 0x60 4 = k.src.toNat then
      (t.2.setStream k.stream (x.put 0x14 4 (x.u 0x14 4 + bits k.addr 29 0))).streamEvent k.stream 1
    else t.2.refuse port k)

/-- A partial or a broadcast chunk arrives at a collective stream (R438). -/
def State.takeColl (s : State) (id : W16) (x : Stream) (rank level pos : Nat) (bs : List Byte) : State :=
  let n := min 256 (mdLen x.mdesc - pos)
  let s := s.streamEvent id 0
  if rank = x.rank + 2 ^ level then
    (s.setStream id { s.stream id with parts := (s.stream id).parts ++ [(level, pos, bs.take n)] }).collectAll id
      (mdLen x.mdesc / 256 + 1) 0
  else
    (((s.landPut id pos (bs.take n)).sendDown x pos (bs.take n))).performAll id 64

/-- Whether a descriptor's rank and level fit the tree and STEP at a receiver (R438, R439). -/
def collFits (x : Stream) (rank level : Nat) : Bool :=
  (x.stepOf ≠ 1 && rank = x.rank + 2 ^ level && x.rank % 2 ^ (level + 1) = 0 && rank < x.size) ||
  (x.stepOf ≠ 0 && x.rank = rank + 2 ^ level && x.rank ≠ 0 && treeParent x.rank = level)

/-- COLL (R432, R437 to R439): a descriptor that does not agree ends the stream with GROUP_MISMATCH. -/
def execColl (port : Option PortId) (s : State) : Res State :=
  s.withPacket port 0x0A (fun _ => none) (fun k s =>
    let x := s.stream k.stream
    let t := s.streamTakes x k
    let d := k.data.headD 0
    let rank := bits d 17 0
    let level := bits d 22 18
    let pos := fullPos x.prog (bits k.addr 29 0)
    let lists := match t.2.cgEntry x with
      | some a => rank < x.size && (t.2.cgMember a rank).1 = k.src.toNat
      | none => false
    if t.1 && x.kind = 6 && lists && pos + 16 * (k.data.length - 1) ≤ x.granted then
      if d.extractLsb' 64 64 = x.cgCrc && bits d 63 23 = 0 && collFits x rank level then
        t.2.takeColl k.stream x rank level pos (k.bytes.drop 16)
      else
        let f := t.2.fresh
        (f.2.endStream k.stream 0x07 (f.1.setWidth 32)).reply k 0x07 []
    else t.2.refuse port k)

/-- Whether a SNAK from a node about a peer stream names this stream (R418). -/
def State.snakNames (s : State) (x : Stream) (node peer : Nat) : Bool :=
  if x.kind = 4 || x.kind = 5 then x.u 0x60 4 = node && x.u 0x64 2 = peer
  else if x.kind = 6 then
    match s.cgEntry x with
    | some a => (List.range x.size).any (fun r => s.cgMember a r = (node, peer))
    | none => false
  else false

/-- SNAK (R418): the stream that names the peer ends; one that matches no stream is discarded. -/
def execSnak (port : Option PortId) (s : State) : Res State :=
  s.withPacket port 0x0B (fun _ => none) (fun k s =>
    match s.streams.find? (fun e => s.snakNames e.2 k.src.toNat k.stream.toNat &&
        (e.2.state = 2 || e.2.state = 3) && pkeyOf (s.ctxEntry e.2.owner).1 = k.pkey) with
    | none => s
    | some e =>
      let st : Byte := match bits k.addr 7 0 with
        | 2 => 0x04
        | 7 => 0x07
        | _ => 0x03
      let d := s.fresh
      d.2.endStream (BitVec.ofNat 16 e.1) st (d.1.setWidth 32))

/-! ## Responses (R416, R418) -/

/-- Error type of a response's status (R469, R472). -/
def rspError (st : Nat) : Nat := if st = 4 then 0x08 else 0x09

/-- The response to a quire's load or atomic (R265). -/
def State.rspLoad (s : State) (i : QuireId) (tag : BitVec 12) (st : Nat) (bs : List Byte) : State :=
  match (s.q i).stall with
  | .remote t dst len va acc =>
    if t ≠ tag then s
    else if st = 0 then
      let off := if acc = 4 then 0 else va.toNat % 16
      s.finishLoad i dst len (BitVec.ofNat 64 (leNat ((bs.drop off).take 8)))
    else s.failLoad i (rspError st) (unitCode 0x0A 0) va acc
  | _ => s

/-- The response to a mover's request (R357): a refusal is reported as status 0x04, any other failure as 0x03 (R366). -/
def State.rspMover (s : State) (id : W16) (tag : BitVec 12) (st : Nat) (bs : List Byte) : State :=
  match (s.opsOf id).find? (fun o => o.tag = some tag) with
  | none => s
  | some o =>
    if st ≠ 0 then
      let l := s.logErr (unitCode 0x0A 0) (rspError st) 0 0 0 (some (s.stream id).owner)
      l.2.opFailed o 0 (if st = 2 then 0x04 else 0x03) l.1
    else if 0 < o.wr then
      let u := unitCode 3 (frameOf id).val
      let s := (s.countEvent u 0x0300 (if o.land then 0 else o.wr)).countEvent u 0x0301 o.wr
      (s.putOp o (some { o.next o.wr with tag := none, wr := 0 })).landed o o.wr true
    else
      let got := (bs.drop o.fetch.2.1).take o.fetch.2.2
      let p : MoverOp := { o with tag := none }
      s.putOp o (some (match o.fetch.1 with
        | .src => { p with buf := got }
        | .dst => { p with dbuf := got }
        | .idx => { p with ibuf := got }))

/-- RSP (R418): completes the request of its tag, which returns to the pool. -/
def execRsp (port : Option PortId) (s : State) : Res State :=
  s.withPacket port 0x10 (fun _ => none) (fun k s =>
    match s.tags.find? (fun t => t.tag = k.tag && t.dest = k.src && t.pkey = k.pkey) with
    | none => s
    | some t =>
      let s : State := { s with tags := s.tags.erase t }
      let st := bits k.addr 7 0
      match t.who with
      | .load i => s.rspLoad i k.tag st k.bytes
      | .store i va =>
        if st = 0 then s
        else
          let l := s.logErr (unitCode 0x0A 0) (rspError st) 0 0 0 (some (s.q i).ctx)
          l.2.latchStoreErr i va l.1
      | .mover id => s.rspMover id k.tag st k.bytes
      | .record id =>
        if st = 0 then s
        else (s.logErr (unitCode 3 (frameOf id).val) 0x0B 0 0 0 (some (s.stream id).owner)).2
      | .held => s)

/-- MGMT (R431, R492): into the active headband's ring of 64, or dropped with a ring event when it is full. -/
def execMgmt (port : Option PortId) (s : State) : Res State :=
  s.withPacket port 0x20 (fun _ => none) (fun k s =>
    if s.mgmt.length < 64 then { s with mgmt := s.mgmt ++ [k] }
    else s.emit (unitCode 0x0B (s.fld 0x20000 0 0)) 0x0B05 none (k.src.setWidth 64) 0)

/-- STREAM_REQUEST_TIMEOUT (R418): a mover's request is abandoned and its tag held. -/
def execStreamRequestTimeout (tag : BitVec 12) (s : State) : Res State :=
  match s.tags.find? (fun t => t.tag = tag) with
  | some t =>
    (match t.who with
    | .mover id =>
      let s : State := { s with tags := s.tags.replace t { t with who := .held } }
      (match (s.opsOf id).find? (fun o => o.tag = some tag) with
      | some o =>
        let l := s.logErr (unitCode 0x0A 0) 0x0A 0 0 0 (some (s.stream id).owner)
        .next (l.2.opFailed o 0 0x03 l.1)
      | none => .next s)
    | .record _ => .next { s with tags := s.tags.replace t { t with who := .held } }
    | _ => .next s)
  | none => .next s

/-- TAG_HOLD_EXPIRY (R418): 4 × STMO has passed, and the held tag returns to the pool. -/
def execTagHoldExpiry (tag : BitVec 12) (s : State) : Res State :=
  match s.tags.find? (fun t => t.tag = tag && t.who = .held) with
  | some t => .next { s with tags := s.tags.erase t }
  | none => .next s

end Sys2Proof.Machine
end

