-- ==== Sys2Proof/Machine/Power.lean ====
section
/-!
DEFINITION. Clocks, performance points, power domains and device power states (18_power_clocks_boot.md, R494 to R520,
R526 to R531).
-/
namespace Sys2Proof.Machine

/-- Who may write the power, clock and reset region (R494). -/
def pwrWriter : Source → Bool
  | .host | .headband | .debug => true
  | _ => false

/-- PWR_DEV.STATE (R511): 0 ACTIVE, 1 IDLE, 2 SLEEP. -/
def State.devState (s : State) : Nat := s.fld 0x10000 17 16

/-- Role profile in force (R462). -/
def State.role (s : State) : Nat := s.fld 0x300 10 8

/-- Hold a write behind the BUSY bit of its register (R498, R505, R511). -/
def State.hold (s : State) (off : Nat) (src : Source) (v : W64) : State :=
  { s with heldWrites := s.heldWrites ++ [(off, src, v)] }

/-- Perform the writes that a register's BUSY bit held, in order; one that finds it BUSY again is held again. -/
def State.unhold (s : State) (off : Nat) (f : State → Source → W64 → State) : State :=
  (s.heldWrites.filter (fun e => e.1 = off)).foldl (fun s e => f s e.2.1 e.2.2)
    { s with heldWrites := s.heldWrites.filter (fun e => e.1 ≠ off) }

/-! ## Performance points (R497 to R499) -/

/-- A write of CLK_PP (R498). -/
def State.clkWrite (s : State) (src : Source) (v : W64) : State :=
  if !pwrWriter src then s.reject src 0x10008
  else if bit (s.reg 0x10008) 31 then s.hold 0x10008 src v
  else if bits v 1 0 = 3 then s.reject src 0x10008
  else s.applyWrite 0x10008 v

/-- CLK_PP. -/
def execClkPp (src : Source) (v : W32) (s : State) : Res State :=
  s.inOrder src (.write 0 0x10008 false (v.setWidth 64)) fun s =>
  .next (s.gate src 0x10008 (fun s => s.clkWrite src (v.setWidth 64)))

/-- Governor target of a role (R463). -/
def roleTarget : Nat → Nat
  | 2 => 1 | 3 => 2 | _ => 0

/-- The fastest point that MAX and the target allow (R498). -/
def State.basePoint (s : State) : Nat :=
  let t := s.fld 0x10008 5 4
  max (s.fld 0x10008 1 0) (if t = 3 then roleTarget s.role else t)

/-- Steps of lowering the point, and of throttling, that the governor has applied (R529). -/
def State.steps (s : State) (lower : Bool) : Nat := s.govSteps.countP (fun b => b = lower)

/-- Move towards a point (R499): to a slower one the dividers change at once; to a faster one its voltage is
requested first. -/
def State.ppMove (s : State) (p : Nat) : State :=
  let cur := s.fld 0x10008 9 8
  if s.vreq.isSome || p = cur then s
  else if cur < p then s.setFld 0x10008 9 8 p
  else { s.setFld 0x10008 31 31 1 with vreq := some (BitVec.ofNat 2 p) }

/-- A transition ends, and the writes it held are performed. -/
def State.ppEnd (s : State) : State :=
  ({ s.setFld 0x10008 31 31 0 with vreq := none } : State).unhold 0x10008 State.clkWrite

/-- VOLTAGE_SETTLE (R499): both rails have reached the request, and the dividers change. -/
def execVoltageSettle (s : State) : Res State :=
  match s.vreq with
  | some p => .next (s.setFld 0x10008 9 8 p.toNat).ppEnd
  | none => .next s

/-- VOLTAGE_TIMEOUT (R499): the transition is abandoned. -/
def execVoltageTimeout (s : State) : Res State :=
  .next (if s.vreq.isSome then s.ppEnd else s)

/-! ## The governor (R529 to R531) -/

/-- The role's first response is to throttle (R463). -/
def roleThrottles (role : Nat) : Bool := role = 1 || role = 4

/-- The next step left: true lowers the point, false throttles (R529). -/
def State.nextStep (s : State) : Option Bool :=
  let lower : Bool := decide (s.basePoint + s.steps true < 2)
  let throttle : Bool := decide (s.steps false < 6)
  if roleThrottles s.role then (if throttle then some false else if lower then some true else none)
  else (if lower then some true else if throttle then some false else none)

/-- DUTY and CAPPED of the steps in force, and the point they ask for (R529). -/
def State.applySteps (s : State) : State :=
  ((s.setFld 0x10018 44 40 (16 - 2 * s.steps false)).setFld 0x10018 0 0 (if s.govSteps.isEmpty then 0 else 1)).ppMove
    (min 2 (s.basePoint + s.steps true))

/-- GOVERNOR_LOOP (R529): the average block power of the loop, and the step it leads to. While the trip of R531
holds, its settings stand. In SLEEP the loop does not run. -/
def execGovernorLoop (power : W16) (s : State) : Res State :=
  if s.devState = 2 then .next s
  else
    let s := s.setFld 0x10018 63 48 power.toNat
    let capw := s.fld 0x10010 9 0
    let hot : Bool := decide (s.fld 0x10020 23 16 ≤ s.fld 0x10020 7 0)
    if bit (s.reg 0x10018) 2 then .next s
    else if capw < power.toNat || hot then
      match s.nextStep with
      | some b => .next ({ s.setFld 0x10018 1 1 0 with govSteps := b :: s.govSteps, govLow := 0 } : State).applySteps
      | none => .next ({ s.setFld 0x10018 1 1 (if capw < power.toNat then 1 else 0) with govLow := 0 } : State).applySteps
    else
      let low := if 100 * power.toNat < 95 * capw then min 10 (s.govLow + 1) else 0
      .next ({ s.setFld 0x10018 1 1 0 with
        govLow := low, govSteps := if low = 10 then s.govSteps.drop 1 else s.govSteps } : State).applySteps

/-- DROOP_ASSERT (R530). -/
def execDroopAssert (s : State) : Res State :=
  if s.droop then .next s
  else
    let n := s.fld 0x10018 31 16
    .next { s.setFld 0x10018 31 16 (if n = 0xFFFF then n else n + 1) with droop := true }

/-- DROOP_RELEASE (R530). -/
def execDroopRelease (s : State) : Res State := .next { s with droop := false }

/-- THERMAL_SAMPLE (R531): the hottest reading; at TTRIP the point is PP2 and DUTY 4, until it falls below
TTRIP − 5. -/
def execThermalSample (temp : Byte) (s : State) : Res State :=
  let s := s.setFld 0x10020 7 0 temp.toNat
  let trip := s.fld 0x10020 31 24
  if s.devState ≠ 2 && decide (trip ≤ temp.toNat) then
    let s : State := { s.setFld 0x10018 2 2 1 with
      govSteps := List.replicate (6 - s.steps false) false ++
        List.replicate (2 - (s.basePoint + s.steps true)) true ++ s.govSteps }
    let s := if s.vreq.isSome then s.ppEnd else s
    .next ((s.setFld 0x10008 9 8 2).setFld 0x10018 44 40 4)
  else if temp.toNat + 5 < trip then .next (s.setFld 0x10018 2 2 0)
  else .next s

/-! ## What a domain holds (R503, R504, R520, R521) -/

/-- Registers at offsets from lo to below hi return to their reset values. -/
def State.resetRegs (s : State) (lo hi : Nat) : State :=
  { s with win := s.win.filter (fun e => !(decide (lo ≤ e.1) && decide (e.1 < hi))) }

/-- A quire whose logic supply goes off (R503): all that it holds beside its retention list. -/
def State.coreLost (s : State) (i : QuireId) (all : Bool) : State :=
  let s := s.setQ i { st := (s.q i).st }
  if all then s.resetRegs (qwin i 0) (qwin i 0x10000) else s

/-- The contents of an engine's local data RAM after a loss of power (log entry 15). -/
def State.loseRam (s : State) (e : EngineId) : State :=
  let ram := (Config.lostMemory s.free).foldl (fun m c => if c.1 < 0x10000 then sSet unlistedByte m c.1 c.2 else m) []
  { s.modEng e (fun g => { g with ram := ram, dcache := [] }) with free := s.free + 1 }

/-- A frame as its signed images leave it (R523, step 8d). -/
def Frame.booted (fr : Frame) (f : Fin 4) : Frame :=
  { imem := (Config.bootImem f.val).foldl (fun m e => sSet 0 m e.1 e.2) [],
    dec := (Config.bootDec f.val).foldl (fun m e => sSet 0 m e.1 e.2) [],
    decOld := (Config.bootDec f.val).foldl (fun m e => sSet 0 m e.1 e.2) [],
    movers := fr.movers, inService := fr.inService }

/-- A stitch frame whose logic supply goes off: its data RAMs, and, without a retention list, everything (R503,
R521). -/
def State.stitchLost (s : State) (f : Fin 4) (all : Bool) : State :=
  let s := if all then (s.modFrameEngs f (fun g => { ({} : Engine) with halted := g.halted })).setFrame f
      (s.frames[f].booted f) else s
  (frameEngines f).foldl (fun s e => s.loseRam e) s

/-- What a domain loses when its logic supply goes off: all of it, or what is not kept in RETAINED (R503). -/
def State.loseDomain (s : State) (d : Nat) (all : Bool) : State :=
  if h : d < 34 then s.coreLost ⟨d, h⟩ all
  else if d < 68 then s
  else if d < 72 then s.stitchLost (Fin.ofNat 4 (d - 68)) all
  else if d = 72 then
    let s : State := { s with xlat := [], ctxCache := [], msiCache := [] }
    if all then
      { (s.resetRegs 0x100 0x10000).resetRegs 0xD80000 0xE00000 with
        queues := [], xlatInv := [], rte := [], evPhase := true }
    else s
  else if d < 79 then (if all then s.resetRegs (0xC00000 + 4 * (d - 73) * 0x10000) (0xC00000 + 4 * (d - 72) * 0x10000) else s)
  else if d < 81 then (if all then s.loseRange Region.hbm.base 0x18000000000 else s)
  else if d = 81 then (if all then s.loseRange Region.lpd.base 0x30000000000 else s)
  else if d = 83 then (if all then s.loseRange Region.text.base 0x1000000000 else s)
  else if d = 84 then (if all then s.loseRange 0 0x40000000 else s)
  else s

/-- A domain is about to leave ON (R507): ports stop driving, and controllers put their devices into
self-refresh. Why a port left ACTIVE is not stated: REASON is free. -/
def State.leaveOn (s : State) (d t : Nat) : State :=
  if 73 ≤ d && d < 79 then
    (List.range 4).foldl (fun s k =>
      let p : PortId := Fin.ofNat 24 (4 * (d - 73) + k)
      let r := s.fresh
      if (s.port p).st = 0 then s else r.2.portDown p 1 ((r.1.setWidth 3).setWidth 4)) s
  else (domainUnits d).foldl (fun s u =>
    let st := s.fld (tierStat u.1 u.2) 3 0
    if st = 3 || st = 4 || st = 6 then s.setUnitState u.1 u.2 (if t = 3 || d = 82 then 7 else 6) else s) s

/-- Training of a memory unit at a power-up (R459, R527): its cached result, or the factory's, verifies, or fresh
training succeeds, or fails; which is not for the block's commands to say: a free value. -/
def State.trainUnit (s : State) (r : Region) (n : Nat) : State :=
  let k := if r = .hbm then n else 8 + n
  let f := s.fresh
  let s := f.2
  if bit f.1 0 then (s.setFld (tierStat r n) 11 8 (if bit s.calTrain k then 2 else 3)).setUnitState r n 3
  else if bit f.1 1 then
    { (s.setFld (tierStat r n) 11 8 1).setUnitState r n 3 with calTrain := setBit s.calTrain k true }
  else (s.colophon (fun s => s.setFld 0x20 ((tierMax r).2 + n) ((tierMax r).2 + n) 0)).setUnitState r n 5 |>.availEvent

/-- The units of a domain that has returned to ON (R460, R507): out of self-refresh, or trained after OFF. -/
def State.unitsOn (s : State) (d : Nat) (trained : Bool) : State :=
  (domainUnits d).foldl (fun s u =>
    let st := s.fld (tierStat u.1 u.2) 3 0
    if st ≠ 6 && st ≠ 7 then s
    else if u.1 = .cxl then s.setUnitState u.1 u.2 (if bit s.cxlUp u.2 then 3 else 0)
    else if trained then s.setUnitState u.1 u.2 3
    else s.trainUnit u.1 u.2) s

/-- A lost save is found when its domain returns (R520): the domain takes its reset values, and is reported. -/
def State.findLost (s : State) (d : Nat) : State :=
  if bit s.domLost d then
    let s := s.loseDomain d true
    let s : State := { s with domLost := setBit s.domLost d false }
    if d < 64 then s.setFld 0x10048 d d 1 else s.setFld 0x10050 (d - 64) (d - 64) 1
  else s

/-- Move a domain to a state (R503, R507, R520): 0 ON, 1 GATED, 2 RETAINED, 3 OFF. -/
def State.switchDomain (s : State) (d t : Nat) : State :=
  let cur := s.domState d
  if cur = t then s
  else
    let s := if cur = 0 then s.leaveOn d t else s
    let s := if cur = 0 || t = 0 then s.pausePass d else s
    let s := if t = 3 then s.loseDomain d true else if t = 2 && decide (cur < 2) then s.loseDomain d false else s
    let s : State := { s with domSaved := setBit s.domSaved d (t = 2) }
    let lost := bit s.domLost d
    let s := if cur = 2 && decide (t < 2) then s.findLost d
      else if cur = 2 then { s with domLost := setBit s.domLost d false } else s
    let s := s.setFld (pwrDom d) 19 18 t
    if t = 0 then
      let s := s.unitsOn d (cur ≠ 3 && !lost)
      if d = 85 then s.ringStart (cur ≠ 3 && !lost) else s
    else s

/-! ## PWR_DOMd (R505 to R508) -/

/-- Whether a physical quire is bound, or neither IDLE nor OFFLINE (R506). -/
def State.quireTaken (s : State) (i : QuireId) : Bool :=
  ((List.finRange 32).any (fun n => s.bound[n].isSome && s.physOf n.val = some i)) ||
    ((s.q i).st ≠ .idle && (s.q i).st ≠ .offline) || (s.q i).action ≠ 0

/-- A frame holds streams: SF_STAT.ALLOC ≠ 0. -/
def State.allocated (s : State) (f : Nat) : Bool := s.streams.any (fun e => e.1 / 16384 = f && e.2.state ≠ 0)

/-- A reserved value of PWR_DOMd (R505, R506). -/
def State.domBad (s : State) (d : Nat) (v : W64) : Bool :=
  let req := bits v 1 0
  let core := d - 34
  let leaves : Bool := s.domState d = 0 && req ≠ 0
  let press : Bool := 34 ≤ d && d < 68
  s.devState ≠ 0 || (bit v 8 && !press) ||
  (decide (req < 2) && press && s.domState core ≠ 0) ||
  (decide (2 ≤ req) && decide (d < 34) && decide (s.domState (34 + d) < 2)) ||
  (leaves && decide (d < 68) && s.quireTaken (Fin.ofNat 34 (d % 34))) ||
  (leaves && decide (68 ≤ d) && decide (d < 72) && s.allocated (d - 68)) ||
  (req = 3 && ((d = 79 || d = 80) && bit (s.reg 0x940000) 31 || (d = 81 && bit (s.reg 0x940008) 31) ||
    (d = 82 && bit (s.reg 0x940010) 31))) ||
  ((d = 72 || d = 83 || d = 84) && req ≠ 0)

/-- A write of PWR_DOMd (R505, R506). -/
def State.domWrite (s : State) (d : Nat) (src : Source) (v : W64) : State :=
  if !pwrWriter src then s.reject src (pwrDom d)
  else if bit (s.reg (pwrDom d)) 31 then s.hold (pwrDom d) src v
  else if s.domBad d v then s.reject src (pwrDom d)
  else
    let s := s.applyWrite (pwrDom d) v
    if bits v 1 0 = s.domState d then s
    else { s.setFld (pwrDom d) 31 31 1 with domMove := s.domMove ++ [(d, bits v 1 0)] }

/-- DOMAIN_REQUEST. -/
def execDomainRequest (d : Fin 86) (src : Source) (v : W32) (s : State) : Res State :=
  s.inOrder src (.write 0 (pwrDom d.val) false (v.setWidth 64)) fun s =>
  .next (s.gate src (pwrDom d.val) (fun s => s.domWrite d.val src (v.setWidth 64)))

/-- A transition of a domain ends (R507). -/
def State.domEnd (s : State) (d t : Nat) : State :=
  ({ (s.switchDomain d t).setFld (pwrDom d) 31 31 0 with domMove := s.domMove.filter (fun e => e.1 ≠ d) } : State).unhold
    (pwrDom d) (fun s src v => s.domWrite d src v)

/-- PRESS_AUTO_GATE (R508): 4,096 PRESSCLK have passed without work. -/
def execPressAutoGate (q : QuireId) (s : State) : Res State :=
  let r := s.reg (pwrDom (34 + q.val))
  .next (if bit r 8 && bits r 1 0 = 0 && bits r 19 18 = 0 && !bit r 31 then s.setFld (pwrDom (34 + q.val)) 19 18 1 else s)

/-! ## Device power states (R510 to R515) -/

/-- Every domain, parents first. -/
def domOrder : List Nat := 72 :: (List.range 86).filter (fun d => d ≠ 72)

/-- The external tiers and link groups that a role keeps ON in IDLE, and STITCH (R463). -/
def roleKeeps (role d : Nat) : Bool :=
  if d < 72 then role = 3
  else if d < 79 then true
  else if d < 81 then true
  else if d = 81 then role ≠ 1
  else role ≠ 1 && role ≠ 2

/-- State of a domain in IDLE (R503). -/
def State.idleState (s : State) (d : Nat) : Nat :=
  if d < 68 then 3
  else if d = 72 || 83 ≤ d then 0
  else if roleKeeps s.role d then 0 else 2

/-- State of a domain in SLEEP (R503). -/
def sleepState (d : Nat) : Nat := if d < 68 || 84 ≤ d then 3 else 2

/-- RESULT of PWR_DEV. -/
def State.devResult (s : State) (n : Nat) : State := s.setFld 0x10000 27 24 n

/-- IDLE is entered (R512). -/
def State.enterIdle (s : State) : State :=
  let s := s.domMove.foldl (fun s e => s.domEnd e.1 e.2) s
  (domOrder.reverse.foldl (fun s d => s.switchDomain d (s.idleState d)) s).setFld 0x10000 17 16 1

/-- IDLE is left for ACTIVE (R512): each domain returns to its REQ. -/
def State.leaveIdle (s : State) : State :=
  if s.devState = 1 then
    domOrder.foldl (fun s d => s.switchDomain d (s.fld (pwrDom d) 1 0)) (s.setFld 0x10000 17 16 0)
  else s

/-- SLEEP may be entered (R513). -/
def State.maySleep (s : State) : Bool :=
  s.devState = 1 && s.queues.all (fun e => e.2.owedCount = 0) && !(List.range 4).any s.allocated &&
    s.svc.isNone && (List.finRange 4).all (fun f => !s.frames[f].patchBusy)

/-- SLEEP entry (R513): every domain but SPINE is saved and switched; SPINE follows at the end. -/
def State.startSleep (s : State) : State :=
  let s := domOrder.reverse.foldl (fun s d => if d = 72 then s else s.switchDomain d (sleepState d)) s
  { s.setFld 0x10000 31 31 1 with domMove := s.domMove ++ [(72, 2)] }

/-- PWR_WAKEREC and PWR_WAKETIME of a wake (R518). -/
def State.recordWake (s : State) (cause : Nat) (p : PortId) (abort : Bool) : State :=
  let s := (s.setReg 0x10030 (BitVec.ofNat 64 (2 ^ 31 + (if abort then 2 ^ 30 else 0) + (if s.dbDrop then 2 ^ 28 else 0) +
    (if cause = 1 then p.val * 256 else 0) + cause))).setReg 0x10038 s.gtime
  { s with dbDrop := false }

/-- The wake sequence (R515): IDLE, with the doorbell buffer replayed. -/
def State.wakeUp (s : State) : State :=
  ((domOrder.foldl (fun s d => s.switchDomain d (s.idleState d)) s).setFld 0x10000 17 16 1).dbReplay

/-- Whether a wake source is enabled and its condition holds (R516, R518); LINK and WAKE_IN are events from
outside. -/
def State.wakes (s : State) (cause : Nat) (p : PortId) : Bool :=
  let en (n : Nat) : Bool := bit (s.reg 0x10028) n
  match cause with
  | 1 => en 0 && s.linkEn p
  | 2 => en 1 && !s.doorbells.isEmpty
  | 3 => en 2 && bit (s.reg 0x10040) 63
  | 4 => en 3 && decide (s.fld 0x10020 15 8 ≤ s.fld 0x10020 7 0)
  | 5 => en 4
  | 6 => true
  | _ => false

/-- A wake from SLEEP, or from its entry, which it aborts (R513, R515). -/
def State.wake (s : State) (cause : Nat) (p : PortId) : State :=
  if s.devState = 2 then (s.recordWake cause p false).wakeUp
  else if bit (s.reg 0x10000) 31 then
    let s : State := { s with domMove := s.domMove.filter (fun e => e.1 ≠ 72) }
    (((s.recordWake cause p true).wakeUp).setFld 0x10000 31 31 0).devResult 3
  else s

/-- A write of PWR_DEV (R511 to R513, R516). -/
def State.devWrite (s : State) (src : Source) (v : W64) : State :=
  let req := bits v 1 0
  let wakes : Bool := src = .host && bit (s.reg 0x10028) 1
  if !pwrWriter src then s.reject src 0x10000
  else if bit (s.reg 0x10000) 31 then s.hold 0x10000 src v
  else match req, s.devState with
    | 0, 0 => s.devResult 1
    | 0, 1 => s.leaveIdle.devResult 1
    | 0, _ => if wakes then (s.wake 2 0).leaveIdle.devResult 1 else s.devResult 2
    | 1, 0 =>
      if s.bound.toList.all Option.isNone && (List.finRange 34).all (fun i => !s.quireTaken i)
      then s.enterIdle.devResult 1 else s.devResult 2
    | 1, 1 => s.devResult 1
    | 1, _ => if wakes then (s.wake 2 0).devResult 1 else s.devResult 2
    | 2, _ => if s.maySleep then s.startSleep else s.devResult 2
    | _, _ => s.reject src 0x10000

/-- ACTIVE (R512). -/
def execActive (src : Source) (s : State) : Res State :=
  s.inOrder src (.write 0 0x10000 false 0) fun s =>
    .next (s.gate src 0x10000 (fun s => s.devWrite src 0))
/-- IDLE (R512). -/
def execIdle (src : Source) (s : State) : Res State :=
  s.inOrder src (.write 0 0x10000 false 1) fun s =>
    .next (s.gate src 0x10000 (fun s => s.devWrite src 1))
/-- SLEEP (R513). -/
def execSleep (src : Source) (s : State) : Res State :=
  s.inOrder src (.write 0 0x10000 false 2) fun s =>
    .next (s.gate src 0x10000 (fun s => s.devWrite src 2))

/-- The end of SLEEP entry: SPINE is saved and switched (R513). -/
def State.sleepEnd (s : State) : State :=
  let s := { s with domMove := s.domMove.filter (fun e => e.1 ≠ 72) }
  (((s.switchDomain 72 2).setFld 0x10000 17 16 2).setFld 0x10000 31 31 0 |>.devResult 1).unhold 0x10000 State.devWrite

/-- DOMAIN_TRANSITION_COMPLETE (R507, R513): of SPINE, the end of SLEEP entry. -/
def execDomainTransitionComplete (d : Fin 86) (s : State) : Res State :=
  match s.domMove.find? (fun e => e.1 = d.val) with
  | some e => .next (if d = 72 then s.sleepEnd else s.domEnd e.1 e.2)
  | none => .next s

/-- WAKE (R515 to R518): TIMER moves GTIME to COMPARE (log entry 8). -/
def execWake (cause : BitVec 3) (p : PortId) (s : State) : Res State :=
  if s.wakes cause.toNat p && (s.devState = 2 || bit (s.reg 0x10000) 31) then
    let t := s.fld 0x10040 62 0
    let s := if cause = 3 && decide (s.gtime.toNat < t) then { s with gtime := BitVec.ofNat 64 t } else s
    .next ((s.wake cause.toNat p).unhold 0x10000 State.devWrite)
  else .next s

/-! ## Rails (R520) -/

/-- A domain's switched supply fails while it is RETAINED, or on the way there: its save is lost (R520). -/
def State.loseSave (s : State) (d : Nat) : State :=
  if s.domState d = 2 || s.domMove.any (fun e => e.1 = d && e.2 = 2) then { s with domLost := setBit s.domLost d true }
  else s

/-- Domains that an external rail feeds (R500). -/
def railFeeds (r : Rail) (d : Nat) : Bool :=
  let press : Bool := 34 ≤ d && d < 68
  match r with
  | .core => !press
  | .press => press
  | .sram => true
  | .folio => d = 84
  | .txb | .vpp => d = 83
  | .domain k => d = k.val
  | _ => false

/-! ## Calibration (R527) -/

/-- A write of PWR_CALCTL (R494, R527). -/
def State.calWrite (s : State) (src : Source) (action : Nat) : State :=
  if !pwrWriter src || action ≠ 1 || bit (s.reg 0x10060) 31 then s.reject src 0x10060
  else s.setFld 0x10060 31 31 1

/-- FACTORY_RESTORE. -/
def execFactoryRestore (src : Source) (s : State) : Res State :=
  s.inOrder src (.write 0 0x10060 false 1) fun s =>
    .next (s.gate src 0x10060 (fun s => s.calWrite src 1))

/-- FACTORY_RESTORE_COMMIT (R527): every TRAIN and LINKEQ record is invalid, or a flash write failed and nothing
was. -/
def execFactoryRestoreCommit (ok : Bool) (s : State) : Res State :=
  if !bit (s.reg 0x10060) 31 then .next s
  else
    let s := (s.setFld 0x10060 31 31 0).setFld 0x10060 27 24 (if ok then 1 else 2)
    .next (if ok then { s with calTrain := 0, calLink := 0 } else s)

end Sys2Proof.Machine
end

