-- ==== Sys2Proof/Machine/Host.lean ====
section
/-!
DEFINITION. The host port: queues, submission, commands and host transactions (14_host_queues.md, R375 to R404,
R555).
-/
namespace Sys2Proof.Machine

/-- The host port's unit code (R472). -/
abbrev hostUnit : Nat := unitCode 0x0C 0

/-! ## Doorbells (R386, R387, R514) -/

/-- A doorbell write by a source: in SLEEP the host's waits in the buffer (R514). -/
def State.doorbellWrite (s : State) (src : Source) (n : CtxId) (off : Nat) (v : W32) : State :=
  if src = .host && s.asleep && s.present then s.dbBuffer n off v
  else s.gate src (dbOff n off) (fun s => s.dbWrite src n off v)

/-- HST_DB_SQTAIL. -/
def execHstDbSqtail (src : Source) (n : CtxId) (v : W32) (s : State) : Res State :=
  s.inOrder src (.write 0 (dbOff n 0) false (v.setWidth 64)) fun s =>
    .next (s.doorbellWrite src n 0 v)
/-- HST_DB_CQHEAD. -/
def execHstDbCqhead (src : Source) (n : CtxId) (v : W32) (s : State) : Res State :=
  s.inOrder src (.write 0 (dbOff n 8) false (v.setWidth 64)) fun s =>
    .next (s.doorbellWrite src n 8 v)
/-- HST_DB_QIRQ. -/
def execHstDbQirq (src : Source) (n : CtxId) (v : W32) (s : State) : Res State :=
  s.inOrder src (.write 0 (dbOff n 0x10) false (v.setWidth 64)) fun s =>
    .next (s.doorbellWrite src n 0x10 v)

/-! ## HST_QCMD (R384, R385) -/

/-- A queue-table entry is invalid for queue n (R385). -/
def queueEntryBad (e : BitVec 512) (n : CtxId) : Bool :=
  let x : Queue := { cfg := e }
  bits e 5 0 ≠ 0 || bits e 67 64 ≠ 0 || bits e 183 176 ≠ 0 || bits e 206 204 ≠ 0 || bits e 255 224 ≠ 0 ||
  bits e 257 256 ≠ 0 || bits e 319 312 ≠ 0 || bits e 331 320 ≠ 0 || bits e 383 366 ≠ 0 || bits e 511 384 ≠ 0 ||
  x.sqSize = 1 || (n ≠ 0 && x.weight = 0) || x.limit = 0 || decide (x.sqSize ≤ x.limit) ||
  decide (x.cqSize < x.limit + 3) || !inQueueSpace x.sqBase (64 * x.sqSize) || !inQueueSpace x.cqBase (16 * x.cqSize)

/-- Read the queue-table entry of queue n (R383, R384): none when the table may not be read, when the read fails or
meets poison (R469), or when the entry is invalid. -/
def State.readQueueEntry (s : State) (n : CtxId) : Option (BitVec 512) × State :=
  let a := s.fld 0x4018 45 18 * 0x40000 + 64 * n.toNat
  if !bit (s.reg 0x4018) 0 then (none, s)
  else if !s.backed a then (none, (s.logErr hostUnit 0x09 0 (BitVec.ofNat 64 a) 0 (some n)).2)
  else match s.poisonedIn a 64 with
    | some ref => (none, (s.logErr hostUnit 0x08 0 (BitVec.ofNat 64 a) ref (some n)).2)
    | none =>
      let r := s.dmaRead a 64
      let e : BitVec 512 := BitVec.ofNat 512 r.1
      (if queueEntryBad e n then none else some e, r.2)

/-- RESULT of HST_QCMD. -/
def State.qcmdResult (s : State) (n : Nat) : State := s.setFld 0x4028 55 52 n

/-- The fields that REFRESH may change: LIMIT, WEIGHT, STREAMQ, MSIEN and MSIVEC (R384). -/
def refreshMask : BitVec 512 :=
  maskW 512 175 160 ||| maskW 512 191 184 ||| maskW 512 223 207 ||| maskW 512 203 192

/-- ENABLE (R384). -/
def State.queueEnable (s : State) (n : CtxId) : State :=
  let x := s.queue n
  if x.st ≠ .disabled then s.qcmdResult 2
  else
    let e := s.readQueueEntry n
    match e.1 with
    | none => e.2.qcmdResult 3
    | some cfg =>
      let c := e.2.ctxEntry n
      if c.1.isNone then c.2.qcmdResult 3
      else (c.2.setQueue n { st := .enabled, cfg := cfg, streams := x.streams, serial := x.serial }).qcmdResult 1

/-- DISABLE (R384): the queue drains. -/
def State.queueDisable (s : State) (n : CtxId) : State :=
  let x := s.queue n
  if x.st ≠ .enabled then s.qcmdResult 2
  else (s.setQueue n ({ x with st := .draining } : Queue).settle).qcmdResult 1

/-- RESET (R384). -/
def State.queueReset (s : State) (n : CtxId) : State :=
  let x := s.queue n
  if x.st ≠ .disabled && x.st ≠ .fatal then s.qcmdResult 2
  else (s.setQueue n { x with st := .disabled }).qcmdResult 1

/-- REFRESH (R384). -/
def State.queueRefresh (s : State) (n : CtxId) : State :=
  let x := s.queue n
  if x.st ≠ .enabled then s.qcmdResult 2
  else
    let e := s.readQueueEntry n
    match e.1 with
    | none => e.2.qcmdResult 3
    | some cfg =>
      if (cfg ^^^ x.cfg) &&& ~~~ refreshMask ≠ 0 then e.2.qcmdResult 3
      else (e.2.setQueue n ({ x with cfg := cfg } : Queue).settle).qcmdResult 1

/-- REFRESH_MSI (R384): every cached message-interrupt entry is discarded. -/
def State.msiRefresh (s : State) : State := { s.qcmdResult 1 with msiCache := [] }

/-- A write of HST_QCMD (R384); a reserved ACTION is rejected. -/
def State.qcmdWrite (s : State) (src : Source) (action : Nat) (n : CtxId) : State :=
  match action with
  | 1 => s.queueEnable n
  | 2 => s.queueDisable n
  | 3 => s.queueReset n
  | 4 => s.queueRefresh n
  | 5 => s.msiRefresh
  | _ => s.reject src 0x4028

/-- ENABLE. -/
def execEnable (src : Source) (n : CtxId) (s : State) : Res State :=
  s.inOrder src (.write 0 0x4028 true (BitVec.ofNat 64 (1 * 2 ^ 48 + n.toNat))) fun s =>
    .next (s.gate src 0x4028 (fun s => s.qcmdWrite src 1 n))
/-- DISABLE. -/
def execDisable (src : Source) (n : CtxId) (s : State) : Res State :=
  s.inOrder src (.write 0 0x4028 true (BitVec.ofNat 64 (2 * 2 ^ 48 + n.toNat))) fun s =>
    .next (s.gate src 0x4028 (fun s => s.qcmdWrite src 2 n))
/-- RESET. -/
def execReset (src : Source) (n : CtxId) (s : State) : Res State :=
  s.inOrder src (.write 0 0x4028 true (BitVec.ofNat 64 (3 * 2 ^ 48 + n.toNat))) fun s =>
    .next (s.gate src 0x4028 (fun s => s.qcmdWrite src 3 n))
/-- REFRESH. -/
def execRefresh (src : Source) (n : CtxId) (s : State) : Res State :=
  s.inOrder src (.write 0 0x4028 true (BitVec.ofNat 64 (4 * 2 ^ 48 + n.toNat))) fun s =>
    .next (s.gate src 0x4028 (fun s => s.qcmdWrite src 4 n))
/-- REFRESH_MSI. -/
def execRefreshMsi (src : Source) (n : CtxId) (s : State) : Res State :=
  s.inOrder src (.write 0 0x4028 true (BitVec.ofNat 64 (5 * 2 ^ 48 + n.toNat))) fun s =>
    .next (s.gate src 0x4028 (fun s => s.qcmdWrite src 5 n))

/-! ## Submission (R388 to R390, R401) -/

/-- Operand bytes that an opcode uses, as first byte and size (R389); none for a reserved opcode. -/
def opcOperands : Nat → Option (List (Nat × Nat))
  | 0x01 => some []
  | 0x02 => some [(8, 4), (16, 8), (24, 8)]
  | 0x03 => some [(8, 8), (16, 1)]
  | 0x04 => some [(8, 2), (10, 1)]
  | 0x40 => some [(8, 2), (12, 4)]
  | 0x41 => some [(8, 2), (12, 4), (16, 1), (24, 8)]
  | 0x42 => some [(8, 2), (12, 4), (24, 8)]
  | 0x43 => some [(8, 2), (10, 1), (16, 8)]
  | 0x44 => some [(8, 2), (12, 4)]
  | _ => none

/-- QMASK of a command that names logical quires (R389). -/
def Cmd.qmask (c : Cmd) : W32 := BitVec.ofNat 32 (if c.opc = 2 then c.op 8 4 else c.op 12 4)

/-- Opcodes with a QMASK. -/
def opcMasked (o : Nat) : Bool := o = 2 || o = 0x40 || o = 0x41 || o = 0x42

/-- A submission entry is INVALID (R390, item 1). -/
def Cmd.invalid (c : Cmd) : Bool :=
  match opcOperands c.opc with
  | none => true
  | some l =>
    let used : BitVec 512 := l.foldl (fun m f => m ||| maskW 512 (8 * (f.1 + f.2) - 1) (8 * f.1)) (maskW 512 47 0)
    c.entry &&& ~~~ used ≠ 0 || bits c.entry 15 10 ≠ 0 ||
    (opcMasked c.opc && c.qmask = 0) ||
    (c.opc = 3 && decide (4 ≤ c.op 16 1) && c.op 16 1 ≠ 0xFF) ||
    (c.opc = 4 && c.op 10 1 ≠ 1 && c.op 10 1 ≠ 2) ||
    (c.opc = 0x41 && decide (2 ≤ c.op 16 1)) ||
    (c.opc = 0x43 && (decide (3 ≤ c.op 10 1) || c.op 16 1 ≠ 0))

/-- Whether the port may fetch an entry of a queue (R388). -/
def Queue.mayFetch (x : Queue) : Bool :=
  x.st = .enabled && x.sqHead ≠ x.sqTail && decide (x.owedCount + 3 ≤ x.freeSlots)

/-- Judge a fetched entry (R390, R401): it completes at once, or is accepted. A BIND or RESTORE brings the device out
of IDLE (R512). -/
def State.judge (s : State) (n : CtxId) (e : BitVec 512) : State :=
  let x := s.queue n
  let c : Cmd := { entry := e, serial := x.serial }
  if c.invalid then s.writeCompletion n c.cid 2 0 0xFFFF 0 c.quiet
  else if 0x40 ≤ c.opc && n ≠ 0 then s.writeCompletion n c.cid 3 0 0xFFFF 0 c.quiet
  else if x.busySt then (s.writeCompletion n c.cid 1 0 0xFFFF 1 c.quiet).countEvent hostUnit 0x0C01 1
  else
    let s := s.setQueue n { x with cmds := x.cmds ++ [c], serial := x.serial + 1 }
    if c.opc = 0x40 || c.opc = 0x42 then s.leaveIdle else s

/-- The failure of a read by the host port at an address (R390, R469): the error type and the reference it holds.
`fail` is an error response, or a timeout. -/
def State.readFails (s : State) (a n : Nat) (fail : Option Bool) : Option (Nat × W32) :=
  match fail with
  | some timeout => some (if timeout then 0x0A else 0x09, 0)
  | none => if !s.backed a then some (0x09, 0) else (s.poisonedIn a n).map (fun r => (0x08, r))

/-- SUBMISSION_FETCH (R388, R390, R401): the next entry of a queue is fetched and judged; one that cannot be read
completes with MEM_FAULT. -/
def execSubmissionFetch (n : CtxId) (fail : Option Bool) (s : State) : Res State :=
  let x := s.queue n
  if s.down || s.asleep || !x.mayFetch then .next s
  else
    let a := x.sqBase + 64 * x.sqHead.toNat
    let s := s.hostRead n a 64
    let s := s.setQueue n { x with
      sqHead := BitVec.ofNat 16 ((x.sqHead.toNat + 1) % x.sqSize),
      busySt := x.busySt || decide (x.limit ≤ x.outstanding) }
    match s.readFails a 64 fail with
    | some (type, ref) =>
      .next ((s.logErr hostUnit type 0 (BitVec.ofNat 64 a) ref (some n)).2.writeCompletion n 0xFFFF 8 0 0xFFFF 0 false)
    | none =>
      let r := s.dmaRead a 64
      .next (r.2.judge n (BitVec.ofNat 512 r.1))

/-! ## Weighted service (R392, R400) -/

/-- Logical quires of a mask, in order. -/
def maskQuires (m : W32) : List (Fin 32) := (List.finRange 32).filter (fun n => bit m n.val)

/-- Logical quires of a mask that are unavailable, as a mask (R21, R391). -/
def State.unavailable (s : State) (m : W32) : W32 :=
  (maskQuires m).foldl (fun a n => if (s.physOf n.val).isNone then setBit a n.val true else a) 0

/-- A bound quire waits for its earlier launch, or for an action, or for its domain (R393, R509). -/
def State.quireReady (s : State) (n : Fin 32) : Bool :=
  match s.physOf n.val with
  | some i => (s.q i).st = .idle && (s.q i).action = 0 && s.domState i.val = 0
  | none => true

/-- Whether a quire of a mask has an action in progress, for which a management command waits. -/
def State.quireActs (s : State) (n : Fin 32) : Bool :=
  match s.physOf n.val with
  | some i => (s.q i).action ≠ 0 || s.domMove.any (fun e => e.1 = i.val)
  | none => false

/-- A command meets its start conditions, a free slot apart (R392, R393, R404). -/
def State.mayStart (s : State) (n : CtxId) (x : Queue) (c : Cmd) : Bool :=
  (!c.fence || (x.cmds.head?.map (·.serial)) = some c.serial) &&
  !(x.cmds.any (fun d => d.started && decide (0x40 ≤ d.opc))) &&
  (if c.opc = 2 then
    (maskQuires c.qmask).any (fun q => s.bound[q] ≠ some n || (s.physOf q.val).isNone) ||
      (maskQuires c.qmask).all s.quireReady
  else if c.opc = 0x41 || c.opc = 0x42 then (maskQuires c.qmask).all (fun q => !s.quireActs q)
  else true)

/-- The command of a queue that would start next, when it meets its conditions. -/
def State.nextCmd (s : State) (n : CtxId) : Option Cmd :=
  let x := s.queue n
  if x.st = .enabled || x.st = .draining then
    match x.cmds.find? (fun c => !c.started) with
    | some c => if s.mayStart n x c then some c else none
    | none => none
  else none

/-- Execution slots held (R400): by started commands, and by streams that commands created and that have not
ended. -/
def State.slotsUsed (s : State) : Nat :=
  s.queues.foldl (fun k e => k + e.2.cmds.countP (·.slot) + e.2.streams.length) 0

/-- Queues 1 to 4,095 that are ready, with their weights. -/
def State.readyQueues (s : State) : List (CtxId × Nat) :=
  s.queues.filterMap (fun e =>
    let n : CtxId := BitVec.ofNat 12 e.1
    if n ≠ 0 && (s.nextCmd n).isSome then some (n, e.2.weight) else none)

/-- The choice among ready queues (R400): credits grow by the weights, and the largest credit, the lowest number on
ties, gives up the sum. A queue that is not ready has credit 0. -/
def State.chooseQueue (s : State) : Option CtxId × State :=
  let ready := s.readyQueues
  let total := ready.foldl (fun k e => k + e.2) 0
  let s : State := { s with queues := s.queues.map (fun e => (e.1, { e.2 with
    credit := if ready.any (fun r => r.1.toNat = e.1) then e.2.credit + Int.ofNat e.2.weight else 0 })) }
  let best := ready.foldl (fun b e => match b with
    | none => some e.1
    | some k => if (s.queue k).credit < (s.queue e.1).credit then some e.1 else some k) none
  match best with
  | none => (none, s)
  | some k => (some k, s.setQueue k { s.queue k with credit := (s.queue k).credit - Int.ofNat total })

/-- The queue whose oldest command starts next (R400), and the state with its credits. -/
def State.arbitrate (s : State) : Option (CtxId × Cmd) × State :=
  if s.down || s.asleep then (none, s)
  else
    let free : Bool := decide (s.slotsUsed < s.fld 0x4008 12 0)
    match s.nextCmd 0 with
    | some c =>
      if 0x40 ≤ c.opc || free then (some (0, c), s) else (none, s)
    | none =>
      if !free then (none, s)
      else
        let t := s.chooseQueue
        match t.1 with
        | some n => ((t.2.nextCmd n).map (fun c => (n, c)), t.2)
        | none => (none, t.2)

/-! ## The commands (R393, R395 to R397) -/

/-- LAUNCH (R393). -/
def State.doLaunch (s : State) (n : CtxId) (c : Cmd) : State :=
  let qs := maskQuires c.qmask
  if qs.any (fun q => s.bound[q] ≠ some n) then s.completeCmd n c 3 0
  else if s.unavailable c.qmask ≠ 0 then s.completeCmd n c 4 (s.unavailable c.qmask)
  else qs.foldl (fun s q =>
    match s.physOf q.val with
    | none => s
    | some i =>
      let s := s.modQ i (fun d => ((d.crSet 0x0C0 (BitVec.ofNat 64 (c.op 16 8))).crSet 0x0C1
        (BitVec.ofNat 64 (c.op 24 8))).crSet 0x0C2 (BitVec.ofNat 64 (c.qmask.toNat * 2 ^ 32 + q.val)))
      (s.setReg (qwin i 0x10) (BitVec.ofNat 64 ((s.queue n).qentry))).ctxAction i 1 n false) s

/-- The frame that FRAME = 0xFF selects (R395): the most FREE entries, the lowest number on a tie. A frame that
creates nothing (R487, R509) counts as full. -/
def State.freestFrame (s : State) : Fin 4 :=
  let free (f : Fin 4) : Nat :=
    if s.frames[f].inService && s.domState (68 + f.val) ≠ 3 then
      16384 - s.streams.countP (fun e => e.1 / 16384 = f.val && e.2.state ≠ 0) else 0
  (List.finRange 4).foldl (fun b f => if free b < free f then f else b) 0

/-- The bytes of a request block at translated addresses. What another node or a register answers is a free
value. -/
def State.blockBytes (s : State) : List Nat → List Byte × State
  | [] => ([], s)
  | pa :: r =>
    let d := s.fresh
    let open_ : Bool := s.remotePa pa || regionOf (localOf pa) = .window
    let t := (if open_ then d.2 else s.dirSpan (localOf pa) 1 false).blockBytes r
    ((if open_ then d.1.setWidth 8 else s.byte (localOf pa)) :: t.1, t.2)

/-- STREAM (R395, R354): the request block is read, the stream created, and the command completes. -/
def State.doStream (s : State) (n : CtxId) (c : Cmd) : State :=
  let va : W64 := BitVec.ofNat 64 (c.op 8 8)
  let t := s.xlateStreamBytes n (n ≠ 0) .load va 128
  match t.1 with
  | .error e => t.2.completeCmd n c 8 e.2.detail
  | .ok pas =>
    match t.2.poisonAmong pas 0 with
    | some (k, ref) =>
      let l := t.2.logErr hostUnit 0x08 0 (BitVec.ofNat 64 (localOf (pas.getD k 0))) ref (some n)
      let d := l.2.fresh
      d.2.completeCmd n c 8 (d.1.setWidth 32)
    | none =>
      let b := (t.2.hostReads n pas).blockBytes pas
      let s := b.2
      let f : Fin 4 := if c.op 16 1 = 0xFF then s.freestFrame else Fin.ofNat 4 (c.op 16 1)
      let o : Origin := { queue := n, cid := c.cid, quiet := c.quiet, snap := c.snap, cmd := c.serial }
      let raw : BitVec 1024 := BitVec.ofNat 1024 (leNat b.1)
      let spent : Bool := decide ((s.queue n).streamQ ≤ (s.queue n).streams.length)
      let r := s.createStream f raw n (n = 0) (some o)
      match r.1.1 with
      | 3 => r.2.completeCmd n c 2 0
      | 4 => r.2.completeCmd n c 3 0
      | k =>
        if spent then (s.ctxEntry n).2.completeCmd n c 1 3
        else if k = 2 then r.2.completeCmd n c 1 2
        else
          let id : W16 := BitVec.ofNat 16 r.1.2
          let s := r.2
          let x := s.queue n
          let s := s.setQueue n { x with
            streams := x.streams ++ [id],
            owed := if (s.stream id).caddr = 0 then x.owed ++ [id] else x.owed }
          s.completeCmd n c 0 (id.setWidth 32)

/-- SCTL (R396). -/
def State.doSctl (s : State) (n : CtxId) (c : Cmd) : State :=
  (s.sctl n (BitVec.ofNat 16 (c.op 8 2)) (c.op 10 1 = 1)).completeCmd n c 0 0

/-- CTXID operand of a management command. -/
def Cmd.ctxid (c : Cmd) : CtxId := BitVec.ofNat 12 (c.op 8 2)

/-- Bind quires to a context. -/
def bindAll (b : Vector (Option CtxId) 32) : List (Fin 32) → CtxId → Vector (Option CtxId) 32
  | [], _ => b
  | q :: r, c => bindAll (b.set q (some c)) r c

/-- BIND (R397): all or nothing. -/
def State.doBind (s : State) (c : Cmd) : State :=
  let qs := maskQuires c.qmask
  if qs.any (fun q => s.bound[q].isSome && s.bound[q] ≠ some c.ctxid) then s.completeCmd 0 c 3 0
  else if s.unavailable c.qmask ≠ 0 then s.completeCmd 0 c 4 (s.unavailable c.qmask)
  else ({ s with bound := bindAll s.bound qs c.ctxid } : State).completeCmd 0 c 0 0

/-- The save area of logical quire Qi: 1088 KiB apart (R397). -/
def saveArea (base : Nat) (q : Fin 32) : Nat := base + q.val * 0x110000

/-- Whether a base may stand in Q_SAVE_BASE (R253). -/
def saveBaseOk (b : Nat) : Bool := inFolioText b (1072 * 1024) && b % 4096 = 0

/-- Q_SAVE_BASE of logical quire Qi (R397, R253): a base that R253 does not allow is rejected. -/
def State.setSaveBase (s : State) (i : QuireId) (q : Fin 32) (base : Nat) : State :=
  if saveBaseOk (saveArea base q) then s.setReg (qwin i 0x18) (BitVec.ofNat 64 (saveArea base q))
  else s.reject .headband (qwin i 0x18)

/-- A management command performs an action on each quire of its mask, having noted that it waits for them; one that
the quire refuses ends at once. -/
def State.actOn (s : State) (c : Cmd) (act : Nat) (base : Option Nat) : State :=
  let s := s.setQueue 0 ((s.queue 0).updCmd { c with started := true, waiting := c.qmask })
  (maskQuires c.qmask).foldl (fun s q =>
    match s.physOf q.val with
    | none => s.mgmtNote q false
    | some i =>
      let s := match base with
        | some b => s.setSaveBase i q b
        | none => s
      let may : Bool := match act, (s.q i).st with
        | 2, .idle => true
        | 4, .running | 4, .held | 4, .halted => true
        | 5, .running => true
        | _, _ => false
      if may then s.ctxAction i act c.ctxid true
      else (s.ctxRefuse i).mgmtNote q (act = 4)) s

/-- RELEASE (R397), in either MODE: quires not bound to the context give DENIED, unavailable ones UNAVAILABLE. -/
def State.doRelease (s : State) (c : Cmd) : State :=
  if (maskQuires c.qmask).any (fun q => s.bound[q] ≠ some c.ctxid) then s.completeCmd 0 c 3 0
  else if s.unavailable c.qmask ≠ 0 then s.completeCmd 0 c 4 (s.unavailable c.qmask)
  else if c.op 16 1 = 1 then s.actOn c 5 (some (c.op 24 8))
  else s.actOn c 4 none

/-- RESTORE (R397): every quire must be unbound and IDLE. -/
def State.doRestore (s : State) (c : Cmd) : State :=
  let qs := maskQuires c.qmask
  if s.unavailable c.qmask ≠ 0 then s.completeCmd 0 c 4 (s.unavailable c.qmask)
  else
    let bad : W32 := qs.foldl (fun m q => if s.bound[q].isSome || !s.quireReady q then setBit m q.val true else m) 0
    if bad ≠ 0 then s.completeCmd 0 c 2 bad
    else ({ s with bound := bindAll s.bound qs c.ctxid } : State).actOn c 2 (some (c.op 24 8))

/-- The 256 bytes of a QUERY report, whose layout is not given: free values (R397). -/
def State.freeBytes (s : State) : Nat → List Byte × State
  | 0 => ([], s)
  | k + 1 =>
    let d := s.fresh
    let t := d.2.freeBytes k
    (leBytes 8 d.1.toNat ++ t.1, t.2)

/-- QUERY (R397): a DEST that cannot be written gives MEM_FAULT. -/
def State.doQuery (s : State) (c : Cmd) : State :=
  let dest := c.op 16 8
  if !s.backed dest || !((regionOf dest).memory || regionOf dest = .host) then
    s.completeCmd 0 c 8 (XFault.detail ⟨0x14, 0, 0⟩)
  else
    let r := s.freeBytes 32
    ((r.2.dmaWrite dest r.1).hostWrite 0 dest r.1).completeCmd 0 c 0 0

/-- KILL (R397, R484): of context 0 it ends with its own queue. -/
def State.doKill (s : State) (c : Cmd) : State :=
  let s := s.contextFatal c.ctxid 0x04 hostUnit none
  if c.ctxid = 0 then s else s.completeCmd 0 c 0 0

/-- Units whose counters a command's start latches (R539): the quires of a LAUNCH, then those listed; at most 48. -/
def State.latchOf (s : State) (c : Cmd) : List (Nat × W64 × Counters) × State :=
  if c.snap = 0xFFFF#16 || c.opc = 3 then ([], s)
  else s.latchUnits <| List.take 48 <| List.eraseDups <| ((if c.opc = 2 then (maskQuires c.qmask).filterMap (fun q =>
    (s.physOf q.val).map (fun i => unitCode 1 i.val)) else []) ++ s.snapSet)

/-- Start a command of a queue (R392, R400). -/
def State.startCmd (s : State) (n : CtxId) (c : Cmd) : State :=
  let l := s.latchOf c
  let s := l.2
  let c : Cmd := { c with started := true, slot := decide (c.opc < 0x40), latch := l.1 }
  let s := (s.setQueue n ((s.queue n).updCmd c)).countEvent hostUnit 0x0C00 1
  match c.opc with
  | 0x02 => s.doLaunch n c
  | 0x03 => s.doStream n c
  | 0x04 => s.doSctl n c
  | 0x40 => s.doBind c
  | 0x41 => s.doRelease c
  | 0x42 => s.doRestore c
  | 0x43 => s.doQuery c
  | 0x44 => s.doKill c
  | _ => s.completeCmd n c 0 0

/-- COMMAND_START (R400): the port starts the command that weighted service chooses. -/
def execCommandStart (s : State) : Res State :=
  let a := s.arbitrate
  match a.1 with
  | some (n, c) => .next (a.2.startCmd n c)
  | none => .next a.2

/-- A command of queue n with an opcode starts: nothing happens unless it is the one that weighted service
chooses. -/
def State.startIf (s : State) (n : CtxId) (ok : Cmd → Bool) : State :=
  let a := s.arbitrate
  match a.1 with
  | some (m, c) => if m = n && ok c then a.2.startCmd n c else s
  | none => s

/-- NOP (R389). -/
def execNop (n : CtxId) (s : State) : Res State := .next (s.startIf n (fun c => c.opc = 1))
/-- LAUNCH (R393). -/
def execLaunch (n : CtxId) (s : State) : Res State := .next (s.startIf n (fun c => c.opc = 2))
/-- STREAM (R395). -/
def execStream (n : CtxId) (s : State) : Res State := .next (s.startIf n (fun c => c.opc = 3))
/-- SCTL (R396). -/
def execSctl (n : CtxId) (s : State) : Res State := .next (s.startIf n (fun c => c.opc = 4))
/-- BIND (R397). -/
def execBind (s : State) : Res State := .next (s.startIf 0 (fun c => c.opc = 0x40))
/-- RELEASE with MODE 0x01 (R397). -/
def execReleaseSave (s : State) : Res State := .next (s.startIf 0 (fun c => c.opc = 0x41 && c.op 16 1 = 1))
/-- RELEASE with MODE 0x00 (R397). -/
def execReleaseDiscard (s : State) : Res State := .next (s.startIf 0 (fun c => c.opc = 0x41 && c.op 16 1 = 0))
/-- RESTORE (R397). -/
def execRestore (s : State) : Res State := .next (s.startIf 0 (fun c => c.opc = 0x42))
/-- QUERY (R397). -/
def execQuery (s : State) : Res State := .next (s.startIf 0 (fun c => c.opc = 0x43))
/-- KILL (R397). -/
def execKill (s : State) : Res State := .next (s.startIf 0 (fun c => c.opc = 0x44))

/-! ## Q_END (R394) -/

/-- The launch that runs on a logical quire. -/
def State.launchOn (s : State) (c : CtxId) (n : Fin 32) : Option Cmd :=
  (s.queue c).cmds.find? (fun k => k.started && k.opc = 2 && bit k.qmask n.val && !k.ends.any (fun e => e.1 = n.val))

/-- A quire of a launch has ended with a code (R393): the last one completes the launch. -/
def State.launchEnd (s : State) (ctx : CtxId) (c : Cmd) (n : Fin 32) (i : QuireId) (code : W32) : State :=
  let u := unitCode 1 i.val
  let s := s.settleCounts u
  let c : Cmd := { c with ends := c.ends ++ [(n.val, code)], stop := c.stop ++ [(u, s.gtime, s.cnt u)] }
  let s := s.setQueue ctx ((s.queue ctx).updCmd c)
  let qs := maskQuires c.qmask
  if qs.all (fun q => c.ends.any (fun e => e.1 = q.val)) then
    let low := (qs.head?.map (·.val)).getD 0
    s.completeCmd ctx c 0 (((c.ends.find? (fun e => e.1 = low)).map (·.2)).getD 0)
  else s

/-- A write of Q_END (R394, R484): every store completes first; a store error is a context-fatal error, and the quire
stops and stays bound. A write while stores at other nodes are unanswered waits for them (log entry 6). -/
def State.qEnd (s : State) (i : QuireId) (src : Source) (writer : QuireId) (code : W32) : State :=
  if src ≠ .quire || writer ≠ i then s.reject src (qwin i 0x28)
  else
    let ctx := (s.q i).ctx
    match (s.logicalOf i).bind (fun n => (s.launchOn ctx n).map (fun c => (n, c))) with
    | none => s
    | some (n, _) =>
      if !(s.q i).runs then s
      else
        let s := s.drain i
        if s.storesOut i then s
        else
          let failed := (s.q i).storeErr.isSome
          let s := (s.modQ i (fun c => { c.discarded with action := 4 })).actionEnd i ctx 1
          if failed then s.contextFatal ctx 0x05 (unitCode 1 i.val) none
          else match s.launchOn ctx n with
            | some c => s.launchEnd ctx c n i code
            | none => s

/-- Q_END. -/
def execQEnd (q : QuireId) (src : Source) (writer : QuireId) (code : W32) (s : State) : Res State :=
  s.inOrder src (.write 0 (qwin q 0x28) false (code.setWidth 64)) fun s =>
    .next (s.quireGate q src 0x28 (fun s => s.qEnd q src writer code))

/-! ## Responses of the host (R265, R378, R555, R558) -/

/-- The error type of a response that failed. -/
def hostErr (err : Bool) : Nat := if err then 0x09 else 0x08

/-- The load or atomic that waits for a tag ends, with the data or failing. -/
def State.hostReturned (s : State) (i : QuireId) (tag : BitVec 10) (err poison : Bool) (data : W64) : State :=
  match (s.q i).stall with
  | .host t dst len va acc =>
    if t ≠ tag then s
    else if err || poison then s.failLoad i (hostErr err) hostUnit va acc
    else s.finishLoad i dst len data
  | _ => s

/-- A posted atomic that failed latches STORE_ERROR (R88, R247). -/
def State.hostPostFailed (s : State) (i : QuireId) (err : Bool) (va : W64) : State :=
  let l := s.logErr hostUnit (hostErr err) 0 0 0 (some (s.q i).ctx)
  l.2.latchStoreErr i va l.1

/-- HOST_RESPONSE: the waiting load or atomic of the tag completes with the data, or fails; a response with a tag not
outstanding is discarded and recorded. -/
def execHostResponse (tag : BitVec 10) (err poison : Bool) (data : BitVec 1024) (s : State) : Res State :=
  if !s.present then .next s
  else match s.hostReqs.find? (fun r => r.tag = tag) with
  | none => .next (s.emit (unitCode 0x0A 0) 0x0903 none (tag.setWidth 64) 0)
  | some r =>
    let s : State := { s with hostReqs := s.hostReqs.filter (fun r => r.tag ≠ tag) }
    match r.post with
    | some va => .next (if err || poison then s.hostPostFailed r.quire err va else s)
    | none => .next (s.hostReturned r.quire tag err poison (data.setWidth 64))

end Sys2Proof.Machine
end

