-- ==== Sys2Proof/Machine/Tiers.lean ====
section
/-!
DEFINITION. External memory tiers and role profiles (16_external_memory.md, R450 to R464).
-/
namespace Sys2Proof.Machine

/-- The tier of a tier configuration register, in the order of R455. -/
def tierOf (t : Fin 3) : Region := if t = 0 then .hbm else if t = 1 then .lpd else .cxl

/-- The bit of a unit in GLB_AVAIL_MEM (R565). -/
def memBit (r : Region) (n : Nat) : Nat := if r = .text then n else (tierMax r).2 + n

/-- A unit of memory enters or leaves GLB_AVAIL_MEM, with its event (R19, R451). -/
def State.availMem (s : State) (r : Region) (n : Nat) (up : Bool) : State :=
  if bit (s.reg 0x20) (memBit r n) = up then s
  else (s.colophon (fun s => s.setFld 0x20 (memBit r n) (memBit r n) (if up then 1 else 0))).availEvent

/-- Populated units that the straps name (R450, R556); a reserved CXL code names none. -/
def strapUnits (straps : W32) : Region → Nat
  | .hbm => [0, 2, 4, 8].getD (bits straps 1 0) 0
  | .lpd => [0, 4, 8, 16].getD (bits straps 3 2) 0
  | .cxl => if 4 < bits straps 6 4 then 0 else bits straps 6 4
  | _ => 0

/-- CXL_LINK_UP (R453, R459): the licensee's controller reports the link of a populated port up or down. A port that
has failed, or whose domain is not ON, keeps its STATE. -/
def execCxlLinkUp (x : Fin 4) (up : Bool) (s : State) : Res State :=
  if strapUnits s.straps .cxl ≤ x.val then .next s
  else
    let s : State := { s with cxlUp := setBit s.cxlUp x.val up }
    let st := s.fld (tierStat .cxl x.val) 3 0
    if st = 5 then .next s
    else .next ((s.setUnitState .cxl x.val (if s.domState 82 ≠ 0 then 7 else if up then 3 else 0)).availMem .cxl x.val up)

/-! ## Tier registers (R455 to R457) -/

/-- A reserved WAYS or GRAN code of a tier (R455). -/
def tierCodeBad (r : Region) (ways gran : Nat) : Bool :=
  decide (4 < gran) ||
    (match r with
     | .hbm => decide (4 < ways)
     | .lpd => decide (5 < ways)
     | _ => !(decide (ways ≤ 3) || ways = 6))

/-- The WAYS code of a number of ways (R455). -/
def waysCode : Nat → Nat
  | 1 => 1 | 2 => 2 | 4 => 3 | 8 => 4 | 16 => 5 | 3 => 6 | _ => 0

/-- Ways and granule code that a role presets for a tier of n units (R463); the granule of one way is not given. -/
def rolePreset (role : Nat) (r : Region) (n : Nat) : Nat × Option Nat :=
  if r = .cxl then (if role = 0 || role = 4 then (1, none) else (n, some 2))
  else (n, some (if role = 2 then 1 else if role = 3 then 3 else 2))

/-- The ways and granule code that a write of a tier register resolves to (R456); a granule that no preset gives is
free (log entry 2). -/
def State.resolveTier (s : State) (r : Region) (ways gran : Nat) : (Nat × Nat) × State :=
  let p := rolePreset s.role r (s.tierUnits r).length
  let w := if ways = 0 then p.1 else waysOf ways
  if gran ≠ 0 then ((w, gran), s)
  else match p.2 with
    | some g => ((w, g), s)
    | none => let f := s.fresh; ((w, 1 + bits f.1 1 0), f.2)

/-- Bytes of a tier's range (R261). -/
def tierSpan : Region → Nat
  | .hbm => 0x8000000000
  | .lpd => 0x10000000000
  | _ => 0x30000000000

/-- The resolved configuration may be used (R456): the ways divide the units, several ways need units of one
capacity, and the capacity fits the range. -/
def State.tierFits (s : State) (r : Region) (w : Nat) : Bool :=
  let us := s.tierUnits r
  decide (us.length % w = 0) &&
    (decide (w ≤ 1) || us.all (fun u => u.2 = (us.headD (0, 0)).2)) &&
    decide (us.foldl (fun n u => n + u.2) 0 ≤ tierSpan r)

/-- The unit of a tier that an address maps to. -/
def State.mapsTo (s : State) (r : Region) (n a : Nat) : Bool :=
  regionOf a = r && (match s.tierUnit r (a - r.base) with | some u => u.1 = n | none => false)

/-- Units of a tier that were admitted return to service at the change of EN, their contents
lost to the test (R488). -/
def State.admitTier (s : State) (r : Region) : State :=
  ((List.range (tierMax r).1).filter (fun n => s.admits.contains (unitCode (tierType r) n))).foldl (fun s n =>
    let s := ({ s with admits := s.admits.erase (unitCode (tierType r) n) } : State).loseIf (s.mapsTo r n)
    if r = .cxl && !bit s.cxlUp n then s.setUnitState r n 0
    else (s.setUnitState r n (if s.domState (tierDomain r n) = 0 then 3 else 7)).availMem r n true) s

/-- Write-backs of a tier that is disabled: whether a dirty line is written back meanwhile is the caches' affair: a
free value; one that is, is lost (R457). -/
def State.dropDirty (s : State) (r : Region) : State :=
  (List.finRange 34).foldl (fun s i =>
    ((s.q i).l2.filter (fun e => e.2.1 = .modified && regionOf (64 * e.1) = r)).foldl (fun s e =>
      let f := s.fresh
      if bit f.1 0 then (f.2.loseWrite e.1).modQ i (fun c => c.l2Lose (· = e.1)) else f.2) s) s

/-- A write of HBM_TIER, LPD_TIER or CXL_TIER (R455 to R457). Enabled under another interleave, the tier holds
whatever it holds (log entry 15). -/
def State.tierWrite (s : State) (t : Fin 3) (src : Source) (v : W64) : State :=
  let r := tierOf t
  let off := tierReg r
  let ways := bits v 6 4
  let gran := bits v 2 0
  let old := s.reg off
  if tierCodeBad r ways gran then s.reject src off
  else if bit old 31 then
    if ways ≠ bits old 6 4 || gran ≠ bits old 2 0 then s.reject src off
    else if bit v 31 then s
    else (((s.setFld off 31 31 0).setFld off 22 20 0).setFld off 18 16 0).dropDirty r
  else if bit v 31 then
    let x := s.resolveTier r ways gran
    if !x.2.tierFits r x.1.1 then s.reject src off
    else
      let s := ((x.2.applyWrite off v).setFld off 22 20 (waysCode x.1.1)).setFld off 18 16 x.1.2
      let now : Nat × Nat := (x.1.1, if x.1.1 ≤ 1 then 0 else x.1.2)
      let kept : Bool := s.tierLast[t] = now || s.tierLast[t] = (0, 0)
      let s := if kept then s else s.loseRange r.base (r.base + tierSpan r)
      ({ s with tierLast := s.tierLast.set t now } : State).admitTier r
  else s.applyWrite off v

/-- TIER_ENABLE (R456). -/
def execTierEnable (t : Fin 3) (src : Source) (v : W32) (s : State) : Res State :=
  s.inOrder src (.write 0 (tierReg (tierOf t)) false (v.setWidth 64)) fun s =>
  .next (s.gate src (tierReg (tierOf t)) (fun s => s.tierWrite t src (v.setWidth 64)))

/-- TIER_DISABLE (R457). -/
def execTierDisable (t : Fin 3) (src : Source) (v : W32) (s : State) : Res State :=
  s.inOrder src (.write 0 (tierReg (tierOf t)) false (v.setWidth 64)) fun s =>
  .next (s.gate src (tierReg (tierOf t)) (fun s => s.tierWrite t src (v.setWidth 64)))

/-! ## Role profiles (R462 to R464) -/

/-- A write of GLB_ROLE (R462): the change completes with the write. -/
def State.roleWrite (s : State) (src : Source) (v : W64) : State :=
  if 4 < bits v 2 0 then s.reject src 0x300
  else (s.setFld 0x300 2 0 (bits v 2 0)).setFld 0x300 10 8 (bits v 2 0)

/-- ROLE_CHANGE (R464). -/
def execRoleChange (src : Source) (v : W32) (s : State) : Res State :=
  s.inOrder src (.write 0 0x300 false (v.setWidth 64)) fun s =>
  .next (s.gate src 0x300 (fun s => s.roleWrite src (v.setWidth 64)))

/-- A write of CXL_CFG (R458). The capacity is that of CXL_STAT too. -/
def State.cxlCfgWrite (s : State) (x : Fin 4) (src : Source) (v : W64) : State :=
  let off := 0x900008 + x.val * 0x10000
  if 3072 < bits v 11 0 || (bit v 31 && !bit s.cxlUp x.val) ||
      (bits v 11 0 ≠ s.fld off 11 0 && (bit (s.reg off) 31 || bit (s.reg 0x940010) 31)) then s.reject src off
  else (s.applyWrite off v).setFld (tierStat .cxl x.val) 31 20 (bits v 11 0)

end Sys2Proof.Machine
end

