-- ==== Sys2Proof/Machine/Reliability.lean ====
section
/-!
DEFINITION. Failed units, their return to service, the text block's scrub and repair, calibration, headbands and SAFE
HOLD (17_reliability.md, R465 to R492).
-/
namespace Sys2Proof.Machine

/-! ## SAFE HOLD (R492) -/

/-- The active headband. -/
def State.activeHb (s : State) : Nat := s.fld 0x20000 0 0

/-- HB_STATUS.HBn: 0 failed or off, 1 STANDBY, 2 ACTIVE, 3 TESTING. -/
def State.hbField (s : State) (h : Nat) : Nat := s.fld 0x20000 (2 * h + 3) (2 * h + 2)

/-- Put HB_STATUS.HBn. -/
def State.setHb (s : State) (h v : Nat) : State := s.setFld 0x20000 (2 * h + 3) (2 * h + 2) v

/-- HB_STATUS.SYNC, which GLB_ERR_STATUS.HB_DEGRADED mirrors (R476, R489). -/
def State.setSync (s : State) (v : Nat) : State :=
  (s.setFld 0x20000 11 8 v).setFld 0x100 8 8 (if v = 2 then 0 else 1)

/-- The unit code of the active headband. -/
def State.hbUnit (s : State) : Nat := unitCode 0x0B s.activeHb

/-- Enter SAFE HOLD for a cause (R492, R436): the record, the halted quires, FATAL_DEVICE, and for causes 4 and 5 the
lanes. Why a port left ACTIVE is not stated: REASON is free. -/
def State.enterSafeHold (s : State) (cause : Nat) : State :=
  if s.safeHold then s
  else
    let s := (s.setFld 0x20000 31 31 1).setFld 0x20000 27 24 cause
    let s := { s with quires := s.quires.map (fun (c : Quire) =>
      if c.st = QState.idle ∨ c.st = QState.offline then c else { c with st := .halted }) }
    let r := s.logErr s.hbUnit 0x0F 0 0 (BitVec.ofNat 32 cause) none
    let s := (r.2.setFld 0x100 31 31 1).emit s.hbUnit 0x0B04 none (BitVec.ofNat 64 cause) (r.1.setWidth 64)
    let s := s.deviceEvent 4 0 r.1
    if cause = 4 || cause = 5 then
      (List.finRange 24).foldl (fun s p =>
        if (s.port p).st = 0 then s
        else let f := s.fresh; f.2.portDown p 1 ((f.1.setWidth 3).setWidth 4)) s
    else s

/-- SPINE_HANG (R492). -/
def execSpineHang (s : State) : Res State := .next (if s.present then s.enterSafeHold 5 else s)

/-! ## Headbands (R489 to R491) -/

/-- JOURNAL_ACK_TIMEOUT (R489): the standby is declared failed. -/
def execJournalAckTimeout (s : State) : Res State :=
  if s.fld 0x20000 11 8 = 0 then .next s
  else .next ((s.setHb (1 - s.activeHb) 0).setSync 0)

/-- STANDBY_SYNCED (R490); before the ports' release it is boot step 10 (R523). -/
def execStandbySynced (s : State) : Res State :=
  if s.fld 0x20000 11 8 ≠ 1 then .next s
  else
    let s := s.setSync 2
    .next (if bit (s.reg 0xD80008) 31 then s else s.emit s.hbUnit 0x0B01 none 10 0)

/-- HEADBAND_REBOOT (R490): the headband has passed its self-test and is STANDBY, SYNCING. -/
def execHeadbandReboot (h : Fin 2) (s : State) : Res State :=
  if s.hbField h.val ≠ 0 || s.hbField (1 - h.val) ≠ 2 || s.activeHb = h.val then .next s
  else .next (((s.setHb h.val 1).setSync 1).setEng (Fin.ofNat 66 (64 + h.val)) {})

/-- The active headband fails (R490 to R492): a SYNCED standby takes over; any other leaves SAFE HOLD. Whether the MGMT
ring outlives its headband's RAM is not stated: free. -/
def State.failover (s : State) : State :=
  let a := s.activeHb
  let b := 1 - a
  let sync := s.fld 0x20000 11 8
  let s := s.setHb a 0
  let s := s.modEng (Fin.ofNat 66 (64 + a)) (fun g => { g with halted := true })
  if sync ≠ 2 then (s.setSync 0).enterSafeHold (if sync = 1 then 1 else 2)
  else
    let n := s.fld 0x20000 23 16
    let s := (((s.setHb b 2).setFld 0x20000 0 0 b).setFld 0x20000 23 16 (min 255 (n + 1))).setSync 0
    let s := match s.tipin with
      | some t => (match execTipInFailure t.logical .headband s with | .next t => t | _ => s)
      | none => s
    let f := s.fresh
    let s := if bit f.1 0 then { f.2 with mgmt := [] } else f.2
    let s := (s.logErr (unitCode 0x0B b) 0x0E 0 0 0 none).2
    s.emit (unitCode 0x0B b) 0x0B03 none (BitVec.ofNat 64 b) 0

/-- HB_FAILOVER (R491). -/
def execHbFailover (s : State) : Res State :=
  .next (if s.present && !s.safeHold && s.hbField s.activeHb = 2 then s.failover else s)

/-! ## A unit fails (R487) -/

/-- A record UNIT_FAILED, and the unit's last TEST no longer counts (R472, R488). -/
def State.noteFailed (s : State) (u : Nat) : State :=
  let s := (s.logErr u 0x0C 0 0 0 none).2
  { s with tested := s.tested.filter (fun e => e.1 ≠ u), admits := s.admits.erase u }

/-- A quire goes OFFLINE with its logical quire moved or unavailable; its context is dropped where a committed image of
it is held, and ends otherwise (R487). -/
def State.offlineQuire (s : State) (i : QuireId) (n : Option (Fin 32)) (spare : Option QuireId) : State :=
  let c := s.q i
  let held := c.st ≠ .idle && c.st ≠ .offline
  let s := match n with
    | some n => s.colophon (fun s => s.setQmap n.val (match spare with | some j => 128 + j.val | none => 0))
    | none => s
  let s := if held && c.st ≠ .halted && !s.imageHeld i then s.contextFatal c.ctx 0x08 (unitCode 1 i.val) none else s
  let s := s.modQ i (fun c => { c.discarded with st := .offline })
  match n with
  | some n => if c.action ≠ 0 then s.mgmtNote n false else s
  | none => s

/-- A quire fails (R487, R260). One tip-in runs at a time: while another does, no spare is free. -/
def State.failQuire (s : State) (i : QuireId) : State :=
  if !s.quireUp i then s
  else
    let s := s.noteFailed (unitCode 1 i.val)
    let s := s.colophon (fun s => s.setFld 0x010 i.val i.val 0)
    let tip (what : TipFail) (t : TipIn) (s : State) : State :=
      match execTipInFailure t.logical what s with | .next u => u | _ => s
    let s := match s.tipin with
      | some t =>
        if t.source = i then tip .source t s
        else if t.spare = i then (tip .spare t s).modQ i (fun c => { c with st := .offline })
        else s.offlineQuire i (s.logicalOf i) (if decide ((s.q i).st = QState.running) then none else s.freeSpare)
      | none =>
        match s.logicalOf i, s.freeSpare with
        | some n, some j =>
          if decide ((s.q i).st = QState.running) then (match execTipIn n j s with | .next t => t | _ => s)
          else s.offlineQuire i (some n) (some j)
        | n, _ => s.offlineQuire i n none
    s.availEvent

/-- A stitcher fails (R368, R487). -/
def State.failStitcher (s : State) (e : EngineId) : State :=
  if !bit (s.reg 0x018) e.val then s
  else
    let f := s.fresh
    ((f.2.noteFailed (unitCode 2 e.val)).haltEngine e (bits f.1 7 0)
      |>.colophon (fun s => s.setFld 0x018 e.val e.val 0)).availEvent

/-- A stitch frame fails (R487): every stream of it ends with ENGINE_FAIL. -/
def State.failFrame (s : State) (f : Fin 4) : State :=
  if !s.frames[f].inService then s
  else
    let s := s.noteFailed (unitCode 3 f.val)
    let ids := (s.streams.filter (fun e => e.1 / 16384 = f.val)).map (fun e => BitVec.ofNat 16 e.1)
    let s := ids.foldl (fun s id => s.endStream id 0x06 0) s
    let s := s.setFrame f { s.frames[f] with inService := false }
    (s.colophon (fun s => s.setFld 0x018 (16 * f.val + 15) (16 * f.val) 0)).availEvent

/-- A mover fails (R487): the frame runs with fewer. -/
def State.failMover (s : State) (f : Fin 4) (m : Fin 16) : State :=
  let fr := s.frames[f]
  if !bit fr.movers m.val then s
  else (s.noteFailed (unitCode 3 f.val)).setFrame f { fr with movers := setBit fr.movers m.val false }

/-- A folio bank or a text-block channel fails (R487). -/
def State.failBank (s : State) (r : Region) (n : Nat) : State :=
  if r = .folio then
    if bit s.folioFailed n then s
    else { s.noteFailed (unitCode 4 n) with folioFailed := setBit s.folioFailed n true }
  else if bit s.txbFailed n then s
  else ({ s.noteFailed (unitCode 5 n) with txbFailed := setBit s.txbFailed n true } : State).availMem .text n false

/-- An HBM4 stack, LPDDR5X channel or CXL port fails (R487). -/
def State.failMem (s : State) (r : Region) (n : Nat) : State :=
  if s.fld (tierStat r n) 3 0 = 5 || s.fld (tierStat r n) 31 20 = 0 then s
  else ((s.noteFailed (unitCode (tierType r) n)).setUnitState r n 5).availMem r n false

/-- A Lorotte port fails (R434, R487): it is DOWN until it is admitted. REASON is free. -/
def State.failPort (s : State) (p : PortId) : State :=
  if bit s.portFailed p.val then s
  else
    let f := s.fresh
    let s : State := { f.2.noteFailed (unitCode 9 p.val) with portFailed := setBit s.portFailed p.val true }
    if (s.port p).st = 0 then s else s.portDown p 1 ((f.1.setWidth 3).setWidth 4)

/-- The standby headband fails, or the active one (R487, R489, R491). -/
def State.failHb (s : State) (h : Nat) : State :=
  if s.hbField h = 0 then s
  else if s.activeHb = h then (if s.safeHold then s else s.failover)
  else (((s.noteFailed (unitCode 0x0B h)).setHb h 0).setSync 0).modEng (Fin.ofNat 66 (64 + h)) (fun g => { g with halted := true })

/-- How many units of a type can leave service (R472, R487). -/
def unitCount : Nat → Nat
  | 0x01 => 34 | 0x02 => 64 | 0x03 => 4 | 0x04 => 64 | 0x05 => 32 | 0x06 => 8 | 0x07 => 16 | 0x08 => 4 | 0x09 => 24
  | 0x0A => 1 | 0x0B => 2 | 0x0C => 1 | _ => 0

/-- A unit is removed from service (R487); of a frame, one of its movers. -/
def State.failUnit (s : State) (type inst : Nat) (mover : Option (Fin 16)) : State :=
  match type with
  | 0x01 => s.failQuire (Fin.ofNat 34 inst)
  | 0x02 => s.failStitcher (Fin.ofNat 66 inst)
  | 0x03 => match mover with
    | some m => s.failMover (Fin.ofNat 4 inst) m
    | none => s.failFrame (Fin.ofNat 4 inst)
  | 0x04 => s.failBank .folio inst
  | 0x05 => s.failBank .text inst
  | 0x06 => s.failMem .hbm inst
  | 0x07 => s.failMem .lpd inst
  | 0x08 => s.failMem .cxl inst
  | 0x09 => s.failPort (Fin.ofNat 24 inst)
  | 0x0A => s.enterSafeHold 4
  | 0x0B => s.failHb inst
  | 0x0C => s.enterSafeHold 6
  | _ => s

/-- UNIT_FAILED (R487). -/
def execUnitFailed (type inst : Byte) (mover : Option (Fin 16)) (s : State) : Res State :=
  if unitCount type.toNat ≤ inst.toNat then .refused (.illFormed "UNIT_FAILED of a unit that the block does not have")
  else .next (if s.present then s.failUnit type.toNat inst.toNat mover else s)

/-! ## Returning units to service (R488) -/

/-- Whether a unit is out of service, and may be tested. -/
def State.outOfService (s : State) (type inst : Nat) : Bool :=
  match type with
  | 0x01 => !bit (s.reg 0x010) inst && (s.q (Fin.ofNat 34 inst)).st = .offline
  | 0x02 => !bit (s.reg 0x018) inst && s.frames[Fin.ofNat 4 (inst / 16)].inService
  | 0x03 => !s.frames[Fin.ofNat 4 inst].inService
  | 0x04 => bit s.folioFailed inst
  | 0x05 => bit s.txbFailed inst
  | 0x06 => s.fld (tierStat .hbm inst) 3 0 = 5
  | 0x07 => s.fld (tierStat .lpd inst) 3 0 = 5
  | 0x08 => s.fld (tierStat .cxl inst) 3 0 = 5
  | 0x09 => bit s.portFailed inst
  | _ => false

/-- RESULT of HB_SVC. -/
def State.svcResult (s : State) (n : Nat) : State := s.setFld 0x20010 59 56 n

/-- The start of a TEST: a quire, a stitcher and a frame are reset (R488). -/
def State.svcTest (s : State) (type inst : Nat) : State :=
  let u := unitCode type inst
  let s := (s.setFld 0x20010 63 63 1)
  let s := { s with svc := some (1, u), tested := s.tested.filter (fun e => e.1 ≠ u), admits := s.admits.erase u }
  match type with
  | 0x01 => (s.setQ (Fin.ofNat 34 inst) {}).resetRegs (qwin (Fin.ofNat 34 inst) 0) (qwin (Fin.ofNat 34 inst) 0x10000)
  | 0x02 => (s.setEng (Fin.ofNat 66 inst) { halted := true }).loseRam (Fin.ofNat 66 inst)
  | 0x03 =>
    let f := Fin.ofNat 4 inst
    (s.modFrameEngs f (fun _ => { halted := true })).setFrame f (s.frames[f].booted f) |>.stitchLost f false
  | _ => s

/-- A logical quire that no physical quire carries. Of several the lowest-numbered one is taken, which the spec leaves open
(R13, R488; log entry 187). -/
def State.emptyLogical (s : State) : Option (Fin 32) := (List.finRange 32).find? (fun n => (s.physOf n.val).isNone)

/-- ADMIT of a tested unit (R488): done at once, or, for a memory unit, a folio bank and a text-block channel, at its
quiescent point. -/
def State.svcAdmit (s : State) (type inst : Nat) : State :=
  match type with
  | 0x01 =>
    let i : QuireId := Fin.ofNat 34 inst
    let n := s.emptyLogical
    let s := s.colophon (fun s =>
      let s := s.setFld 0x010 inst inst 1
      match n with | some n => s.setQmap n.val (128 + inst) | none => s)
    ((s.modQ i (fun c => { c with st := .idle })).availEvent).svcResult 1
  | 0x02 =>
    let s := s.modEng (Fin.ofNat 66 inst) (fun g => { g with halted := false })
    (s.colophon (fun s => s.setFld 0x018 inst inst 1)).availEvent.svcResult 1
  | 0x03 =>
    let f : Fin 4 := Fin.ofNat 4 inst
    if s.streams.any (fun e => e.1 / 16384 = inst && e.2.state ≠ 0) then s.svcResult 3
    else
      let s := (s.modFrameEngs f (fun g => { g with halted := false })).setFrame f
        { s.frames[f] with inService := true, movers := 0xFFFF }
      (s.colophon (fun s => s.setFld 0x018 (16 * inst + 15) (16 * inst) 0xFFFF)).availEvent.svcResult 1
  | 0x09 => ({ s with portFailed := setBit s.portFailed inst false } : State).svcResult 1
  | _ => ({ s with admits := unitCode type inst :: s.admits.erase (unitCode type inst) } : State).svcResult 1

/-- A write of HB_SVC (R488). -/
def State.svcWrite (s : State) (src : Source) (act type inst : Nat) : State :=
  if bit (s.reg 0x20010) 63 || act = 0 || decide (3 < act) || type = 0 || decide (9 < type) then s.reject src 0x20010
  else if unitCount type ≤ inst then s.svcResult 3
  else match act with
    | 1 => if s.outOfService type inst then s.svcTest type inst else s.svcResult 3
    | 2 =>
      if s.outOfService type inst && s.tested.contains (unitCode type inst, true) then s.svcAdmit type inst
      else s.svcResult 3
    | _ => if s.outOfService type inst then s.svcResult 3 else (s.failUnit type inst none).svcResult 1

/-- TEST (R488). -/
def execTest (src : Source) (type inst : Byte) (s : State) : Res State :=
  s.inOrder src (.write 0 0x20010 true (BitVec.ofNat 64 (1 * 2 ^ 48 + type.toNat * 2 ^ 40 + inst.toNat * 2 ^ 32))) fun s =>
  .next (s.gate src 0x20010 (fun s => s.svcWrite src 1 type.toNat inst.toNat))
/-- ADMIT (R488). -/
def execAdmitUnit (src : Source) (type inst : Byte) (s : State) : Res State :=
  s.inOrder src (.write 0 0x20010 true (BitVec.ofNat 64 (2 * 2 ^ 48 + type.toNat * 2 ^ 40 + inst.toNat * 2 ^ 32))) fun s =>
  .next (s.gate src 0x20010 (fun s => s.svcWrite src 2 type.toNat inst.toNat))
/-- RETIRE (R488). -/
def execRetire (src : Source) (type inst : Byte) (s : State) : Res State :=
  s.inOrder src (.write 0 0x20010 true (BitVec.ofNat 64 (3 * 2 ^ 48 + type.toNat * 2 ^ 40 + inst.toNat * 2 ^ 32))) fun s =>
  .next (s.gate src 0x20010 (fun s => s.svcWrite src 3 type.toNat inst.toNat))

/-- Source of the training that a passed test of a memory unit leaves (R459): fresh or cached, a free value. -/
def State.testTrained (s : State) (r : Region) (n : Nat) : State :=
  let k := if r = .hbm then n else 8 + n
  let f := s.fresh
  if bit f.1 0 then { f.2.setFld (tierStat r n) 11 8 1 with calTrain := setBit s.calTrain k true }
  else f.2.setFld (tierStat r n) 11 8 (if bit s.calTrain k then 2 else 3)

/-- TEST_COMPLETE (R488). -/
def execTestComplete (pass : Bool) (s : State) : Res State :=
  match s.svc with
  | none => .next s
  | some (_, u) =>
    let s := (s.setFld 0x20010 63 63 0).svcResult (if pass then 1 else 2)
    let s : State := { s with svc := none, tested := (u, pass) :: s.tested }
    .next (if !pass then s else if u / 256 = 6 then s.testTrained .hbm (u % 256)
      else if u / 256 = 7 then s.testTrained .lpd (u % 256) else s)

/-! ## Calibration and wear (R482) -/

/-- CALIBRATION (R482): a channel that is READY, with its domain ON, runs the calibration that is due, 128 ms after its
last; forced, 1 s later. GTIME moves to that time (log entry 8). -/
def execCalibration (type inst : Byte) (forced : Bool) (ns : BitVec 12) (s : State) : Res State :=
  let t := type.toNat
  let u := unitCode t inst.toNat
  if t < 5 || 7 < t || unitCount t ≤ inst.toNat || 2000 < ns.toNat then
    .refused (.illFormed "CALIBRATION of a unit that is not calibrated, or longer than 2 us")
  else
    let r : Region := if t = 6 then .hbm else if t = 7 then .lpd else .text
    let ready : Bool := s.domState (tierDomain r inst.toNat) = 0 &&
      (if r = .text then !bit s.txbFailed inst.toNat else s.fld (tierStat r inst.toNat) 3 0 = 3)
    if !ready || !s.present then .next s
    else
      let due := (sGet 0 s.calAt u).toNat + 128000000 + (if forced then 1000000000 else 0)
      let s := if s.gtime.toNat < due then { s with gtime := BitVec.ofNat 64 due } else s
      let s := if r = .text then s else (s.setUnitState r inst.toNat 4).setUnitState r inst.toNat 3
      let s := s.emit u 0x0502 none (ns.setWidth 64) (if forced then 1 else 0)
      .next { s with calAt := sInsert s.calAt u s.gtime }

/-- TARGETED_ROW_REFRESH (R482): the neighbours of a row are refreshed, which changes nothing that the block's state
holds. -/
def execTargetedRowRefresh (type inst : Byte) (s : State) : Res State :=
  if type.toNat < 5 || 7 < type.toNat || unitCount type.toNat ≤ inst.toNat then
    .refused (.illFormed "TARGETED_ROW_REFRESH of a unit without rows")
  else .next s

/-! ## The text block: scrub and repair (R477 to R480) -/

/-- Offset of a channel's TXB_SCRUB. -/
def txbScrub (ch : Fin 32) : Nat := 0xA00100 + ch.val * 0x1000

/-- Address of an ECC word of a channel (log entry 17): a free place that R281 maps to this channel. -/
def State.wordAddr (s : State) (ch : Fin 32) (row word : Nat) : Nat :=
  let w := Config.txbWord ch.val row word
  let x := if s.txbMap = 0 then w % 0x800000000 / 32 * 32 else w % 0x400000000 / 32 * 32
  let v : BitVec 64 := BitVec.ofNat 64 x
  0x800000000 + (if s.txbMap = 0 then
      (setBits v 14 10 (Nat.xor (Nat.xor ch.val (x / 2 ^ 15 % 32)) (x / 2 ^ 20 % 32))).toNat
    else (setBits v 13 10 (Nat.xor (Nat.xor (ch.val % 16) (x / 2 ^ 14 % 16)) (x / 2 ^ 18 % 16))).toNat)

/-- Rows of a pass (R480). -/
def passRows : Nat := 524288

/-- SYND of a text-block error (R470): subarray 32 × bank + subarray, column, symbols. -/
def txbSynd (sub col sym : Nat) : W32 := BitVec.ofNat 32 (sub * 2 ^ 23 + col * 2 ^ 8 + sym)

/-- Pass time in force, in nanoseconds (R480). -/
def State.passNs (s : State) (ch : Fin 32) : Nat :=
  let h := s.fld (txbScrub ch) 23 16 * 3600000000000
  if 85 < s.fld (refstat ch) 23 16 then max (h / 2) 3600000000000 else h

/-- The channel is behind schedule by more than 1/64 (R480). -/
def State.scrubLate (s : State) (ch : Fin 32) : Bool :=
  let x := s.txb[ch]
  decide (s.passNs ch * (x.row + passRows / 64) < (s.gtime - x.passStart).toNat * passRows)

/-- TXB_SCRUB.LATE, which GLB_ERR_STATUS.SCRUB_LATE gathers (R476, R480). -/
def State.setLate (s : State) (ch : Fin 32) (late : Bool) : State :=
  let s := s.setFld (txbScrub ch) 30 30 (if late then 1 else 0)
  s.setFld 0x100 2 2 (if (List.finRange 32).any (fun c => bit (s.reg (txbScrub c)) 30) then 1 else 0)

/-- Change a channel's scrubber. -/
def State.modTxb (s : State) (ch : Fin 32) (f : Txb → Txb) : State := { s with txb := s.txb.set ch (f s.txb[ch]) }

/-- Whether a channel's scrubber and repairs run: in service, its domain ON. -/
def State.txbRuns (s : State) (ch : Fin 32) : Bool := s.present && s.domState 83 = 0 && !bit s.txbFailed ch.val

/-- RETIRE_ADVICE for every 32 MiB page that words of a channel lie in (R478, R479). -/
def State.retireAdvice (s : State) (ch : Fin 32) (addrs : List Nat) (synd : W32) : State :=
  ((addrs.map (fun a => a / 2 ^ 25)).eraseDups).foldl (fun s p =>
    ((s.logErr (unitCode 5 ch.val) 0x07 0 (BitVec.ofNat 64 (p * 2 ^ 25)) synd none).2).modTxb ch (fun x =>
      { x with retAdv := if x.retAdv = 0xFFFF#16 then x.retAdv else x.retAdv + 1 })) s

/-- A BITLINE record (R478): which of the column's words ADDR names is not stated: free. -/
def State.logBitline (s : State) (ch : Fin 32) (synd : W32) (repaired : Bool) : State :=
  let f := s.fresh
  (f.2.logErr (unitCode 5 ch.val) 0x05 (if repaired then 4 else 0) f.1 synd none).2

/-- The column signature meets its counts (R478): a guard column is assigned, or the subarray is out of them. -/
def State.classify (s : State) (ch : Fin 32) (row col sym : Nat) : State :=
  let sub := row / 1024
  let used := sGet 0 s.txb[ch].guards sub
  let synd := txbSynd sub col sym
  if used < 8 then
    (s.modTxb ch (fun x => { x with
      guards := sInsert x.guards sub (used + 1), classified := col :: x.classified,
      repairs := x.repairs ++ [(sub, col, BitVec.ofNat 8 sym, 0)] })).emit (unitCode 5 ch.val) 0x0503 none
      (synd.setWidth 64) (BitVec.ofNat 64 (row % 1024))
  else
    ((s.modTxb ch (fun x => { x with classified := col :: x.classified })).logBitline ch synd false).retireAdvice ch
      ((List.range 1024).flatMap (fun r => (List.range 64).map (fun w => s.wordAddr ch (1024 * sub + r) w))) synd

/-- One corrected word of a scrubbed row (R472, R477 to R479). -/
def State.scrubCe (s : State) (ch : Fin 32) (row word col sym : Nat) : State :=
  let sub := row / 1024
  let synd := txbSynd sub col sym
  let s := (s.logErr (unitCode 5 ch.val) 0x03 0 (BitVec.ofNat 64 (s.wordAddr ch row word)) synd none).2
  let x := s.txb[ch]
  let n := sGet 0 x.rowCe row + 1
  let due : Bool := decide (s.fld 0x30028 15 8 ≤ n) && !x.spareDue.any (fun e => e.1 = row)
  let old := (x.sig.find? (fun e => e.1 = col)).getD (col, 0, 0, [])
  let new : Nat × Byte × Nat × List Nat := (col, BitVec.ofNat 8 sym, old.2.2.1 + 1,
    if old.2.2.2.contains row then old.2.2.2 else row :: old.2.2.2)
  let s := s.modTxb ch (fun x => { x with
    rowCe := sInsert x.rowCe row n,
    spareDue := if due then x.spareDue ++ [(row, synd)] else x.spareDue,
    sig := new :: x.sig.filter (fun e => e.1 ≠ col) })
  if decide (8 ≤ new.2.2.1) && decide (4 ≤ new.2.2.2.length) && !x.classified.contains col then s.classify ch row col sym
  else s

/-- One uncorrectable word of a scrubbed row (R466, R477): its line is poisoned. COLUMN and the symbols of its
syndrome are not stated: free. -/
def State.scrubUe (s : State) (ch : Fin 32) (row word : Nat) : State :=
  let a := s.wordAddr ch row word
  let f := s.fresh
  let r := f.2.logErr (unitCode 5 ch.val) 0x04 8 (BitVec.ofNat 64 a) (txbSynd (row / 1024) 0 0 ||| (f.1.setWidth 23).setWidth 32) none
  (r.2.setPoison a r.1).emit (unitCode 5 ch.val) 0x0505 none (BitVec.ofNat 64 a) (r.1.setWidth 64)

/-- SCRUB_ROW_STEP (R477 to R480): the next row of the pass, with the corrected words found, each with its column and
symbols, and the uncorrectable ones. -/
def execScrubRowStep (ch : Fin 32) (ces : List (Fin 64 × BitVec 15 × Byte)) (ues : List (Fin 64)) (s : State) : Res State :=
  if ces.any (fun e => decide (17920 ≤ e.2.1.toNat)) then .refused (.illFormed "SCRUB_ROW_STEP with a column above 17,919")
  else if !s.txbRuns ch || !bit (s.reg (txbScrub ch)) 31 then .next s
  else
    let row := s.txb[ch].row
    let s := if row % 1024 = 0 then s.modTxb ch (fun x => { x with sig := [], classified := [] }) else s
    let s := ces.foldl (fun s e => s.scrubCe ch row e.1.val e.2.1.toNat e.2.2.toNat) s
    let s := ues.foldl (fun s w => s.scrubUe ch row w.val) s
    let s := (s.countEvent (unitCode 5 ch.val) 0x0504 1).countEvent (unitCode 5 ch.val) 0x0507 ces.length
    let s := if row + 1 < passRows then s.modTxb ch (fun x => { x with row := row + 1 })
      else (s.modTxb ch (fun x => { x with row := 0, passStart := s.gtime })).setFld (txbScrub ch) 15 0
        (s.fld (txbScrub ch) 15 0 + 1)
    .next (s.setLate ch (s.scrubLate ch))

/-- REPAIR_ROW_STEP (R478): the last row's rewrite ends the repair with its record. -/
def execRepairRowStep (ch : Fin 32) (s : State) : Res State :=
  match s.txb[ch].repairs with
  | [] => .next s
  | (sub, col, sym, n) :: r =>
    if !s.txbRuns ch then .next s
    else if n + 1 < 1024 then .next (s.modTxb ch (fun x => { x with repairs := (sub, col, sym, n + 1) :: r }))
    else .next ((s.modTxb ch (fun x => { x with repairs := r })).logBitline ch (txbSynd sub col sym.toNat) true)

/-- ROW_SPARED (R479): a row that is due is copied into a spare row of its bank, or its page is to be retired. Whether
the record counts as REPAIRED is not stated: free. -/
def execRowSpared (ch : Fin 32) (s : State) : Res State :=
  match s.txb[ch].spareDue with
  | [] => .next s
  | (row, synd) :: r =>
    if !s.txbRuns ch then .next s
    else
      let bank := row / 32768
      let used := sGet 0 s.txb[ch].spares bank
      let s := s.modTxb ch (fun x => { x with spareDue := r, rowCe := sErase x.rowCe row })
      if used < 32 then
        let f := s.fresh
        let s := f.2.modTxb ch (fun x => { x with spares := sInsert x.spares bank (used + 1) })
        let s := (s.logErr (unitCode 5 ch.val) 0x06 (if bit f.1 0 then 4 else 0) (BitVec.ofNat 64 (s.wordAddr ch row 0)) synd none).2
        .next (s.emit (unitCode 5 ch.val) 0x0503 none (synd.setWidth 64) (BitVec.ofNat 64 (row % 1024)))
      else .next (s.retireAdvice ch ((List.range 64).map (fun w => s.wordAddr ch row w)) synd)

/-- SCRUB_LATE (R480): GTIME moves to where the pass trails its schedule by more than 1/64 (log entry 8). -/
def execScrubLate (ch : Fin 32) (s : State) : Res State :=
  if !s.txbRuns ch || bit (s.reg (txbScrub ch)) 30 then .next s
  else
    let x := s.txb[ch]
    let t := x.passStart.toNat + s.passNs ch * (x.row + passRows / 64) / passRows + 1
    let s := if s.scrubLate ch then s else { s with gtime := BitVec.ofNat 64 t }
    .next (s.setLate ch true)

end Sys2Proof.Machine
end

