-- ==== Sys2Proof/Machine/Reset.lean ====
section
/-!
DEFINITION. Resets, the boot timeline, rail failures, the management reset and the wrapper (17_reliability.md R492,
18_power_clocks_boot.md R519 to R526, 19_debug_profiling.md R550, 21_integration_roadmap.md R556, R557).
-/
namespace Sys2Proof.Machine

/-- Registers of the always-on reset domain (R521). -/
def alwaysOn (off : Nat) : Bool :=
  [0x10000, 0x10010, 0x10020, 0x10028, 0x10030, 0x10038, 0x10040, 0x10048, 0x10050, 0x20000, 0x20008].contains off

/-- The tier map of a set of failed units in halves of n (R487): 0 the whole, 1 or 2 the half with no failure, 3 none. -/
def halfMap (n failed : Nat) : BitVec 2 :=
  if failed = 0 then 0 else if failed % 2 ^ n = 0 then 1 else if failed / 2 ^ n = 0 then 2 else 3

/-- The block with everything at its reset value but what outlives a block reset (R521, R526): the always-on
registers, GTIME, the straps, user calibration with the repair maps, the failed units that OTP knows, and what lies
outside the block. Local memory holds whatever it holds (log entry 15). -/
def State.afterReset (s : State) (cold : Bool) : State :=
  let admitted (t n : Nat) : Nat := (List.range n).foldl (fun m i => if s.admits.contains (unitCode t i) then m + 2 ^ i else m) 0
  let folio := s.folioFailed &&& ~~~ BitVec.ofNat 64 (admitted 4 64)
  let txb := s.txbFailed &&& ~~~ BitVec.ofNat 32 (admitted 5 32)
  let f := s.fresh
  let t : State := { ({} : State) with
    mem := s.mem, poison := s.poison, hostOut := s.hostOut, hostRsps := s.hostRsps, dbgRsps := s.dbgRsps,
    gtime := if cold then 0 else s.gtime
    win := s.win.filter (fun e => e.1 = 0x10058 || (!cold && alwaysOn e.1))
    straps := s.straps, calTrain := s.calTrain, calLink := s.calLink, nodeRec := s.nodeRec
    folioFailed := folio, txbFailed := txb
    folioMap := halfMap 32 folio.toNat, txbMap := halfMap 16 txb.toNat
    txb := s.txb.map (fun x => { ({} : Txb) with guards := x.guards, spares := x.spares })
    droop := s.droop, wir := s.wir
    linkGen := if f.1.setWidth 32 = s.linkGen then s.linkGen + 1 else f.1.setWidth 32
    free := f.2.free, pending := s.pending }
  let t := t.loseRange 0 0x100000000000
  if cold then t else
    { (t.setFld 0x10000 17 16 0).setFld 0x10000 31 31 0 with
      txb := t.txb.map (fun x => { x with passStart := s.gtime }) }

/-- Boot steps 2 and 3 (R523): the headbands whose firmware verifies. -/
def State.bootHeadbands (s : State) (env : BootEnv) : State :=
  let a := if bit env.badHb 0 then 1 else 0
  let both := env.badHb = 0
  ((((s.setFld 0x20000 0 0 a).setHb a 2).setHb (1 - a) (if both then 1 else 0)).setSync (if both then 1 else 0))

/-- Boot step 8b of one unit (R451, R459, R526). -/
def State.bootUnit (s : State) (env : BootEnv) (r : Region) (n : Nat) : State :=
  let k := if r = .hbm then n else 8 + n
  let cal := if r = .hbm then bit env.calHbm n else bit env.calLpd n
  let bad := if r = .hbm then bit env.badHbm n else bit env.badLpd n
  let s := s.setFld (tierStat r n) 31 20 (if r = .hbm then env.hbmCap.toNat else env.lpdCap.toNat)
  if bad then s.setFld (tierStat r n) 3 0 5
  else
    let s := ((s.setFld (tierStat r n) 3 0 3).setFld 0x20 (memBit r n) (memBit r n) 1).setFld (tierStat r n) 11 8
      (if !cal then 1 else if bit s.calTrain k then 2 else 3)
    if cal then s else { s with calTrain := setBit s.calTrain k true }

/-- Boot step 8b: HBM4 and LPDDR5X training, and the CXL links that are up. -/
def State.bootTiers (s : State) (env : BootEnv) : State :=
  let s := (List.range (strapUnits s.straps .hbm)).foldl (fun s n => s.bootUnit env .hbm n) s
  let s := (List.range (strapUnits s.straps .lpd)).foldl (fun s n => s.bootUnit env .lpd n) s
  let n := strapUnits s.straps .cxl
  let s : State := { s with cxlUp := env.cxlUp &&& BitVec.ofNat 4 (2 ^ n - 1) }
  (List.range n).foldl (fun s x =>
    if bit s.cxlUp x then (s.setFld (tierStat .cxl x) 3 0 3).setFld 0x20 (memBit .cxl x) (memBit .cxl x) 1 else s) s

/-- Boot step 8c (R21): the quires that pass, mapped in order. -/
def State.bootQuires (s : State) (env : BootEnv) : State :=
  let good := (List.finRange 34).filter (fun i => !bit env.badQuire i.val)
  let s := good.foldl (fun s i => s.setQ i { st := .idle }) s
  let s := (List.range 32).foldl (fun s n => match good[n]? with
    | some i => s.setQmap n (128 + i.val)
    | none => s) s
  s.setReg 0x010 ((~~~ env.badQuire).setWidth 64)

/-- Boot step 8d (R373, R523): the frames with their signed images, and the stitchers that pass. -/
def State.bootStitch (s : State) (env : BootEnv) : State :=
  let s := { s with
    frames := Vector.ofFn (fun (f : Fin 4) => ({} : Frame).booted f)
    engines := Vector.ofFn (fun (e : Fin 66) => { ({} : Engine) with halted := bit env.badEng e.val }) }
  s.setReg 0x018 (~~~ env.badEng)

/-- The NODE record (R524, R526): node ID and epoch-0 routes; without one, HINT is 255. -/
def State.bootNode (s : State) : State :=
  match s.nodeRec with
  | some n => { s.setReg 0xD80000 (BitVec.ofNat 64 (2 ^ 31 + n.1.toNat)) with rte := n.2 }
  | none => s.setFld 0xD80008 7 0 255

/-- A boot step in the active headband's ring (R532). -/
def State.bootStep (s : State) (n : W64) : State := s.record s.hbUnit 0x0B01 n 0

/-- Boot, from step 2 to step 9 (R523): with both headbands failed it stops, and the block is absent. How the ring
numbers steps 8a to 8e is not stated: free. -/
def State.boot (s : State) (env : BootEnv) : State :=
  let stopped : Bool := s.wir ≠ .bypass && s.wir ≠ .ijtag && s.wir ≠ .preload
  if env.badHb = 3#2 then { s.setFld 0x100 8 8 1 with present := false }
  else
    let s := (s.bootHeadbands env).ringStart false
    let s : State := { s with
      present := !stopped
      ports := Vector.ofFn (fun p => if s.bonded p then s.ports[p] else { s.ports[p] with st := 0 }) }
    let s := s.bootStep 7
    let s := s.setFld 0x20 31 0 ((~~~ s.txbFailed).toNat)
    let s := ((s.bootTiers env).bootQuires env).bootStitch env
    let s := (List.range 5).foldl (fun s _ => let f := s.fresh; f.2.bootStep f.1) s
    let s := (s.setFld 0x004 31 0 2).bootNode
    (s.ppMove s.basePoint).bootStep 9

/-- A block reset, and the boot that follows it (R521, R523). SAFE HOLD outlasts it unless `clear`, which a management
or a cold reset is (R492). -/
def State.blockReset (s : State) (env : BootEnv) (clear : Bool) : State :=
  let hold := s.safeHold && !clear
  let s := s.afterReset false
  let s := if hold then s.setFld 0x100 31 31 1 else (s.setFld 0x20000 31 31 0).setFld 0x20000 27 24 0
  s.boot env

/-- Set bits of PWR_RSTCAUSE (R522). -/
def State.rstCause (s : State) (b : Nat) : State := s.setFld 0x10058 b b 1

/-- A cold reset and boot (R521, R523). -/
def State.coldReset (s : State) (cause : Nat) (env : BootEnv) : State :=
  ((s.afterReset true).rstCause cause).boot env

/-- PWR_RSTCAUSE after a loss of VIN_AON: undefined, so free (R522). -/
def State.loseCause (s : State) : State :=
  let f := s.fresh
  f.2.setReg 0x10058 (f.1 &&& 0x37#64)

/-- COLD_RESET (R521 to R523, R556): the straps are sampled anew. A failure of the always-on supply is that of VIN_AON
or of VDD_AON, which the command does not say: a free value decides whether PWR_RSTCAUSE is lost. -/
def execColdReset (cause : RstCause) (straps : W32) (env : BootEnv) (s : State) : Res State :=
  let s : State := { s with straps := straps }
  match cause with
  | .por => .next (s.coldReset 0 env)
  | .brownout => .next (s.coldReset 2 env)
  | .aonFail =>
    let f := s.fresh
    .next ((if bit f.1 0 then f.2.loseCause else f.2).coldReset 1 env)

/-- BLOCK_RESET (R521). -/
def execBlockReset (env : BootEnv) (s : State) : Res State := .next (s.blockReset env false)

/-- RAIL_FAILURE (R519 to R521): of the always-on supply, a cold reset; of a rail that feeds a domain which is ON or
GATED, a block reset; otherwise the saves of the domains it feeds are lost. -/
def execRailFailure (rail : Rail) (env : BootEnv) (s : State) : Res State :=
  let fed := (List.range 86).filter (fun d => railFeeds rail d)
  match rail with
  | .vinAon => .next (s.loseCause.coldReset 1 env)
  | .vddAon => .next (s.coldReset 1 env)
  | .ldo => .next (s.coldReset 2 env)
  | .io => .next s
  | .domain d => .next (s.loseSave d.val)
  | _ =>
    if fed.any (fun d => decide (s.domState d < 2)) then .next ((s.rstCause 4).blockReset env false)
    else .next (fed.foldl State.loseSave s)

/-! ## The management reset (R492) -/

/-- A write of HB_CTL (R492): only by the host and the debug network; in every state of the block. -/
def State.hbCtlWrite (s : State) (src : Source) (v : Nat) (env : BootEnv) : State :=
  match src with
  | .host | .debug =>
    if v = 5 then { s with armed := true }
    else if v = 0xA && s.armed then (s.rstCause 5).blockReset env true
    else { s.reject src 0x20008 with armed := false }
  | _ => s.reject src 0x20008

/-- MRESET_ARM. -/
def execMresetArm (src : Source) (s : State) : Res State :=
  s.inOrder src (.write 0 0x20008 false 5) fun s =>
  .next (s.gate src 0x20008 (fun s => s.hbCtlWrite src 5 ⟨0, 0, 0, 0, 0, 0, 0, 0, 0, 0⟩))
/-- MANAGEMENT_RESET. -/
def execManagementReset (src : Source) (env : BootEnv) (s : State) : Res State :=
  s.inOrder src (.reset env) fun s =>
    .next (s.gate src 0x20008 (fun s => s.hbCtlWrite src 0xA env))
/-- MRESET_ARM_EXPIRY (R492): the arming lapses. -/
def execMresetArmExpiry (s : State) : Res State := .next { s with armed := false }

/-! ## The wrapper (R550, R557) -/

/-- A wrapper instruction that stops the block. -/
def Wir.stops : Wir → Bool
  | .extest | .intest | .clamp | .safe => true
  | _ => false

/-- A wrapper instruction is loaded: leaving one that stops the block performs a block reset. -/
def State.loadWir (s : State) (w : Wir) (env : BootEnv) : State :=
  let old := s.wir
  let s : State := { s with wir := w }
  let s := if old.stops && decide (w ≠ old) then s.blockReset env false else s
  if w.stops then { s with present := false } else s

/-- WS_BYPASS. -/
def execWsBypass (env : BootEnv) (s : State) : Res State := .next (s.loadWir .bypass env)
/-- WS_IJTAG. -/
def execWsIjtag (env : BootEnv) (s : State) : Res State := .next (s.loadWir .ijtag env)
/-- WS_PRELOAD: the boundary cells are outside the block's state. -/
def execWsPreload (env : BootEnv) (s : State) : Res State := .next (s.loadWir .preload env)
/-- WS_EXTEST. -/
def execWsExtest (env : BootEnv) (s : State) : Res State := .next (s.loadWir .extest env)
/-- WS_INTEST. -/
def execWsIntest (env : BootEnv) (s : State) : Res State := .next (s.loadWir .intest env)
/-- WS_CLAMP. -/
def execWsClamp (env : BootEnv) (s : State) : Res State := .next (s.loadWir .clamp env)
/-- WS_SAFE. -/
def execWsSafe (env : BootEnv) (s : State) : Res State := .next (s.loadWir .safe env)

end Sys2Proof.Machine
end

