-- ==== Sys2Proof/Machine/Window.lean ====
section
/-!
DEFINITION. The register window: reads and writes of its registers by every path (00_scope.md R2 to R9, 14_host_queues.md
R375, R379 to R383, 19_debug_profiling.md R536 to R539, R547 to R549, and the registers of every chapter).
-/
namespace Sys2Proof.Machine

/-! ## Values (R2) -/

/-- GLB_FEATURE (R564). -/
def State.feature (s : State) : W64 :=
  let b (c : Bool) (n : Nat) : Nat := if c then 2 ^ n else 0
  BitVec.ofNat 64 (0x1012C70787 + b (bit s.straps 31) 11 + b (strapUnits s.straps .cxl ≠ 0) 6 +
    b (strapUnits s.straps .lpd ≠ 0) 5 + b (strapUnits s.straps .hbm ≠ 0) 4 + b (bits s.straps 30 7 ≠ 0) 3)

/-- Q_STATUS.STATE (R253). -/
def QState.code : QState → Nat
  | .idle => 0 | .running => 1 | .grace => 2 | .quiesce => 3 | .saving => 4 | .restoring => 5 | .held => 6
  | .halted => 7 | .tipinSource => 8 | .tipinTarget => 9 | .offline => 10

/-- Q_STATUS (R253). -/
def Quire.statusReg (c : Quire) : W64 :=
  BitVec.ofNat 64 (c.st.code + c.ctx.toNat * 2 ^ 16 + c.result.toNat * 2 ^ 32)

/-- SF_STAT (R357). -/
def State.sfStat (s : State) (f : Fin 4) : W64 :=
  let mine := s.streams.filter (fun e => e.1 / 16384 = f.val)
  BitVec.ofNat 64 (s.frames[f].ops.length % 128 + mine.countP (fun e => e.2.state = 1) * 2 ^ 16 +
    mine.countP (fun e => e.2.state ≠ 0) * 2 ^ 32)

/-- SF_ENGSTAT (R368, R371). -/
def State.engStat (s : State) (f : Fin 4) : W64 :=
  BitVec.ofNat 64 ((List.range 16).foldl (fun n k =>
    let g := s.eng (Fin.ofNat 66 (16 * f.val + k))
    n + (if g.halted then 2 ^ k else 0) + (if g.det then 2 ^ (16 + k) else 0)) 0)

/-- SF_PATCH_STAT (R373): an engine inside a far load has not reached its boundary; any other reaches it within the
command. -/
def State.patchStat (s : State) (f : Fin 4) : W64 :=
  let fr := s.frames[f]
  let wait := (List.range 16).foldl (fun n k =>
    let g := s.eng (Fin.ofNat 66 (16 * f.val + k))
    n + (if fr.patchBusy && g.held && g.insideFar then 2 ^ k else 0)) 0
  BitVec.ofNat 64 (wait + fr.patchResult.toNat * 2 ^ 48 + (if fr.patchDhold then 2 ^ 62 else 0) +
    (if fr.patchBusy then 2 ^ 63 else 0))

/-- TXB_REPAIR (R480). -/
def Txb.repair (x : Txb) : W64 :=
  BitVec.ofNat 64 (x.retAdv.toNat + x.spares.foldl (fun n e => n + e.2) 0 * 2 ^ 16 + x.guards.foldl (fun n e => n + e.2) 0 * 2 ^ 32)

/-- LNK_STATE (R442). -/
def Port.state (x : Port) : W64 :=
  BitVec.ofNat 64 (x.st.toNat + laneCode x.lanes * 2 ^ 8 + x.reason.toNat * 2 ^ 12 + x.ver.toNat * 2 ^ 24 +
    x.pport.toNat * 2 ^ 41 + x.pnode.toNat * 2 ^ 46)

/-- DBG_RING_STAT (R536). -/
def Ring.stat (r : Ring) : W64 :=
  BitVec.ofNat 64 (r.count.toNat + (if r.stopped then 2 ^ 47 else 0) + r.dropped.toNat * 2 ^ 48)

/-- HST_DB_STAT.STATE. -/
def QueueSt.code : QueueSt → Nat
  | .disabled => 0 | .enabled => 1 | .draining => 2 | .fatal => 3

/-- HST_DB_STAT (R386). -/
def Queue.stat (x : Queue) : W64 :=
  BitVec.ofNat 64 (x.st.code + (if x.busySt then 8 else 0) + (if x.phase then 16 else 0) + x.cqTail.toNat * 2 ^ 16 +
    x.sqHead.toNat * 2 ^ 32 + x.outstanding * 2 ^ 48)

/-- A register of a doorbell page (R386). -/
def Queue.pageReg (x : Queue) (off : Nat) : W64 :=
  if off = 0 then x.sqTail.setWidth 64 else if off = 8 then x.cqHead.setWidth 64 else if off = 0x18 then x.stat else 0

/-- The value of a register at its base offset, WO fields as 0. `debug` selects the debug network's copies (R549). -/
def State.regValue (s : State) (debug : Bool) (off : Nat) : W64 :=
  if off < 0x4000 then
    if off = 0 then BitVec.ofNat 64 (0x5A110000 + Config.stepping.toNat * 256)
    else if off = 8 then s.feature
    else if 0x10 ≤ off && off < 0x50 then (if s.booted then s.reg off else 0)
    else if off = 0x238 then 0
    else if off = 0x208 then s.reg off &&& maskW 64 63 63
    else s.reg off
  else if off < 0x10000 then
    if off = 0x4000 then s.reg off ||| (if bit s.straps 31 then 1 else 0) else s.reg off
  else if off < 0x30000 then
    if off = 0x10030 then
      s.reg off ||| (if s.reg 0x10048 ≠ 0 || s.reg 0x10050 ≠ 0 then maskW 64 29 29 else 0)
    else if off = 0x10060 then s.reg off ||| (if s.calTrain ≠ 0 || s.calLink ≠ 0 then maskW 64 8 8 else 0)
    else s.reg off
  else if off < 0x40000 then s.reg off
  else if off < 0x80000 then
    let c := s.cnt (s.cntSel debug)
    if off = 0x40000 then BitVec.ofNat 64 (s.ringSel debug)
    else if off = 0x40008 then (s.ring (s.ringSel debug)).stat
    else if off = 0x40010 then
      let r := s.ring (s.ringSel debug)
      BitVec.ofNat 64 ((if r.freeze then 1 else 0) + (if r.autofrz then 2 else 0))
    else if off = 0x40018 then 0
    else if off = 0x40100 then BitVec.ofNat 64 (s.cntSel debug)
    else if off < 0x58000 then s.reg off
    else if off < 0x58100 then (c.event.getD ((off - 0x58000) / 4) 0).setWidth 64
    else if off < 0x58200 then c.count.getD ((off - 0x58100) / 8) 0
    else c.shadow.getD ((off - 0x58200) / 8) 0
  else if off < 0x400000 then
    let i : QuireId := Fin.ofNat 34 ((off - 0x100000) / 0x10000)
    let w := (off - 0x100000) % 0x10000
    if s.domState i.val ≠ 0 then 0
    else if w = 8 then (s.q i).statusReg
    else if w = 0 || w = 0x24 || w = 0x28 then 0
    else s.reg off
  else if off < 0x800000 then
    let f : Fin 4 := Fin.ofNat 4 ((off - 0x400000) / 0x100000)
    let w := (off - 0x400000) % 0x100000
    if w = 0x10 then s.sfStat f else if w = 0x18 then s.engStat f else if w = 0x108 then s.patchStat f else 0
  else if off < 0xC00000 then
    if 0xA00000 ≤ off && (off - 0xA00000) % 0x1000 = 0x108 then (s.txb.getD ((off - 0xA00000) / 0x1000) {}).repair
    else s.reg off
  else if off < 0xD80000 then
    let p : PortId := Fin.ofNat 24 ((off - 0xC00000) / 0x10000)
    let w := (off - 0xC00000) % 0x10000
    if w = 0x10 then (s.port p).state
    else if w = 0 && !s.bonded p then s.reg off &&& ~~~ 1#64
    else s.reg off
  else if off < 0x1000000 then s.reg off
  else (s.queue (BitVec.ofNat 12 ((off - 0x1000000) / 0x1000))).pageReg (off % 0x1000)

/-- The 32 bytes of an error record (R470). -/
def ErrRec.bytes (r : ErrRec) : List Byte :=
  leBytes 8 r.gtime.toNat ++ leBytes 2 r.unit.toNat ++ [r.type, r.flags] ++ leBytes 4 r.seq.toNat ++
    leBytes 8 r.addr.toNat ++ leBytes 4 r.synd.toNat ++ leBytes 2 r.ctx.toNat ++ leBytes 2 r.count.toNat

/-- The 32 bytes of a ring record (R533). -/
def RingRec.bytes (r : RingRec) : List Byte :=
  leBytes 8 r.gtime.toNat ++ leBytes 2 r.code.toNat ++ leBytes 2 r.info.toNat ++ leBytes 4 r.seq.toNat ++
    leBytes 8 r.arg0.toNat ++ leBytes 8 r.arg1.toNat

/-- Four bytes of a list, as a word. -/
def wordAt (l : List Byte) (off : Nat) : W32 := BitVec.ofNat 32 (leNat ((l.drop off).take 4))

/-- A router-table entry's bytes lie here (R449). -/
def routerTable (off : Nat) : Bool :=
  (0xD81000 ≤ off && off < 0xD81100) || (0xD82000 ≤ off && off < 0xD82400) || (0xDC0000 ≤ off && off < 0xDD0000)

/-- A word of what is no register: the error-log banks (R470), the ring window (R536), a frame's images and patch
buffer (R372), the router's tables (R449); 0 elsewhere (R6). -/
def State.otherWord (s : State) (debug : Bool) (off : Nat) : W32 :=
  if 0x31000 ≤ off && off < 0x3D000 then
    let x := off - 0x31000
    match (s.errBanks.getD (x / 0x3000) []).find? (fun e => e.1 = x % 0x3000 / 32) with
    | some e => wordAt e.2.bytes (x % 32)
    | none => 0
  else if 0x50000 ≤ off && off < 0x52000 then
    match (s.ring (s.ringSel debug)).recs.find? (fun r => r.seq.toNat % 256 = (off - 0x50000) / 32) with
    | some r => wordAt r.bytes (off % 32)
    | none => 0
  else if 0x400000 ≤ off && off < 0x800000 then
    let fr := s.frames[Fin.ofNat 4 ((off - 0x400000) / 0x100000)]
    let w := (off - 0x400000) % 0x100000
    if 0x80000 ≤ w && w < 0x84000 then sGet 0 fr.patchBuf ((w - 0x80000) / 4)
    else if 0xB0000 ≤ w && w < 0xB1100 then sGet 0 fr.dec ((w - 0xB0000) / 4)
    else if 0xC0000 ≤ w then sGet 0 fr.imem ((w - 0xC0000) / 4)
    else 0
  else if routerTable off then BitVec.ofNat 32 (s.rteWord (off - 0xD80000) 4)
  else 0

/-- A naturally aligned 32-bit read of the register window (R7). -/
def State.winRead32 (s : State) (debug : Bool) (off : Nat) : W32 :=
  match findReg off with
  | some _ => (s.regValue debug off).setWidth 32
  | none =>
    match (if off % 8 = 4 then findReg (off - 4) else none) with
    | some r => if r.bits = 64 then (s.regValue debug (off - 4)).extractLsb' 32 32 else s.otherWord debug off
    | none => s.otherWord debug off

/-- A counter whose count a window read of n bytes at an offset reaches is looked at (R538; log entry 40). -/
def State.winLook (s : State) (debug : Bool) (off n : Nat) : State :=
  if 0x58100 ≤ off + n - 1 && off < 0x58200 then s.settleCounts (s.cntSel debug) else s

/-- A naturally aligned read of the register window. -/
def State.winRead (s : State) (debug : Bool) (off : Nat) (wide : Bool) : W64 :=
  if wide then s.winRead32 debug (off + 4) ++ s.winRead32 debug off else (s.winRead32 debug off).setWidth 64

/-! ## Writes (R5 to R7) -/

/-- A HEAD that would pass TAIL in a ring of n slots. -/
def passes (n old new tail : Nat) : Bool := decide ((tail + n - old % n) % n < (new + n - old % n) % n)

/-- Store a write unless it is reserved. -/
def State.putIf (s : State) (ok : Bool) (src : Source) (off : Nat) (v : W64) : State :=
  if ok then s.applyWrite off v else s.reject src off

/-- How the block finds itself at a reboot that a plain write causes: free (log entry 2). -/
def State.freeEnv (s : State) : BootEnv × State :=
  let a := s.fresh
  let b := a.2.fresh
  let c := b.2.fresh
  let d := c.2.fresh
  let cap (r : Region) : BitVec 12 := BitVec.ofNat 12 (s.fld (tierStat r 0) 31 20)
  (⟨cap .hbm, cap .lpd, a.1.extractLsb' 0 8, a.1.extractLsb' 8 16, a.1.extractLsb' 24 8, a.1.extractLsb' 32 16,
    a.1.extractLsb' 48 4, b.1.setWidth 34, c.1, d.1.setWidth 2⟩, d.2)

/-- Colophon and global registers (R476, R291, R304, R307, R308, R462). The colophon's fields are RO to every writer: its
changes are the active headband's own, with the events that cause them, and a REGISTER_WRITE of a headband or of the debug
network to it is ignored as the host's is, which R17 does not say (log entry 184). -/
def State.writeGlb (s : State) (src : Source) (off : Nat) (v : W64) : State :=
  if off = 0x100 then
    let s := s.applyWrite off v
    if bit v 0 then s.setFld 0x110 30 30 0 else s
  else if off = 0x200 then s.putIf (inFolioText (bits v 45 17 * 0x20000) 0x20000) src off v
  else if off = 0x208 then (if 4 < bits v 62 60 then s.reject src off else s.xlatInvWrite src v)
  else if off = 0x220 then s.putIf (inFolioText (bits v 45 12 * 0x1000) 1 && decide (bits v 3 0 ≤ 6)) src off v
  else if off = 0x228 then s.putIf (decide (bits v 13 8 < 34) && decide (64 ≤ bits v 7 0)) src off v
  else if off = 0x230 then s.putIf (decide (bits v 15 0 < s.xfqSize)) src off v
  else if off = 0x238 then
    let r := if bits v 63 62 = 1 then execXfqRetry (v.extractLsb' 48 12) (v.setWidth 16) s
      else if bits v 63 62 = 2 then execXfqFail (v.extractLsb' 48 12) (v.setWidth 16) s
      else .next (s.reject src off)
    (match r with | .next t => t | _ => s)
  else if off = 0x300 then s.roleWrite src v
  else s.applyWrite off v

/-- Host-port registers (R381 to R384, R399). -/
def State.writeHst (s : State) (src : Source) (off : Nat) (v : W64) : State :=
  if off = 0x4008 then s.putIf (decide (16 ≤ bits v 12 0) && decide (bits v 12 0 ≤ 4096)) src off v
  else if off = 0x4018 then s.putIf (inFolioText (bits v 45 18 * 0x40000) 0x40000) src off v
  else if off = 0x4020 then s.putIf (inFolioText (bits v 45 16 * 0x10000) 0x10000) src off v
  else if off = 0x4028 then s.qcmdWrite src (bits v 51 48) (v.setWidth 12)
  else if off = 0x4030 then
    s.putIf (decide (bits v 11 8 ≤ 8) && inQueueSpace (bits v 45 12 * 0x1000) (4096 * 2 ^ bits v 11 8)) src off v
  else if off = 0x4038 then
    s.putIf (decide (bits v 15 0 < s.evqSize) && !passes s.evqSize (s.fld off 15 0) (bits v 15 0) (s.fld off 31 16)) src off v
  else s.applyWrite off v

/-- Power, clock and reset, and the headband mailbox (R488, R492, R494, R498, R505, R511, R518, R527, R528, R531). -/
def State.writePwr (s : State) (src : Source) (off : Nat) (v : W64) : State :=
  if off = 0x20008 then
    let e := s.freeEnv
    if bits v 3 0 = 0xA && s.armed then e.2.hbCtlWrite src 0xA e.1 else s.hbCtlWrite src (bits v 3 0) e.1
  else if off = 0x20010 then s.svcWrite src (bits v 51 48) (bits v 47 40) (bits v 39 32)
  else if 0x20000 ≤ off then s.applyWrite off v
  else if !pwrWriter src then s.reject src off
  else if off = 0x10000 then s.devWrite src v
  else if off = 0x10008 then s.clkWrite src v
  else if off = 0x10010 then s.putIf (decide (200 ≤ bits v 9 0) && decide (bits v 9 0 ≤ 950)) src off v
  else if off = 0x10020 then
    s.putIf (decide (bits v 31 24 ≤ 110) && decide (bits v 23 16 < bits v 31 24) && decide (bits v 15 8 ≤ bits v 31 24)) src off v
  else if off = 0x10060 then s.calWrite src (bits v 3 0)
  else if 0x10100 ≤ off then s.domWrite ((off - 0x10100) / 8) src v
  else s.applyWrite off v

/-- The error log's registers (R473 to R475). -/
def State.writeErr (s : State) (src : Source) (off : Nat) (v : W64) : State :=
  if off < 0x30020 then
    s.putIf (decide (bits v 8 0 < 384) && !passes 384 (s.fld off 8 0) (bits v 8 0) (s.fld off 24 16)) src off v
  else if off = 0x30020 then s.putIf (decide (bits v 13 8 < 34) && decide (64 ≤ bits v 7 0)) src off v
  else s.putIf (decide (2 ≤ bits v 15 8)) src off v

/-- Debug and trace (R532, R536, R538, R539). -/
def State.writeDbg (s : State) (src : Source) (off : Nat) (v : W64) : State :=
  let dbg := viaDebug src
  let u := bits v 15 0
  if off = 0x40000 then
    if !hasRing u then s.reject src off
    else if dbg then { s with dbgRingSel := BitVec.ofNat 32 u } else s.applyWrite off v
  else if off = 0x40010 then s.ringCtl dbg (v.setWidth 32)
  else if off = 0x40018 then s.emit (s.ringSel dbg) 2 none v (BitVec.ofNat 64 (sourceCode src))
  else if off = 0x40100 then
    if !hasCounters u then s.reject src off
    else if dbg then { s with dbgCntSel := BitVec.ofNat 32 u } else s.applyWrite off v
  else if 0x40200 ≤ off && off < 0x40220 then
    s.putIf ((List.range 4).all (fun k => elem v 16 k = 0 || hasCounters (elem v 16 k))) src off v
  else if off < 0x58000 then s
  else if off < 0x58100 then s.countCfg src (Fin.ofNat 16 ((off - 0x58000) / 4)) (v.setWidth 32)
  else if off < 0x58200 then s.countWrite dbg (Fin.ofNat 16 ((off - 0x58100) / 8)) v
  else s

/-- A write at offset `w` of a quire's window (R250, R253, R274, R394); `off` is the register's own offset. -/
def State.quireReg (s : State) (src : Source) (writer : QuireId) (i : QuireId) (w off : Nat) (v : W64) : State :=
  match w with
  | 0x00 => s.ctxWrite i src (bits v 3 0) (v.extractLsb' 16 12) (bit v 4)
  | 0x18 => s.putIf (inFolioText (bits v 45 12 * 0x1000) (1072 * 1024)) src off v
  | 0x20 => s.putIf (decide (bits v 7 0 ≤ 40)) src off v
  | 0x24 => if bits v 7 0 < 64 then s.reject src off else s.raiseIrq i (bits v 7 0)
  | 0x28 => s.qEnd i src writer (v.setWidth 32)
  | 0x100 => s.cacheCtlWrite i src (v.setWidth 32)
  | _ => s.applyWrite off v

/-- A quire's window. -/
def State.writeQuire (s : State) (src : Source) (writer : QuireId) (off : Nat) (v : W64) : State :=
  s.quireReg src writer (Fin.ofNat 34 ((off - 0x100000) / 0x10000)) ((off - 0x100000) % 0x10000) off v

/-- A write at offset `w` of a frame's window (R353, R356, R372). -/
def State.frameReg (s : State) (src : Source) (writer : QuireId) (f : Fin 4) (w off : Nat) (v : W64) : State :=
  match w with
  | 0x00 => s.screate f src writer v
  | 0x08 =>
    if bits v 63 62 = 0 || bits v 63 62 = 3 then s.reject src off
    else s.sctlWrite f src writer (v.extractLsb' 48 12) (v.setWidth 16) (bits v 63 62 = 1)
  | 0x100 => if bit v 63 then s.patchStart f src (bits v 10 0) else s.reject src off
  | _ => s

/-- A frame's window. -/
def State.writeFrame (s : State) (src : Source) (writer : QuireId) (off : Nat) (v : W64) : State :=
  s.frameReg src writer (Fin.ofNat 4 ((off - 0x400000) / 0x100000)) ((off - 0x400000) % 0x100000) off v

/-- Memory controllers, tiers and text-block channels (R455, R458, R480). -/
def State.writeMem (s : State) (src : Source) (off : Nat) (v : W64) : State :=
  if 0x940000 ≤ off && off < 0x940018 then s.tierWrite (Fin.ofNat 3 ((off - 0x940000) / 8)) src v
  else if 0x900000 ≤ off && off < 0x940000 && off % 0x10000 = 8 then s.cxlCfgWrite (Fin.ofNat 4 ((off - 0x900000) / 0x10000)) src v
  else if 0xA00000 ≤ off && (off - 0xA00000) % 0x1000 = 0x100 then
    let x := s.txb.getD ((off - 0xA00000) / 0x1000) {}
    s.putIf (decide (1 ≤ bits v 23 16) && decide (bits v 23 16 ≤ 24) && (bit v 31 || x.repairs.isEmpty)) src off v
  else s.applyWrite off v

/-- A write at offset `w` of a port's window (R440 to R442, R542). -/
def State.portReg (s : State) (src : Source) (p : PortId) (w off : Nat) (v : W64) : State :=
  match w with
  | 0x00 => s.lnkCtlWrite p src v
  | 0x28 => s.putIf (decide (10 ≤ bits v 4 0) && decide (bits v 4 0 ≤ 24)) src off v
  | _ => s.applyWrite off v

/-- A headband writes the node ID. The firmware may keep it as the NODE record, with the epoch-0 routes (R526): a free
value. -/
def State.nodeWrite (s : State) (off : Nat) (v : W64) : State :=
  let f := s.fresh
  let s := (f.2.applyWrite off v).setFld off 31 31 1
  if bit f.1 0 then
    { s with nodeRec := some (v.setWidth 18, s.rte.filter (fun e =>
      (decide (0x1000 ≤ e.1) && decide (e.1 < 0x1080)) || (decide (0x40000 ≤ e.1) && decide (e.1 < 0x48000)))) }
  else s

/-- A headband writes RTE_BOOT: the HINT of NOT_READY, and REL, which releases the ports (R423). -/
def State.rteBootWrite (s : State) (off : Nat) (v : W64) : State :=
  let s := s.setFld off 7 0 (bits v 7 0)
  if bit v 31 then s.releasePorts else s

/-- A write at offset `w` of the router's window (R443 to R448). -/
def State.routerReg (s : State) (src : Source) (w off : Nat) (v : W64) : State :=
  match w with
  | 0x00 => if src ≠ .headband || bits v 17 0 = 0x3FFFF then s.reject src off else s.nodeWrite off v
  | 0x08 => if src ≠ .headband then s.reject src off else s.rteBootWrite off v
  | 0x10 => s.putIf (bits v 15 0 ≠ 0) src off v
  | 0x18 => if bit v 1 && bit (s.reg off) 31 then s.reject src off else s.epochWrite v
  | 0x20 => s.putIf (inFolioText (bits v 45 12 * 0x1000) 1 && decide (bits v 3 0 ≤ 8)) src off v
  | _ => s.applyWrite off v

/-- Ports and router. -/
def State.writeLnk (s : State) (src : Source) (off : Nat) (v : W64) : State :=
  if off < 0xD80000 then
    s.portReg src (Fin.ofNat 24 ((off - 0xC00000) / 0x10000)) ((off - 0xC00000) % 0x10000) off v
  else s.routerReg src (off - 0xD80000) off v

/-- A write of a register, by its base offset. -/
def State.writeReg (s : State) (src : Source) (writer : QuireId) (off : Nat) (v : W64) : State :=
  if off < 0x4000 then s.writeGlb src off v
  else if off < 0x10000 then s.writeHst src off v
  else if off < 0x30000 then s.writePwr src off v
  else if off < 0x40000 then s.writeErr src off v
  else if off < 0x80000 then s.writeDbg src off v
  else if off < 0x400000 then s.writeQuire src writer off v
  else if off < 0x800000 then s.writeFrame src writer off v
  else if off < 0xC00000 then s.writeMem src off v
  else s.writeLnk src off v

/-! ### Tables in the router window (R429, R430, R449) -/

/-- A route entry without reserved values (R427). -/
def routeOk (e : W32) : Bool :=
  (List.range 4).all (fun c => !bit e (8 * c + 5) && decide (bits e (8 * c + 4) (8 * c) < 24))

/-- A key-table entry without reserved values in the words that a write touches, words lo to hi (R430). -/
def keyOk (e : BitVec 128) (lo hi : Nat) : Bool :=
  (decide (0 < lo) || (bits e 23 17 = 0 && bits e 31 29 = 0 && bits e 15 0 ≠ 0)) &&
  (decide (1 < lo) || decide (hi < 1) || bits e 39 32 = 0) &&
  (decide (hi < 2) || decide (bits e 84 64 ≤ bits e 105 85)) &&
  (decide (hi < 3) || bits e 127 106 = 0)

/-- Store bytes in the router's tables. -/
def State.putRte (s : State) (off : Nat) (bs : List Byte) : State :=
  { s with rte := (bs.zipIdx).foldl (fun m b => sSet (0 : Byte) m (off + b.2) b.1) s.rte }

/-- The epoch whose table holds a route entry, by its offset in the router's window. -/
def routeEpoch (x : Nat) : Nat := if x < 0x1100 then (x - 0x1000) / 0x80 else (x - 0x40000) / 0x8000

/-- A write of one route entry at offset `x` of the router's window: rejected in the current epoch, and with a reserved
value. -/
def State.routeReg (s : State) (src : Source) (x off : Nat) (v : W32) : State :=
  if routeEpoch x = s.epoch || !routeOk v then s.reject src off else s.putRte x (leBytes 4 v.toNat)

/-- A write of one route entry. -/
def State.writeRoute (s : State) (src : Source) (off : Nat) (v : W32) : State := s.routeReg src (off - 0xD80000) off v

/-- A write of `n` words of a key-table entry: an entry in force can only be made invalid. -/
def State.writeKey (s : State) (src : Source) (off n : Nat) (v : W64) : State :=
  let x := off - 0xD80000
  let a := x / 16 * 16
  let w := x % 16 / 4
  let old : BitVec 128 := BitVec.ofNat 128 (s.rteWord a 16)
  let new := setBits old (32 * (w + n) - 1) (32 * w) (v.toNat % 2 ^ (32 * n))
  if bit old 16 && bit new 16 || !keyOk new w (w + n - 1) then s.reject src off
  else s.putRte x (leBytes (4 * n) v.toNat)

/-- A write where no register lies: the router's tables, a headband's patch buffer (R372), or nothing (R6). -/
def State.writeOther (s : State) (src : Source) (off n : Nat) (v : W64) : State :=
  if 0xD82000 ≤ off && off < 0xD82400 then s.writeKey src off n v
  else if routerTable off then
    let s := s.writeRoute src off (v.setWidth 32)
    if n = 2 then s.writeRoute src (off + 4) (v.extractLsb' 32 32) else s
  else if src = .headband && decide (0x400000 ≤ off) && decide (off < 0x800000) && decide (0x80000 ≤ off % 0x100000) &&
      decide (off % 0x100000 < 0x84000) then
    let f : Fin 4 := Fin.ofNat 4 ((off - 0x400000) / 0x100000)
    let k := (off % 0x100000 - 0x80000) / 4
    let fr := s.frames[f]
    let buf := sSet (0 : W32) fr.patchBuf k (v.setWidth 32)
    s.setFrame f { fr with patchBuf := if n = 2 then sSet (0 : W32) buf (k + 1) (v.extractLsb' 32 32) else buf }
  else s.reject src off

/-! ### Halves (R7) -/

/-- A field of the register spans bit 32. -/
def RegDesc.spans (r : RegDesc) : Bool := r.fields.any (fun f => decide (f.2.1 < 32) && decide (32 ≤ f.1))

/-- A WO field lies outside the half written. -/
def RegDesc.woOutside (r : RegDesc) (high : Bool) : Bool :=
  r.fields.any (fun f => f.2.2 = .wo && (if high then decide (f.2.1 < 32) else decide (32 ≤ f.2.1)))

/-- Registers of which R5 judges a field of the lower half only: HST_EVQ_PTR and GLB_XFQ_PTR. -/
def judgedLow (base : Nat) : Bool := base = 0x4038 || base = 0x230

/-- A 32-bit write of half of a 64-bit register at a base offset: the RW fields of the other half keep their values, and
only the written half is judged (R7). -/
def State.writeHalf (s : State) (src : Source) (writer : QuireId) (r : RegDesc) (base : Nat) (high : Bool) (v : W32) : State :=
  if r.spans || r.woOutside high then s.reject src (if high then base + 4 else base)
  else
    let keep := s.reg base &&& r.maskOf .rw
    let x := if high then (keep &&& maskW 64 31 0) ||| (v.setWidth 64 <<< 32) else (keep &&& maskW 64 63 32) ||| v.setWidth 64
    if high && judgedLow base then s.applyWrite base x else s.writeReg src writer base x

/-- A 32-bit write. -/
def State.winWrite32 (s : State) (src : Source) (writer : QuireId) (off : Nat) (v : W32) : State :=
  match findReg off with
  | some r =>
    if r.bits = 32 then s.writeReg src writer off (v.setWidth 64) else s.writeHalf src writer r off false v
  | none =>
    match (if off % 8 = 4 then findReg (off - 4) else none) with
    | some r => if r.bits = 64 then s.writeHalf src writer r (off - 4) true v else s.writeOther src off 1 (v.setWidth 64)
    | none => s.writeOther src off 1 (v.setWidth 64)

/-- A write of a doorbell page (R386, R387). -/
def State.writePage (s : State) (src : Source) (off : Nat) (v : W32) : State :=
  let n : CtxId := BitVec.ofNat 12 ((off - 0x1000000) / 0x1000)
  let w := off % 0x1000
  if w = 0 || w = 8 || w = 0x10 then s.doorbellWrite src n w v
  else if w = 0x18 || w = 0x1C then s
  else s.gate src off (fun s =>
    if (s.queue n).st = .disabled || (s.queue n).st = .fatal then s else s.reject src off)

/-- A write of the register window by a source, 32 or 64 bits wide (R7, R375). `writer` is the quire, when a quire
writes. -/
def State.winWrite (s : State) (src : Source) (writer : QuireId) (off : Nat) (wide : Bool) (v : W64) : State :=
  let lo : W32 := v.setWidth 32
  let hi : W32 := v.extractLsb' 32 32
  if off % (if wide then 8 else 4) ≠ 0 then s.gate src off (fun s => s.reject src off)
  else if 0x1000000 ≤ off && off < 0x2000000 then
    let s := s.writePage src off lo
    if wide then s.writePage src (off + 4) hi else s
  else
    s.gate src off (fun s =>
      if 0x100000 ≤ off && off < 0x320000 && s.domState ((off - 0x100000) / 0x10000) ≠ 0 then s
      else if !wide then s.winWrite32 src writer off lo
      else match findReg off, findReg (off + 4) with
        | some r, _ =>
          if r.bits = 64 then s.writeReg src writer off v
          else (s.winWrite32 src writer off lo).winWrite32 src writer (off + 4) hi
        | none, some _ => (s.winWrite32 src writer off lo).winWrite32 src writer (off + 4) hi
        | none, none => s.writeOther src off 2 v)

/-! ## Host requests (R375, R376, R514, R525) -/

/-- Answer a host request. -/
def State.answer (s : State) (tag : BitVec 10) (data : W64) (err : Bool) : State :=
  { s with hostRsps := (tag, data, err) :: s.hostRsps }

/-- A host write (R375): one that is not naturally aligned is logged, and answered with an error under its tag. -/
def State.hostWriteReg (s : State) (tag : BitVec 10) (off : Nat) (wide : Bool) (v : W64) : State :=
  let t := s.winWrite .host 0 off wide v
  if s.present && off % (if wide then 8 else 4) ≠ 0 then t.answer tag 0 true else t

/-- A host read: data, or an error response where the alignment, SLEEP or boot does not allow it, or where no unit answers
(R12). An absent block answers nothing: the fabric does (R493). A reserved offset reads 0 (R6; log entry 185). -/
def State.hostReadReg (s : State) (tag : BitVec 10) (off : Nat) (wide : Bool) : State :=
  let n := if wide then 8 else 4
  if !s.present then s
  else if off % n ≠ 0 || !s.hostReaches off || (!s.asleep && !s.booted && !earlyReg off) then s.answer tag 0 true
  else
    let s := s.winLook false off n
    s.answer tag (s.winRead false off wide) false

/-- REGISTER_WRITE (R5 to R7, R375): a write to any register of the window; the debug network writes 32 bits, where it
reaches (R548). -/
def execRegisterWrite (src : Source) (who : Writer) (addr : BitVec 28) (wide : Bool) (v : W64) (s : State) : Res State :=
  s.inOrder src (.write who.tag addr.toNat wide v) fun s =>
    .next (match src with
      | .host => s.hostWriteReg who.tag addr.toNat wide v
      | .debug => if wide || !debugReaches addr.toNat then s else s.winWrite .debug who.quire addr.toNat wide v
      | _ => s.winWrite src who.quire addr.toNat wide v)

/-- HOST_READ. -/
def execHostRead (tag : BitVec 10) (addr : BitVec 28) (wide : Bool) (s : State) : Res State :=
  s.inOrder .host (.read tag addr.toNat wide) fun s => .next (s.hostReadReg tag addr.toNat wide)

/-- Perform a host request that waited (R376). -/
def State.hostPerform (s : State) : HostAsk → State
  | .read tag off wide => s.hostReadReg tag off wide
  | .write tag off wide v => s.hostWriteReg tag off wide v
  | .reset env => s.gate .host 0x20008 (fun s => s.hbCtlWrite .host 0xA env)

/-- The host requests that waited are performed, oldest first, until one of them is held in its turn (R376). -/
def State.hostReplay (s : State) : List HostAsk → State
  | [] => s
  | c :: r =>
    if s.hostBlocked then { s with hostHeld := c :: r }
    else (s.hostPerform c).hostReplay r

/-- Whether a request is the host read of a tag. -/
def readOf (tag : BitVec 10) : HostAsk → Bool
  | .read t _ _ => t = tag
  | _ => false

/-- HOST_READ_TIMEOUT: a read that no unit has answered within 2 µs receives an error response; one that waits behind a
held write is given up. -/
def execHostReadTimeout (tag : BitVec 10) (s : State) : Res State :=
  .next (if s.present then { s with hostHeld := s.hostHeld.filter (fun c => !readOf tag c) }.answer tag 0 true else s)

/-! ## The debug port (R516, R547 to R549) -/

/-- Answer a debug access. -/
def State.dbgAnswer (s : State) (data : W32) (err : Bool) : State := { s with dbgRsps := (data, err) :: s.dbgRsps }

/-- DEBUG_ACCESS (R548): 32 bits at a word address. In SLEEP an access outside AON wakes the block first. -/
def execDebugAccess (we : Bool) (addr : BitVec 26) (wdata : W32) (s : State) : Res State :=
  let off := 4 * addr.toNat
  if !debugReaches off then .next (s.dbgAnswer 0 true)
  else
    let s := if (s.asleep || bit (s.reg 0x10000) 31) && !sleepReg off then (s.wake 6 0).unhold 0x10000 State.devWrite else s
    if we then .next ((s.winWrite32 .debug 0 off wdata).dbgAnswer 0 false)
    else
      let s := s.winLook true off 4
      .next (s.dbgAnswer (s.winRead32 true off) false)

/-- The register-window offset of a physical address in the window. -/
def winOff (pa : Nat) : Nat := localOf pa - 0xF0000000000

/-- A quire's store of 4 or 8 bytes to the register window. -/
def winStore (i : QuireId) (pas : List Nat) (v : W64) (s : State) : State :=
  s.winWrite .quire i (winOff (pas.headD 0)) (pas.length = 8) v

end Sys2Proof.Machine
end

