-- ==== Sys2Proof/Machine/Arrays.lean ====
section
/-!
DEFINITION. Errors in the storage arrays (17_reliability.md, R465 to R468, R475; 05_tile_registers.md, R157; 06_press.md,
R173). The table of operations has no row for them: they arise while the block idles, by a free value (log entry 189).
-/
namespace Sys2Proof.Machine

/-! ## Corrected errors (R466, R475) -/

/-- A corrected error in an array of a quire (R465, R475): its record, and, with ERR_THRESH.QCE of them within 1 s, the
quire is retired and its context moved by tip-in. -/
def State.quireCe (s : State) (i : QuireId) (addr : W64) : State :=
  let s := (s.logErr (unitCode 1 i.val) 0x01 0 addr 0 none).2
  let recent := (i, s.gtime) :: s.ceTimes.filter (fun e => s.gtime.toNat < e.2.toNat + 1000000000)
  let n := s.fld 0x30028 23 16
  if n ≠ 0 && n ≤ recent.countP (fun e => e.1 = i) then
    { s with ceTimes := recent.filter (fun e => e.1 ≠ i) }.failQuire i
  else { s with ceTimes := recent }

/-- A corrected error in an array of another unit. -/
def State.unitCe (s : State) (u : Nat) : State := (s.logErr u 0x01 0 0 0 none).2

/-! ## Uncorrectable errors (R466) -/

/-- A record UE_ARRAY (R157, R466), of the severity that the array's outcome has. -/
def State.ueArray (s : State) (sev : Fin 4) (u flags : Nat) (addr : W64) (ctx : Option CtxId) : W32 × State :=
  s.logBank sev u 0x02 flags addr 0 ctx

/-- Registers, vectors or masks of a quire (R466, R484): the running context ends. -/
def State.ueRegs (s : State) (i : QuireId) : State :=
  if !(s.q i).runs then s
  else ((s.ueArray 2 (unitCode 1 i.val) 0 0 (some (s.q i).ctx)).2).contextFatal (s.q i).ctx 0x01 (unitCode 1 i.val) none

/-- A tile bank (R157): row r of the tile is marked. -/
def Tile.bankUe (t : Tile) (r : Nat) : Tile := { t with rowPoison := setBit t.rowPoison r true, dirty := true }

/-- The scale storage of a tile (R157): every row is marked, and the scales. -/
def Tile.scaleUe (t : Tile) : Tile :=
  { t with rowPoison := BitVec.allOnes 128, scalePoison := true, dirty := true }

/-- A configured tile of a quire meets an uncorrectable error. -/
def State.ueTile (s : State) (i : QuireId) (n : TReg) (f : Tile → Tile) : State :=
  if !(s.q i).runs || !((s.q i).t n).cfg then s
  else ((s.ueArray 1 (unitCode 1 i.val) 0 0 (some (s.q i).ctx)).2).modQ i (fun c => c.setT n (f (c.t n)))

/-- An accumulator (R173, R466): a block of 32 × 32 is marked poisoned. -/
def State.ueAcc (s : State) (i : QuireId) (a : Fin 2) (b : Nat) : State :=
  if !(s.q i).runs then s
  else ((s.ueArray 1 (unitCode 1 i.val) 0 0 (some (s.q i).ctx)).2).modQ i (fun c =>
    { c with acc := c.acc.set a { c.acc[a] with poison := setBit c.acc[a].poison b true } })

/-- L1I, L1D or the victim cache (R466): the line is discarded, to be fetched again. -/
def State.l1Ce (s : State) (i : QuireId) (line : Nat) : State :=
  (s.quireCe i (BitVec.ofNat 64 (64 * line))).modQ i (fun c =>
    { c with l1i := c.l1i.filter (fun n => n ≠ line), l1d := c.l1d.filter (fun e => e.1 ≠ line),
             victim := c.victim.filter (fun e => e.1 ≠ line) })

/-- A line of L2 data (R466): a clean one is fetched again; a dirty one is written back poisoned, and so lost from L2. -/
def State.l2Data (s : State) (i : QuireId) (line : Nat) (dirty : Bool) : State :=
  if !dirty then s.quireCe i (BitVec.ofNat 64 (64 * line))
  else
    let r := s.ueArray 1 (unitCode 1 i.val) 8 (BitVec.ofNat 64 (64 * line)) none
    (r.2.modQ i (fun c => c.l2Lose (· = line))).setPoison (64 * line) r.1

/-- The tags of a set of L2 (R466): the set is cleaned and invalidated. -/
def State.l2Tag (s : State) (i : QuireId) (set : Nat) : State :=
  (s.quireCe i 0).modQ i (fun c => c.l2Lose (fun n => l2Set n = set))

/-- A word of memory (R466, R467): its line is poisoned. The expander keeps CXL's own record (R469). -/
def State.ueMem (s : State) (a : Nat) : State :=
  let line := BitVec.ofNat 64 (a / 64 * 64)
  if !s.backed a then s
  else match regionOf a with
    | .folio =>
      let r := s.ueArray 1 (s.unitOf a) 8 line none
      r.2.setPoison a r.1
    | .text | .hbm | .lpd =>
      let r := s.logErr (s.unitOf a) 0x04 8 line 0 none
      r.2.setPoison a r.1
    | .cxl => s.setPoison a 0
    | _ => s

/-- A stream-table entry (R466): its stream ends with MEM_ERROR. -/
def State.ueStream (s : State) (id : W16) : State :=
  if (s.stream id).state = 0 then s
  else
    let r := s.ueArray 1 (unitCode 3 (frameOf id).val) 0 0 (some (s.stream id).owner)
    r.2.endStream id 0x03 r.1

/-- Instruction memory, decode RAM or data RAM of an engine (R466): it halts. Which vector it reports is open. -/
def State.ueEngine (s : State) (e : EngineId) (vec : Nat) : State :=
  if (s.eng e).halted then s else ((s.ueArray 1 (unitCode 2 e.val) 0 0 none).2).haltEngine e vec

/-- Where an address of one of the memories lies: the n-th byte of its region. -/
def memAt (r : Region) (n : Nat) : Nat :=
  match r with
  | .folio => n % 0x40000000
  | .text => r.base + n % 0x800000000
  | .hbm => r.base + n % 0x8000000000
  | .lpd => r.base + n % 0x10000000000
  | _ => r.base + n % 0x30000000000

/-- The array error of a kind: 0 and every unused kind is none. `x` names the place. -/
def State.arrayError (s : State) (kind : Nat) (x : W64) : State :=
  let i : QuireId := Fin.ofNat 34 (bits x 7 0)
  let e : EngineId := Fin.ofNat 66 (bits x 7 0)
  let n := bits x 63 8
  let line (l : List Nat) : Option Nat := if l.isEmpty then none else l[n % l.length]?
  match kind with
  | 1 => s.quireCe i 0
  | 2 => s.unitCe (unitCode 2 (e.val % 64))
  | 3 => s.unitCe (unitCode 3 (n % 4))
  | 4 => s.unitCe (unitCode 4 (n % 64))
  | 5 => s.unitCe (unitCode 0x0A 0)
  | 6 => s.unitCe (unitCode 0x0B (n % 2))
  | 7 => s.unitCe (unitCode 0x0C 0)
  | 8 => s.ueRegs i
  | 9 => s.ueTile i (Fin.ofNat 16 (n / 128)) (fun t => t.bankUe (n % 128))
  | 10 => s.ueTile i (Fin.ofNat 16 n) Tile.scaleUe
  | 11 => s.ueAcc i (Fin.ofNat 2 (n / 16)) (n % 16)
  | 12 =>
    match line ((s.q i).l1i ++ ((s.q i).l1d ++ (s.q i).victim).map (·.1)) with
    | some l => s.l1Ce i l
    | none => s
  | 13 =>
    match line ((s.q i).l2.map (·.1)) with
    | some l => s.l2Data i l ((s.q i).l2.any (fun e => e.1 = l && decide (e.2.1 = .modified)))
    | none => s
  | 14 => s.l2Tag i (n % 4096)
  | 15 => { s.unitCe (unitCode 0x0A 0) with xlat := s.xlat.eraseIdx n }
  | 16 => s.enterSafeHold 4
  | 17 => s.ueMem (memAt .folio n)
  | 18 => s.ueMem (memAt .text n)
  | 19 => s.ueMem (memAt .hbm n)
  | 20 => s.ueMem (memAt .lpd n)
  | 21 => s.ueMem (memAt .cxl n)
  | 22 => s.ueStream (BitVec.ofNat 16 n)
  | 23 => s.enterSafeHold 7
  | 24 => s.ueEngine e (bits x 15 8)
  | 25 => { s.unitCe (unitCode 2 (e.val % 64)) with
      engines := s.engines.set e { s.engines[e] with dcache := (s.engines[e]).dcache.eraseIdx n } }
  | 26 => s.failHb (n % 2)
  | 27 => s.loseSave (n % 86)
  | _ => s

/-- Whether an array error arises now, which and where: free values (log entry 189). A block that does not serve reads no
array. -/
def State.strike (s : State) : State :=
  let d := s.fresh
  if s.down || s.asleep then d.2 else d.2.arrayError (bits d.1 7 0) (d.1 >>> 8)

/-! ## Idling -/

/-- Idling (R496, R376): a nanosecond passes, the host requests that waited come up, and an array error may arise. -/
def State.idle (s : State) : State :=
  let s : State := { s with gtime := s.gtime + 1 }
  ({ s with hostHeld := [] }.hostReplay s.hostHeld).strike

end Sys2Proof.Machine
end

