-- ==== Sys2Proof/Machine/Float.lean ====
section
/-!
DEFINITION. Floating-point instructions of the Tehus core (03_tehus_core.md, R90 to R92).
-/
namespace Sys2Proof.Machine

/-! ## Shared forms -/

/-- A floating-point instruction whose operation rounds: it needs an accepted mode, sets the scalar flags and
counts towards SR_SEQ (R42, R46, R51, R90). -/
def fpRound (q : QuireId) (fd : FReg) (rm : Ext) (f : Quire → Rnd → Nat × Flags) (s : State) :
    Res State :=
  s.tehus q (extLen rm) true (fun s =>
    match (s.q q).mode .scl rm with
    | none => .trap s excIllegal
    | some md =>
      s.simple q (extLen rm) (fun c =>
        let r := f c (c.rnd .scl md false 0 0)
        ((c.setFlags .scl r.2).countSr md).fw fd r.1))

/-- A floating-point instruction that does not round (R90). -/
def fpPlain (q : QuireId) (rm : Ext) (f : Quire → Quire) (s : State) : Res State :=
  s.tehus q (extLen rm) true (fun s =>
    if extZero rm then s.simple q (extLen rm) f else .trap s excIllegal)

/-- An operand of the .D and .S majors as a value (R40). -/
def Quire.fval (c : Quire) (dbl : Bool) (r : FReg) : FVal :=
  (fmtOf dbl).read c.strict (c.fr r (fmtOf dbl).width)

/-- A two-operand rounding function. -/
def fpRR (q : QuireId) (dbl : Bool) (fd fs1 fs2 : FReg) (rm : Ext)
    (f : Fmt → Rnd → FVal → FVal → Nat × Flags) (s : State) : Res State :=
  fpRound q fd rm (fun c r => f (fmtOf dbl) r (c.fval dbl fs1) (c.fval dbl fs2)) s

/-- FMIN and FMAX. -/
def fpMinMax (q : QuireId) (dbl : Bool) (fd fs1 fs2 : FReg) (rm : Ext) (wantMax : Bool) (s : State) :
    Res State :=
  fpPlain q rm (fun c =>
    let r := minMaxVals (fmtOf dbl) wantMax (c.fval dbl fs1) (c.fval dbl fs2)
    (c.setFlags .scl r.2).fw fd r.1) s

/-- The magnitude of `a` with a sign computed from both signs. -/
def fpSign (q : QuireId) (dbl : Bool) (fd fs1 fs2 : FReg) (rm : Ext) (f : Bool → Bool → Bool)
    (s : State) : Res State :=
  fpPlain q rm (fun c =>
    let w := (fmtOf dbl).width
    let a := c.fr fs1 w
    let b := c.fr fs2 w
    let h := 2 ^ (w - 1)
    c.fw fd (a % h + (if f (h ≤ a) (h ≤ b) then h else 0))) s

/-- A comparison: INV on a signalling NaN, or on any NaN where `quiet` is false (R90). -/
def fpCmp (q : QuireId) (dbl : Bool) (rd : GReg) (fs1 fs2 : FReg) (rm : Ext) (quiet : Bool)
    (f : Ordering → Bool) (s : State) : Res State :=
  fpPlain q rm (fun c =>
    let a := c.fval dbl fs1
    let b := c.fval dbl fs2
    let inv := a.isSnan || b.isSnan || (!quiet && (a.isNan || b.isNan))
    (c.setFlags .scl (if inv then fINV else 0)).gw rd
      (match cmpVals a b with
       | some o => if f o then 1 else 0
       | none => 0)) s

/-- A fused multiply-add with signs on the product and the addend (R92). -/
def fpFma (q : QuireId) (dbl : Bool) (fd fs1 fs2 fs3 : FReg) (rm : Ext) (negProd negAdd : Bool)
    (s : State) : Res State :=
  fpRound q fd rm (fun c r =>
    let a := c.fval dbl fs1
    let x := c.fval dbl fs3
    fmaVals (fmtOf dbl) r (if negProd then a.negate else a) (c.fval dbl fs2)
      (if negAdd then x.negate else x)) s

/-! ## FP.D and FP.S (R90) -/

/-- FADD (R90). -/
def execFadd (q : QuireId) (dbl : Bool) (fd fs1 fs2 : FReg) (rm : Ext) (s : State) : Res State :=
  fpRR q dbl fd fs1 fs2 rm addVals s
/-- FSUB (R90). -/
def execFsub (q : QuireId) (dbl : Bool) (fd fs1 fs2 : FReg) (rm : Ext) (s : State) : Res State :=
  fpRR q dbl fd fs1 fs2 rm (fun f r a b => addVals f r a b.negate) s
/-- FMUL (R90). -/
def execFmul (q : QuireId) (dbl : Bool) (fd fs1 fs2 : FReg) (rm : Ext) (s : State) : Res State :=
  fpRR q dbl fd fs1 fs2 rm mulVals s
/-- FDIV (R90). -/
def execFdiv (q : QuireId) (dbl : Bool) (fd fs1 fs2 : FReg) (rm : Ext) (s : State) : Res State :=
  fpRR q dbl fd fs1 fs2 rm divVals s
/-- FSQRT (R90). -/
def execFsqrt (q : QuireId) (dbl : Bool) (fd fs1 : FReg) (rm : Ext) (s : State) : Res State :=
  fpRound q fd rm (fun c r => sqrtVal (fmtOf dbl) r (c.fval dbl fs1)) s
/-- FMIN (R90). -/
def execFmin (q : QuireId) (dbl : Bool) (fd fs1 fs2 : FReg) (rm : Ext) (s : State) : Res State :=
  fpMinMax q dbl fd fs1 fs2 rm false s
/-- FMAX (R90). -/
def execFmax (q : QuireId) (dbl : Bool) (fd fs1 fs2 : FReg) (rm : Ext) (s : State) : Res State :=
  fpMinMax q dbl fd fs1 fs2 rm true s
/-- FSGN (R90). -/
def execFsgn (q : QuireId) (dbl : Bool) (fd fs1 fs2 : FReg) (rm : Ext) (s : State) : Res State :=
  fpSign q dbl fd fs1 fs2 rm (fun _ b => b) s
/-- FSGNN (R90). -/
def execFsgnn (q : QuireId) (dbl : Bool) (fd fs1 fs2 : FReg) (rm : Ext) (s : State) : Res State :=
  fpSign q dbl fd fs1 fs2 rm (fun _ b => !b) s
/-- FSGNX (R90). -/
def execFsgnx (q : QuireId) (dbl : Bool) (fd fs1 fs2 : FReg) (rm : Ext) (s : State) : Res State :=
  fpSign q dbl fd fs1 fs2 rm (fun a b => a != b) s
/-- FEQ (R90). -/
def execFeq (q : QuireId) (dbl : Bool) (rd : GReg) (fs1 fs2 : FReg) (rm : Ext) (s : State) : Res State :=
  fpCmp q dbl rd fs1 fs2 rm true (fun o => o = .eq) s
/-- FLT (R90). -/
def execFlt (q : QuireId) (dbl : Bool) (rd : GReg) (fs1 fs2 : FReg) (rm : Ext) (s : State) : Res State :=
  fpCmp q dbl rd fs1 fs2 rm false (fun o => o = .lt) s
/-- FLE (R90). -/
def execFle (q : QuireId) (dbl : Bool) (rd : GReg) (fs1 fs2 : FReg) (rm : Ext) (s : State) : Res State :=
  fpCmp q dbl rd fs1 fs2 rm false (fun o => o ≠ .gt) s
/-- FCLASS (R90). -/
def execFclass (q : QuireId) (dbl : Bool) (rd : GReg) (fs1 : FReg) (rm : Ext) (s : State) : Res State :=
  fpPlain q rm (fun c =>
    c.gw rd (BitVec.ofNat 64 ((fmtOf dbl).classMask (c.fr fs1 (fmtOf dbl).width)))) s
/-- FMV.G (R90). -/
def execFmvG (q : QuireId) (dbl : Bool) (rd : GReg) (fs1 : FReg) (rm : Ext) (s : State) : Res State :=
  fpPlain q rm (fun c => c.gw rd (BitVec.ofNat 64 (c.fr fs1 (fmtOf dbl).width))) s
/-- FMV.F (R90). -/
def execFmvF (q : QuireId) (dbl : Bool) (fd : FReg) (rs1 : GReg) (rm : Ext) (s : State) : Res State :=
  fpPlain q rm (fun c => c.fw fd ((c.gr rs1).toNat % 2 ^ (fmtOf dbl).width)) s

/-! ## FMADD to FNMSUB (R92) -/

/-- FMADD (R92). -/
def execFmadd (q : QuireId) (dbl : Bool) (fd fs1 fs2 fs3 : FReg) (rm : Ext) (s : State) : Res State :=
  fpFma q dbl fd fs1 fs2 fs3 rm false false s
/-- FMSUB (R92). -/
def execFmsub (q : QuireId) (dbl : Bool) (fd fs1 fs2 fs3 : FReg) (rm : Ext) (s : State) : Res State :=
  fpFma q dbl fd fs1 fs2 fs3 rm false true s
/-- FNMADD (R92). -/
def execFnmadd (q : QuireId) (dbl : Bool) (fd fs1 fs2 fs3 : FReg) (rm : Ext) (s : State) : Res State :=
  fpFma q dbl fd fs1 fs2 fs3 rm true true s
/-- FNMSUB (R92). -/
def execFnmsub (q : QuireId) (dbl : Bool) (fd fs1 fs2 fs3 : FReg) (rm : Ext) (s : State) : Res State :=
  fpFma q dbl fd fs1 fs2 fs3 rm true false s

/-! ## FCVT (R91) -/

/-- A type of R91: an integer's range, or a float format. -/
inductive CvtType where
  | int (lo hi : Int) (bits : Nat) (signed : Bool)
  | flt (f : Fmt)
  deriving DecidableEq, Repr

/-- The type codes of R91. -/
def cvtType (x : BitVec 3) : CvtType :=
  match x.toNat with
  | 0 => .int (-2 ^ 63) (2 ^ 63 - 1) 64 true
  | 1 => .int 0 (2 ^ 64 - 1) 64 false
  | 2 => .int (-2 ^ 31) (2 ^ 31 - 1) 32 true
  | 3 => .int 0 (2 ^ 32 - 1) 32 false
  | 4 => .flt fp64
  | 5 => .flt fp32
  | 6 => .flt fp16
  | _ => .flt bf16

/-- The FCVT functions that are exact by type (R91). -/
def cvtExact : CvtType → CvtType → Bool
  | .flt d, .flt s => (d = fp64 && s ≠ fp64) || (d = fp32 && (s = fp16 || s = bf16))
  | .flt d, .int _ _ w _ => d = fp64 && w = 32
  | _, _ => false

/-- An integer source operand of w bits. -/
def intOf (x : W64) (w : Nat) (signed : Bool) : Int :=
  if signed then (BitVec.ofNat w x.toNat).toInt else (x.toNat % 2 ^ w : Nat)

/-- The first word of an FCVT is legal (R91): the types differ and are not both integers, and FP fields name
f registers. -/
def cvtLegal (dst src : BitVec 3) (rd rs1 : BitVec 6) : Bool :=
  dst ≠ src &&
  (match cvtType dst, cvtType src with
   | .int .., .int .. => false
   | .int .., .flt _ => rs1.toNat < 32
   | .flt _, .int .. => rd.toNat < 32
   | .flt _, .flt _ => rd.toNat < 32 && rs1.toNat < 32)

/-- The value and flags an FCVT delivers on its quire (R48 to R50, R91). -/
def cvtResult (c : Quire) (dst src : CvtType) (rs1 : BitVec 6) (r : Rnd) : Nat × Flags :=
  let x : W64 := c.gr (gReg rs1)
  let fc (w : Nat) : Nat := match fpReg rs1 with
    | some a => c.fr a w
    | none => 0
  match dst, src with
  | .flt d, .int _ _ w sg => ofInt d r (intOf x w sg)
  | .flt d, .flt f => toFloat d r (f.read r.strict (fc f.width))
  | .int lo hi w sg, .flt f =>
    let v := toInt lo hi r (f.read r.strict (fc f.width))
    (if sg then (BitVec.ofInt 64 v.1).toNat else v.1.toNat % 2 ^ w, v.2)
  | .int .., .int .. => (0, 0)

/-- FCVT (R91). -/
def execFcvt (q : QuireId) (dst src : BitVec 3) (rd rs1 : BitVec 6) (rm : Ext) (s : State) : Res State :=
  s.tehus q (extLen rm) (cvtLegal dst src rd rs1) (fun s =>
    let d := cvtType dst
    let f := cvtType src
    let c := s.q q
    let exact := cvtExact d f
    let md : Option RMode := if exact then (if extZero rm then some .rne else none) else c.mode .scl rm
    match md with
    | none => .trap s excIllegal
    | some md =>
      s.simple q (extLen rm) (fun c =>
        let v := cvtResult c d f rs1 (c.rnd .scl md false 0 0)
        let c := c.setFlags .scl v.2
        let c := if exact then c else c.countSr md
        match d, fpReg rd with
        | .flt _, some fd => c.fw fd v.1
        | _, _ => c.gw (gReg rd) (BitVec.ofNat 64 v.1)))

end Sys2Proof.Machine
end

