-- ==== Sys2Proof/Machine/Memory.lean ====
section
/-!
DEFINITION. Scalar loads, stores and atomics of the Tehus core (03_tehus_core.md, R85 to R88; 10_memory_caches.md,
R264 to R267, R285 to R287).
-/
namespace Sys2Proof.Machine

/-! ## Checks of an access (R86, R236, R239) -/

/-- The poison that a scalar load or an atomic meets (R467, R469). A folio line held in L1D or the victim cache is read
there, unless it has been replaced: which, is a free value (R268; log entry 5). -/
def State.loadPoison (s : State) (i : QuireId) (pas : List Nat) : Option (Nat × W32) × State :=
  let held (s : State) (pa : Nat) : Bool :=
    !s.remotePa pa && regionOf (localOf pa) = .folio && ((s.q i).l1Copy (localOf pa / 64)).isSome
  let s := pas.foldl (fun s pa =>
    if held s pa && (s.poisonOf (localOf pa)).isSome then
      let d := s.fresh
      if bit d.1 0 then d.2.modQ i (fun c => c.l1dDrop (localOf pa) 1) else d.2
    else s) s
  (pas.zipIdx.findSome? (fun e =>
    if s.remotePa e.1 || held s e.1 then none else (s.poisonOf (localOf e.1)).map (fun r => (e.2, r))), s)

/-- Successive physical addresses: the access has one target. -/
def oneRun (va : W64) (pas : List Nat) : Bool := (storeRuns va pas 0).length = 1

/-- The checks of an access after STACK_LIMIT, in the order of R236: ALIGNMENT of a window access, segment and
translation faults, poison. `l1` marks the accesses that may read L1D. A load that leaves the block and waits for no
response in State meets here what it ends in (R265). -/
def State.access (s : State) (i : QuireId) (k : Acc') (acc index : Nat) (l1 : Bool) (va : W64) (n : Nat) :
    Except Exc (List Nat) × State :=
  let t := s.xlateSpan i (s.q i).pl k va n
  let fits : Bool := (n = 4 || n = 8) && va.toNat % n = 0
  match (if fits then none else t.1.1.findIdx? t.2.inWindow), t.1.2 with
  | some j, _ => (.error ⟨5, acc, va + BitVec.ofNat 64 j, syndOf index 0, false⟩, t.2)
  | none, some e => (.error (xlateExc e.2 acc index e.1), t.2)
  | none, none =>
    let p : Option (Nat × W32) × State :=
      if k = .store then (none, t.2)
      else if l1 then t.2.loadPoison i t.1.1
      else (t.2.poisonAmong t.1.1 0, t.2)
    match p.1 with
    | some e =>
      let r := p.2.consumePoison i (localOf (t.1.1.getD e.1 0)) e.2
      (.error ⟨15, acc, va + BitVec.ofNat 64 e.1, syndOf index r.1, false⟩, r.2)
    | none =>
      let w := if k = .load && (!(l1 && oneRun va t.1.1) || p.2.inWindow (t.1.1.headD 0)) then p.2.awayEnds i t.1.1 else (none, p.2)
      match w.1 with
      | some e => (.error ⟨15, acc, va + BitVec.ofNat 64 e.1, syndOf index e.2, false⟩, w.2)
      | none => (.ok t.1.1, w.2)

/-- STACK_LIMIT (R239): the base is g63 and the lowest byte lies below the stack in force. -/
def Quire.stackLow (c : Quire) (base : GReg) (va : W64) : Bool :=
  let r := if c.escalated then c.crGet 0x01B else c.crGet (0x017 + c.pl)
  base = 63 && bits r 63 58 ≠ 0 && decide (va.toNat + 2 ^ bits r 63 58 < (stkTop r).toNat)

/-- The checks of a scalar access, then what it does. -/
def State.scalarAccess (s : State) (i : QuireId) (k : Acc') (acc : Nat) (base : GReg) (va : W64) (n : Nat)
    (f : State → List Nat → Body) : Body :=
  let atomic : Bool := acc = 4
  if (s.q i).stackLow base va then .trap s ⟨16, acc, va, 0, false⟩
  else if atomic && va.toNat % n ≠ 0 then .trap s ⟨5, acc, va, 0, false⟩
  else
    let a := s.access i k acc 0 true va n
    match a.1 with
    | .error e => .trap a.2 e
    | .ok pas => if a.2.l2Waits i pas then .stay s else f a.2 pas

/-! ## Accesses that leave the block -/

/-- A load from the host: it waits for the response (R265, R375). -/
def State.hostLoad (s : State) (i : QuireId) (dst : LoadDst) (len : Nat) (va : W64) (a n : Nat) : State :=
  match s.hostTag with
  | none => s
  | some (t, s) =>
    let s : State := { s with hostReqs := s.hostReqs ++ [⟨t, i, none⟩] }
    let s := s.hostSend { kind := .read, tag := t, addr := s.hostAddr a, len := n, ctx := (s.q i).ctx }
    s.modQ i (fun c => { c with stall := .host t dst len va 2 })

/-- A load from another node: RD, with its response to come (R416, R418). -/
def State.remoteLoad (s : State) (i : QuireId) (dst : LoadDst) (len : Nat) (va : W64) (pa : Nat) : State :=
  let x := s.ctxEntry (s.q i).ctx
  match x.2.request (.load i) (pkeyOf x.1) 0x01 true (pa / 16 * 16) [] with
  | none => s
  | some (t, s) => s.modQ i (fun c => { c with stall := .remote t dst len va 2 })

/-! ## Loads (R85) -/

/-- A checked load: from the window, the host, another node, or memory of the block. -/
def State.doLoad (s : State) (i : QuireId) (dst : LoadDst) (len : Nat) (va : W64) (pas : List Nat) : Body :=
  let s := s.drain i
  let pa := pas.headD 0
  let one := oneRun va pas
  if one && s.remotePa pa then .stay (s.remoteLoad i dst len va pa)
  else if one && regionOf (localOf pa) = .host then .stay (s.hostLoad i dst len va (localOf pa) pas.length)
  else
    let v := if s.inWindow pa then
        let s := s.winLook false (winOff pa) pas.length
        (s.winRead false (winOff pa) (pas.length = 8), s)
      else let r := s.loadAny i pas; (BitVec.ofNat 64 r.1, r.2)
    .retire (v.2.modQ i (fun c => c.deliver dst v.1)) (v.2.after i len)

/-- A scalar load. -/
def scalarLoad (q : QuireId) (dst : LoadDst) (n : Nat) (rs1 : GReg) (imm : Imm) (s : State) : Res State :=
  s.tehus q (immLen imm) true (fun s =>
    let va := (s.q q).gr rs1 + immVal imm
    s.scalarAccess q .load 2 rs1 va n (fun s pas => s.doLoad q dst (immLen imm) va pas))

/-- LB (R85). -/
def execLb (q : QuireId) (rd rs1 : GReg) (imm : Imm) (s : State) : Res State := scalarLoad q (.g rd 1 true) 1 rs1 imm s
/-- LBU (R85). -/
def execLbu (q : QuireId) (rd rs1 : GReg) (imm : Imm) (s : State) : Res State := scalarLoad q (.g rd 1 false) 1 rs1 imm s
/-- LH (R85). -/
def execLh (q : QuireId) (rd rs1 : GReg) (imm : Imm) (s : State) : Res State := scalarLoad q (.g rd 2 true) 2 rs1 imm s
/-- LHU (R85). -/
def execLhu (q : QuireId) (rd rs1 : GReg) (imm : Imm) (s : State) : Res State := scalarLoad q (.g rd 2 false) 2 rs1 imm s
/-- LW (R85). -/
def execLw (q : QuireId) (rd rs1 : GReg) (imm : Imm) (s : State) : Res State := scalarLoad q (.g rd 4 true) 4 rs1 imm s
/-- LWU (R85). -/
def execLwu (q : QuireId) (rd rs1 : GReg) (imm : Imm) (s : State) : Res State := scalarLoad q (.g rd 4 false) 4 rs1 imm s
/-- LD (R85). -/
def execLd (q : QuireId) (rd rs1 : GReg) (imm : Imm) (s : State) : Res State := scalarLoad q (.g rd 8 false) 8 rs1 imm s
/-- FLW (R59, R85). -/
def execFlw (q : QuireId) (fd : FReg) (rs1 : GReg) (imm : Imm) (s : State) : Res State := scalarLoad q (.f fd 4) 4 rs1 imm s
/-- FLD (R85). -/
def execFld (q : QuireId) (fd : FReg) (rs1 : GReg) (imm : Imm) (s : State) : Res State := scalarLoad q (.f fd 8) 8 rs1 imm s

/-! ## Stores (R85) -/

/-- A checked store of the low bytes of a value; one to the register window is posted, and acts once the instruction
has retired (R287). -/
def State.doStore (s : State) (i : QuireId) (len : Nat) (va : W64) (pas : List Nat) (v : W64) : Body :=
  let s := s.drain i
  let pa := pas.headD 0
  if s.inWindow pa then
    .andThen (.retire s (s.after i len)) (winStore i pas v)
  else
    let t := s.storeTo i false va pas (v.toNat % 2 ^ (8 * pas.length))
    .retire t (t.after i len)

/-- A scalar store. -/
def scalarStore (q : QuireId) (n : Nat) (rs1 : GReg) (imm : Imm) (v : Quire → W64) (s : State) : Res State :=
  s.tehus q (immLen imm) true (fun s =>
    let va := (s.q q).gr rs1 + immVal imm
    s.scalarAccess q .store 3 rs1 va n (fun s pas => s.doStore q (immLen imm) va pas (v (s.q q))))

/-- SB (R85). -/
def execSb (q : QuireId) (rs2 rs1 : GReg) (imm : Imm) (s : State) : Res State := scalarStore q 1 rs1 imm (fun c => c.gr rs2) s
/-- SH (R85). -/
def execSh (q : QuireId) (rs2 rs1 : GReg) (imm : Imm) (s : State) : Res State := scalarStore q 2 rs1 imm (fun c => c.gr rs2) s
/-- SW (R85). -/
def execSw (q : QuireId) (rs2 rs1 : GReg) (imm : Imm) (s : State) : Res State := scalarStore q 4 rs1 imm (fun c => c.gr rs2) s
/-- SD (R85). -/
def execSd (q : QuireId) (rs2 rs1 : GReg) (imm : Imm) (s : State) : Res State := scalarStore q 8 rs1 imm (fun c => c.gr rs2) s
/-- FSW (R85). -/
def execFsw (q : QuireId) (fs2 : FReg) (rs1 : GReg) (imm : Imm) (s : State) : Res State := scalarStore q 4 rs1 imm (fun c => c.f[fs2]) s
/-- FSD (R85). -/
def execFsd (q : QuireId) (fs2 : FReg) (rs1 : GReg) (imm : Imm) (s : State) : Res State := scalarStore q 8 rs1 imm (fun c => c.f[fs2]) s

/-! ## Atomics (R87, R88, R285, R286) -/

/-- An atomic once its operands are read: width, operation, operand and compare value. -/
structure AtomicReq where
  n : Nat
  op : Nat
  b : Nat
  cmp : Nat
  deriving DecidableEq, Repr

/-- An atomic at the host aperture (R264, R378): a failure while the fabric accepts none; otherwise the host performs
it. A posted one retires, the other waits for the response. -/
def State.hostAtomic (s : State) (i : QuireId) (rd : GReg) (x : AtomicReq) (va : W64) (pa : Nat) : Body :=
  if !bit s.straps 31 then
    let l := s.logErr (unitCode 0x0C 0) 0x09 0 (BitVec.ofNat 64 (localOf pa)) 0 (some (s.q i).ctx)
    if rd = 0 then
      let t := l.2.latchStoreErr i va l.1
      .retire t (t.after i 4)
    else .trap l.2 ⟨15, 4, va, syndOf 0 l.1, false⟩
  else match s.hostTag with
    | none => .stay s
    | some (t, s) =>
      let s := (s.execAtomic (localOf pa) x.n x.op x.b x.cmp).2
      let s : State := { s with hostReqs := s.hostReqs ++ [⟨t, i, if rd = 0 then some va else none⟩] }
      let s := s.hostSend { kind := .atomic, tag := t, addr := s.hostAddr (localOf pa), len := x.n, op := BitVec.ofNat 4 x.op,
                            ctx := (s.q i).ctx, data := leBytes 8 x.b ++ leBytes 8 (if x.op = 0x09 then x.cmp else 0) }
      if rd = 0 then .retire s (s.after i 4)
      else .stay (s.modQ i (fun c => { c with stall := .host t (.g rd x.n false) 4 va 4 }))

/-- An atomic at another node (R285, R416). -/
def State.remoteAtomic (s : State) (i : QuireId) (rd : GReg) (x : AtomicReq) (va : W64) (pa : Nat) : Body :=
  let e := s.ctxEntry (s.q i).ctx
  let slot := Config.atomEncode x.op x.n (BitVec.ofNat 64 x.b) (BitVec.ofNat 64 x.cmp)
  match e.2.request (if rd = 0 then .store i va else .load i) (pkeyOf e.1) 0x04 true pa [slot] with
  | none => .stay s
  | some (t, s) =>
    if rd = 0 then .retire s (s.after i 4)
    else .stay (s.modQ i (fun c => { c with stall := .remote t (.g rd x.n false) 4 va 4 }))

/-- The line of an address is held Exclusive or Modified in the quire's own L2 (R285). -/
def State.ownsLine (s : State) (i : QuireId) (a : Nat) : Bool :=
  s.l2On i && (s.q i).l2.any (fun e => e.1 = a / 64 && e.2.1 ≠ .shared)

/-- An atomic at memory of the block: near, in the quire's L2, or queued at the far-atomic unit (R285, R286, R570). -/
def State.localAtomic (s : State) (i : QuireId) (rd : GReg) (x : AtomicReq) (va : W64) (a : Nat) : Body :=
  if (regionOf a).coherent && rd ≠ 0 && s.ownsLine i a then
    let old := s.readN a x.n
    let t := (s.writeList a (leBytes x.n (atomicNew x.op x.n old x.b x.cmp))).l2Touch i (a / 64) true
    .retire (t.modQ i (fun c => c.deliver (.g rd x.n false) (BitVec.ofNat 64 old))) (t.after i 4)
  else
    let e : FarAtomic := ⟨a, x.n, BitVec.ofNat 5 x.op, BitVec.ofNat 64 x.b, BitVec.ofNat 64 x.cmp, some i, rd = 0, va, none⟩
    let s : State := { s with atomics := s.atomics ++ [e] }
    if rd = 0 then .retire s (s.after i 4)
    else .stay (s.modQ i (fun c => { c with stall := .atomic (.g rd x.n false) }))

/-- An atomic (R87): the quire's posted atomics and buffered stores run before it (R287), and any L1D copy of its line
goes first (R267). CAS with rd = 0 is reserved (R88). -/
def atomicOp (q : QuireId) (rd rs1 rs2 : GReg) (dbl : Bool) (op : Nat) (s : State) : Res State :=
  let n := if dbl then 8 else 4
  s.tehus q 4 (op ≠ 0x09 || rd ≠ 0) (fun s =>
    let c := s.q q
    let va := c.gr rs1
    let x : AtomicReq := ⟨n, op, (c.gr rs2).toNat % 2 ^ (8 * n), (c.gr rd).toNat % 2 ^ (8 * n)⟩
    s.scalarAccess q (.atomic (op = 0x0A)) 4 rs1 va n (fun s pas =>
      let pa := pas.headD 0
      let s := s.drain q
      if s.remotePa pa then s.remoteAtomic q rd x va pa
      else
        let s := s.modQ q (fun c => c.l1dDrop (localOf pa) n)
        if regionOf (localOf pa) = .host then s.hostAtomic q rd x va pa
        else s.localAtomic q rd x va (localOf pa)))

/-- SWAP (R87). -/
def execSwap (q : QuireId) (rd rs1 rs2 : GReg) (dbl : Bool) (s : State) : Res State := atomicOp q rd rs1 rs2 dbl 0x00 s
/-- AADD (R87). -/
def execAadd (q : QuireId) (rd rs1 rs2 : GReg) (dbl : Bool) (s : State) : Res State := atomicOp q rd rs1 rs2 dbl 0x01 s
/-- AAND (R87). -/
def execAand (q : QuireId) (rd rs1 rs2 : GReg) (dbl : Bool) (s : State) : Res State := atomicOp q rd rs1 rs2 dbl 0x02 s
/-- AOR (R87). -/
def execAor (q : QuireId) (rd rs1 rs2 : GReg) (dbl : Bool) (s : State) : Res State := atomicOp q rd rs1 rs2 dbl 0x03 s
/-- AXOR (R87). -/
def execAxor (q : QuireId) (rd rs1 rs2 : GReg) (dbl : Bool) (s : State) : Res State := atomicOp q rd rs1 rs2 dbl 0x04 s
/-- AMIN (R87). -/
def execAmin (q : QuireId) (rd rs1 rs2 : GReg) (dbl : Bool) (s : State) : Res State := atomicOp q rd rs1 rs2 dbl 0x05 s
/-- AMAX (R87). -/
def execAmax (q : QuireId) (rd rs1 rs2 : GReg) (dbl : Bool) (s : State) : Res State := atomicOp q rd rs1 rs2 dbl 0x06 s
/-- AMINU (R87). -/
def execAminu (q : QuireId) (rd rs1 rs2 : GReg) (dbl : Bool) (s : State) : Res State := atomicOp q rd rs1 rs2 dbl 0x07 s
/-- AMAXU (R87). -/
def execAmaxu (q : QuireId) (rd rs1 rs2 : GReg) (dbl : Bool) (s : State) : Res State := atomicOp q rd rs1 rs2 dbl 0x08 s
/-- CAS (R87). -/
def execCas (q : QuireId) (rd rs1 rs2 : GReg) (dbl : Bool) (s : State) : Res State := atomicOp q rd rs1 rs2 dbl 0x09 s
/-- ATOMIC_FADD (R87). -/
def execAtomicFadd (q : QuireId) (rd rs1 rs2 : GReg) (dbl : Bool) (s : State) : Res State := atomicOp q rd rs1 rs2 dbl 0x0A s

end Sys2Proof.Machine
end

