-- ==== Sys2Proof/Machine/Press.lean ====
section
/-!
DEFINITION. The press (06_press.md): group sums, stage additions, MMA and ACCZ.
-/
namespace Sys2Proof.Machine

/-! ## Operand classes (R159, R161) -/

/-- Kinds of press operand. -/
inductive POp where
  | f8 | f4 | f16 | int
  deriving DecidableEq, Repr

/-- The operand kind of a tile format (R117 codes), none for the formats the press does not multiply. -/
def popOf (fmt : Nat) : Option POp :=
  match fmt with
  | 2 | 3 => some .f16
  | 4 | 5 => some .f8
  | 6 => some .f4
  | 0xE | 0xF => some .int
  | _ => none

/-- Group size and window of a pair of kinds, none where the pair is not accepted (R159, R161). -/
def pairClass (a b : POp) (fine : Bool) : Option (Nat × Nat) :=
  match a, b with
  | .f8, .f8 | .f8, .f4 | .f4, .f8 => some (16, 26)
  | .f4, .f4 => some (32, 26)
  | .f16, .f16 => some (if fine then 4 else 8, 30)
  | .int, .int => some (16, 0)
  | _, _ => none

/-- The float format of a tile format code. -/
def floatFmt (code : Nat) : Fmt :=
  match vtypeOf code with
  | .flt f => f
  | _ => fp32

/-! ## One group (R163 to R165) -/

/-- Round a group's exact scaled sum T × 2^u to FP32 (R163): `exactN × 2^exactE` is the untruncated sum. -/
def roundGroup (t : Int) (u : Int) (exactN : Int) (exactE : Int) (md : RMode) (r16 : Nat) : Nat × Flags :=
  if t = 0 then (0, if exactN = 0 then 0 else fINX)
  else
    let r := fp32.round md false false (t < 0) t.natAbs u r16
    if r.2 &&& (fUNF ||| fOVF) ≠ 0 then (r.1, r.2 ||| fINX)
    else match fp32.decode false r.1 with
      | .fin n m e =>
        let d := (exactSum n m e (0 ≤ exactN) exactN.natAbs exactE).1
        (r.1, if d = 0 then 0 else fINX)
      | _ => (r.1, r.2)

/-- Whether a pair of factors is an infinity and a zero. -/
def infZero (a b : FVal) : Bool :=
  match a, b with
  | .inf _, .fin _ m _ => m = 0
  | .fin _ m _, .inf _ => m = 0
  | _, _ => false

/-- The sign of an infinite product of numbers. -/
def infProd (a b : FVal) : Option Bool :=
  match a, b with
  | .inf x, .inf y => some (x != y)
  | .inf x, .fin y m _ => if m = 0 then none else some (x != y)
  | .fin x m _, .inf y => if m = 0 then none else some (x != y)
  | _, _ => none

/-- A finite nonzero product: sign, magnitude and exponent. -/
def finProd (a b : FVal) : Option (Bool × Nat × Int) :=
  match a, b with
  | .fin x m e, .fin y n f => if m * n = 0 then none else some (x != y, m * n, e + f)
  | _, _ => none

/-- group_sum of R163; a scale of none is the 0xFF scale. -/
def groupSum (ps : List (FVal × FVal)) (sa sb : Option Int) (w : Nat) (md : RMode) (r16 : Nat) :
    Nat × Flags :=
  let infs := ps.filterMap (fun p => infProd p.1 p.2)
  let clash : Bool := infs.contains true && infs.contains false
  let iz : Bool := ps.any (fun p => infZero p.1 p.2)
  let snan : Bool := ps.any (fun p => p.1.isSnan || p.2.isSnan)
  let nan : Bool := ps.any (fun p => p.1.isNan || p.2.isNan)
  let noScale : Bool := sa.isNone || sb.isNone
  if clash || iz || nan || noScale then
    (fp32.qnan, if clash || iz || snan || noScale then fINV else 0)
  else match infs with
    | neg :: _ => (fp32.infinity neg, 0)
    | [] =>
      let fs := ps.filterMap (fun p => finProd p.1 p.2)
      match fs with
      | [] => (0, 0)
      | f :: _ =>
        let lead (x : Bool × Nat × Int) : Int := (Nat.log2 x.2.1 : Int) + x.2.2
        let l := fs.foldl (fun a x => max a (lead x)) (lead f)
        let u := l - w
        let trunc (x : Bool × Nat × Int) : Int :=
          let m : Nat := if u ≤ x.2.2 then x.2.1 * 2 ^ (x.2.2 - u).toNat else x.2.1 / 2 ^ (u - x.2.2).toNat
          if x.1 then -(m : Int) else m
        let t := fs.foldl (fun a x => a + trunc x) 0
        let e0 := fs.foldl (fun a x => min a x.2.2) f.2.2
        let full (x : Bool × Nat × Int) : Int :=
          let m : Nat := x.2.1 * 2 ^ (x.2.2 - e0).toNat
          if x.1 then -(m : Int) else m
        let ex := fs.foldl (fun a x => a + full x) 0
        let sc := sa.getD 0 + sb.getD 0
        roundGroup t (u + sc) ex (e0 + sc) md r16

/-- An integer group with scales (R165). -/
def groupSumInt (t : Int) (sa sb : Option Int) (md : RMode) (r16 : Nat) : Nat × Flags :=
  if sa.isNone || sb.isNone then (fp32.qnan, fINV)
  else
    let sc := sa.getD 0 + sb.getD 0
    roundGroup t sc t sc md r16

/-! ## One output position (R166 to R168) -/

/-- The fields of an MMA that its arithmetic uses, with the shape that its tiles give. -/
structure MmaCfg where
  ovw : Bool
  sat : Bool
  sgna : Bool
  sgnb : Bool
  /-- group size, and bits kept below the leading one -/
  g : Nat
  w : Nat
  /-- integer operands, and INT32 accumulation -/
  int : Bool
  int32 : Bool
  md : RMode
  k : Nat
  ro : Nat
  co : Nat
  deriving DecidableEq, Repr

/-- An operand tile's scale exponent for an element, none for the 0xFF scale (R163). -/
def scaleExp (t : Tile) (r x : Nat) : Option Int :=
  let s := t.scaleAt r x
  if s = 0xFF then none else some ((s : Int) - 127)

/-- An 8-bit integer operand (R33, R161). -/
def int8Of (x : Nat) (signed : Bool) : Int := if signed then (BitVec.ofNat 8 x).toInt else (x : Int)

/-- add_int32 (R34, R167). -/
def addInt32 (x y : Int) (sat : Bool) : Int × Flags :=
  let s := x + y
  if -(2 : Int) ^ 31 ≤ s && s ≤ (2 : Int) ^ 31 - 1 then (s, 0)
  else if sat then (if s < 0 then -(2 : Int) ^ 31 else (2 : Int) ^ 31 - 1, fIOV)
  else ((BitVec.ofInt 32 s).toInt, fIOV)

/-- Group `gi` of K-step `s` for row i and column j, added to x (R166). -/
def mmaStep (c : Quire) (cfg : MmaCfg) (a b : Tile) (i j s gi : Nat) (x : Nat × Flags) : Nat × Flags :=
  let k0 := s * (4 * cfg.g) + gi * cfg.g
  let idx := (List.range cfg.g).map (fun n => k0 + n)
  let row := 32 * cfg.ro + i
  let col := 32 * cfg.co + j
  let dr (ph : Nat) : Nat := if cfg.md = .sr then c.draw .prs gi ph s row col else 0
  if cfg.int then
    let t := idx.foldl (fun acc k =>
      acc + int8Of (a.elemAt i k) cfg.sgna * int8Of (b.elemAt k j) cfg.sgnb) 0
    if cfg.int32 then
      let r := addInt32 (BitVec.ofNat 32 x.1).toInt t cfg.sat
      ((BitVec.ofInt 32 r.1).toNat, x.2 ||| r.2)
    else
      let y := groupSumInt t (scaleExp a i k0) (scaleExp b k0 j) cfg.md (dr 0)
      let r := addVals fp32 ⟨cfg.md, false, dr 1, false⟩ (fp32.read false x.1) (fp32.read false y.1)
      (r.1, x.2 ||| y.2 ||| r.2)
  else
    let ps := idx.map (fun k =>
      ((floatFmt a.fmt).read false (a.elemAt i k), (floatFmt b.fmt).read false (b.elemAt k j)))
    let y := groupSum ps (scaleExp a i k0) (scaleExp b k0 j) cfg.w cfg.md (dr 0)
    let r := addVals fp32 ⟨cfg.md, false, dr 1, false⟩ (fp32.read false x.1) (fp32.read false y.1)
    (r.1, x.2 ||| y.2 ||| r.2)

/-- The new word of position (i, j) of an MMA (R166). -/
def mmaElem (c : Quire) (cfg : MmaCfg) (a b : Tile) (old i j : Nat) : Nat × Flags :=
  let start : Nat := if cfg.ovw then 0 else old
  (List.range (cfg.k / cfg.g)).foldl (fun x n => mmaStep c cfg a b i j (n / 4) (n % 4) x) (start, 0)

/-! ## Accumulators (R170 to R173) -/

/-- Word (i, j) of an accumulator. -/
def Acc.at (a : Acc) (i j : Nat) : Nat := elem a.words 32 (128 * i + j)

/-- The poison mark of block (bi, bj). -/
def Acc.poisoned (a : Acc) (bi bj : Nat) : Bool := bit a.poison (4 * bi + bj)

/-- The poison marks after an MMA (R173): blocks written whole from zero are cleared, then the blocks that a
marked row fed are marked. -/
def mmaPoison (old : BitVec 16) (cfg : MmaCfg) (a b : Tile) (m n : Nat) : BitVec 16 :=
  let mb := (m + 31) / 32
  let nb := n / 32
  let badB : Bool := (List.range cfg.k).any (fun r => bit b.rowPoison r)
  let badA (i : Nat) : Bool := (List.range 32).any (fun r => 32 * i + r < m && bit a.rowPoison (32 * i + r))
  packElems 16 1 16 (fun x =>
    let bi := x / 4
    let bj := x % 4
    let inside : Bool := cfg.ro ≤ bi && bi < cfg.ro + mb && cfg.co ≤ bj && bj < cfg.co + nb
    let i := bi - cfg.ro
    if inside && (badB || badA i) then 1
    else if inside && cfg.ovw && 32 * (i + 1) ≤ m then 0
    else elem old 1 x)

/-- Record a cause in PCAUSE (R183). -/
def Quire.pcause (c : Quire) (code index : Nat) : Quire :=
  c.crSet 0x050 (BitVec.ofNat 64 (index * 256 + code))

/-- TILE_SHAPE with its cause (R176). -/
def State.tileShape (s : State) (i : QuireId) (code index : Nat) : Body :=
  .trap (s.modQ i (fun c => c.pcause code index)) (exc 10)

/-- The counter event of a counter register (R185, R200, R232, R538). -/
def crEvent (cr : Nat) : W16 :=
  match cr with
  | 0x052 => 0x0108#16
  | 0x059 => 0x010C#16
  | 0x05E => 0x0110#16
  | _ => 0x0111#16

/-- Add to a counter register (R185), and to the unit's counters that select its event (R538). -/
def Quire.count (c : Quire) (cr n : Nat) : Quire :=
  { c.crSet cr (c.crGet cr + BitVec.ofNat 64 n) with events := c.events ++ [(crEvent cr, n)] }

/-! ## MMA and ACCZ (R174 to R176) -/

/-- The TILE_SHAPE cause of an MMA (R176): the lowest code that holds, with its INDEX. -/
def mmaShape (ovw fine sat sgna sgnb : Bool) (ta tb : TReg) (a b : Tile) (co ro : Nat) (acc : Fin 2)
    (tag : BitVec 2) : Option (Nat × Nat) :=
  let ia := ta.val
  let ib := tb.val
  let bad (t : Tile) : Bool := t.fmt = 0 || t.fmt = 1 || t.fmt = 0xA
  let pa := popOf a.fmt
  let pb := popOf b.fmt
  let pair : Bool := match pa, pb with
    | some x, some y => (pairClass x y fine).isSome
    | _, _ => false
  let int : Bool := pa = some .int
  let b16 (t : Tile) : Bool := scaleBlock t.desc = 16
  let int32 : Bool := int && scaleBlock a.desc = 0 && scaleBlock b.desc = 0
  let mb := (a.rows + 31) / 32
  let nb := b.elems / 32
  if a.kaxis then some (0x01, ia)
  else if !b.kaxis then some (0x02, ib)
  else if bad a then some (0x03, ia)
  else if bad b then some (0x03, ib)
  else if !pair then some (0x04, ia)
  else if fine && !(pa = some .f16 && pb = some .f16) then some (0x05, ia)
  else if (sat || sgna || sgnb) && !int then some (0x06, ia)
  else if a.elems ≠ b.rows then some (0x07, ib)
  else if b.elems > 128 then some (0x08, ib)
  else if ro + mb > 4 then some (0x09, ia)
  else if co + nb > 4 then some (0x0A, ib)
  else if pa = some .f4 && pb = some .f4 && (b16 a || b16 b) then some (0x0B, if b16 a then ia else ib)
  else if !ovw && tag ≠ (if int32 then 1 else 0) then some (0x0C, acc.val)
  else none

/-- A press instruction may move the counters of frozen, held and waiting PRESSCLK (R185). -/
def Quire.pressRan (c : Quire) : Quire := { c with timed := [0x053, 0x054, 0x055] ++ c.timed.filter (fun n => 0x056 ≤ n) }

/-- The effect of an MMA on its quire, its checks past (R166 to R173, R185). The missing rows of a partial last row block,
which are not written, raise no flag (R160; log entry 177). -/
def Quire.mma (c : Quire) (ovw fine sat sgna sgnb : Bool) (ta tb : TReg) (co ro : Nat) (acc : Fin 2)
    (md : RMode) : Quire :=
  let a := c.t ta
  let b := c.t tb
  let cl := match popOf a.fmt, popOf b.fmt with
    | some x, some y => (pairClass x y fine).getD (16, 26)
    | _, _ => (16, 26)
  let int : Bool := popOf a.fmt = some .int
  let int32 : Bool := int && scaleBlock a.desc = 0 && scaleBlock b.desc = 0
  let cfg : MmaCfg := ⟨ovw, sat, sgna, sgnb, cl.1, cl.2, int, int32, md, b.rows, ro, co⟩
  let m := a.rows
  let n := b.elems
  let old := c.acc[acc]
  let new (i j : Nat) : Nat × Flags := mmaElem c cfg a b (old.at i j) (i - 32 * ro) (j - 32 * co)
  let inside (i j : Nat) : Bool := 32 * ro ≤ i && i < 32 * ro + m && 32 * co ≤ j && j < 32 * co + n
  let words : BitVec 524288 := packElems 524288 32 16384 (fun x =>
    if inside (x / 128) (x % 128) then (new (x / 128) (x % 128)).1 else elem old.words 32 x)
  let fl : Flags := (List.range 16384).foldl (fun fl x =>
    if inside (x / 128) (x % 128) then fl ||| (new (x / 128) (x % 128)).2 else fl) 0
  let new' : Acc := { words := words, tag := if ovw then (if int32 then 1 else 0) else old.tag,
                      poison := mmaPoison old.poison cfg a b m n, dirty := true }
  let cycles := (m + 31) / 32 * (n / 32) * (cfg.k / (4 * cl.1))
  let c := (c.setFlags .prs fl).count 0x052 cycles
  let c := if int32 then c else c.countSr md
  { c with acc := c.acc.set acc new' }.pressRan

/-- Writing accumulators other than by MMA.S ends the state that holds class words: SLSTAT.VALID
and S become 0 (R223, R231). -/
def Quire.clearClasses (c : Quire) : Quire := c.crSet 0x05D (c.crGet 0x05D &&& 1)

/-- MMA (R166, R174, R176). -/
def execMma (q : QuireId) (ovw fine sat sgna sgnb : Bool) (ta tb : TReg) (co ro : BitVec 2) (acc : Fin 2)
    (rm : Ext) (s : State) : Res State :=
  s.tehusP q (extLen rm) true (fun s =>
    match (s.q q).mode .prs rm with
    | none => .trap s excIllegal
    | some md =>
      s.tileCheck q false [ta, tb] (fun s =>
        let c := s.q q
        match mmaShape ovw fine sat sgna sgnb ta tb (c.t ta) (c.t tb) co.toNat ro.toNat acc
            c.acc[acc].tag with
        | some e => s.tileShape q e.1 e.2
        | none => s.simple q (extLen rm)
            (fun c => (c.mma ovw fine sat sgna sgnb ta tb co.toNat ro.toNat acc md).clearClasses)))

/-- ACCZ (R173, R175). -/
def execAccz (q : QuireId) (acc : Fin 2) (int32 : Bool) (s : State) : Res State :=
  s.tehusP q 4 true (fun s => s.tileCheck q false [] (fun s => s.simple q 4 (fun c =>
    { c with acc := c.acc.set acc { words := 0, tag := if int32 then 1 else 0, poison := 0, dirty := true } }.clearClasses.pressRan)))

end Sys2Proof.Machine
end

