-- ==== Sys2Proof/Machine/Plough.lean ====
section
/-!
DEFINITION. The plough (07_plough.md): draining with scales, statistics and conversion, and normalisation.
-/
namespace Sys2Proof.Machine

/-! ## Exact steps (R186) -/

/-- An exact product; 0 × ∞ is a NaN with INV. -/
def exMul (a b : FVal) : FVal × Flags :=
  let sn : Flags := if a.isSnan || b.isSnan then fINV else 0
  if a.isNan || b.isNan then (.nan false false 0, sn)
  else if infZero a b then (.nan false false 0, fINV)
  else match a, b with
    | .fin x m e, .fin y n f => (.fin (x != y) (m * n) (e + f), 0)
    | _, _ => (.inf (a.isNeg != b.isNeg), 0)

/-- An exact sum; ∞ − ∞ is a NaN with INV; a zero sum is +0 unless both terms are negative zeros. -/
def exAdd (a b : FVal) : FVal × Flags :=
  let sn : Flags := if a.isSnan || b.isSnan then fINV else 0
  if a.isNan || b.isNan then (.nan false false 0, sn)
  else match a, b with
    | .inf x, .inf y => if x = y then (.inf x, 0) else (.nan false false 0, fINV)
    | .inf x, _ => (.inf x, 0)
    | _, .inf y => (.inf y, 0)
    | .fin x m e, .fin y n f =>
      let r := exactSum x m e y n f
      if r.1 = 0 then (.fin (m = 0 && n = 0 && x && y) 0 0, 0)
      else (.fin (r.1 < 0) r.1.natAbs r.2, 0)
    | _, _ => (.nan false false 0, 0)

/-- Rounding to FP32 by RNE, tiny results flushed: a code and flags. -/
def toF32 (v : FVal) : Nat × Flags := toFloat fp32 ⟨.rne, false, 0, false⟩ v

/-- An FP32 code read with subnormals as zero. -/
def rd32 (x : Nat) : FVal := fp32.read false x

/-- The maximum of two FP32 codes (R188): NaN-propagating, −0 below +0. -/
def maxNan (a b : Nat) : Nat :=
  if (rd32 a).isNan || (rd32 b).isNan then fp32.qnan else (minMaxVals fp32 true (rd32 a) (rd32 b)).1

/-- FP32 addition by RNE of two codes (R188). -/
def add32 (a b : Nat) : Nat × Flags := addVals fp32 ⟨.rne, false, 0, false⟩ (rd32 a) (rd32 b)

/-- The sum of a row in the order of R188: each block of 32 as a tree, added to the running value. -/
def rowSum (start : Nat) (xs : List Nat) (nb : Nat) : Nat × Flags :=
  (List.range nb).foldl (fun acc b =>
    let t := redTree add32 5 (((xs.drop (32 * b)).take 32).map some) acc.2
    let r := add32 acc.1 ((t.1.headD none).getD 0)
    (r.1, t.2 ||| r.2)) (start, 0)

/-! ## Configuration (R197, R198) -/

/-- The region and the destination format of a plough instruction. -/
structure PlGeom where
  nrows : Nat
  nb : Nat
  dfmt : Nat
  ro : Nat
  co : Nat
  deriving DecidableEq, Repr

/-- Columns of a region. -/
def PlGeom.nc (g : PlGeom) : Nat := 32 * g.nb
/-- Width of an output. -/
def PlGeom.w (g : PlGeom) : Nat := fmtWidth g.dfmt

/-- The geometry that PLCFG gives (R197). -/
def Quire.plGeom (c : Quire) (ro co : Nat) : PlGeom :=
  let p := c.crGet 0x056
  ⟨bits p 23 17 + 1, bits p 16 15 + 1, bits p 3 0, ro, co⟩

/-- A PLCFG option bit. -/
def Quire.plOpt (c : Quire) (b : Nat) : Bool := bit (c.crGet 0x056) b

/-- A register number of PLVEC from its low bit (R198). -/
def Quire.plReg (c : Quire) (lo : Nat) : VReg := Fin.ofNat 32 (bits (c.crGet 0x057) (lo + 4) lo)

/-- FP32 element e of a PLVEC register. -/
def Quire.plVal (c : Quire) (lo e : Nat) : Nat := elem (c.vr (c.plReg lo)) 32 e

/-- Convert a value to the destination format (R48 to R50). -/
def convTo (dfmt : Nat) (r : Rnd) (v : FVal) : Nat × Flags :=
  match vtypeOf dfmt with
  | .flt f => toFloat f r v
  | .int w sg =>
    let x := toInt (if sg then -(2 : Int) ^ (w - 1) else 0)
      (if sg then (2 : Int) ^ (w - 1) - 1 else (2 : Int) ^ w - 1) r v
    ((BitVec.ofInt w x.1).toNat, x.2)
  | .e8s => toE8S v

/-- Convert a value divided by an E8S scale (R190). -/
def convScaled (dfmt : Nat) (r : Rnd) (scale : Option Nat) (v : FVal) : Nat × Flags :=
  match scale with
  | none => convTo dfmt r v
  | some code =>
    if code = 0xFF then ((convTo dfmt r (.nan false false 0)).1, fINV)
    else match v with
      | .fin n m e => convTo dfmt r (.fin n m (e - ((code : Int) - 127)))
      | v => convTo dfmt r v

/-! ## Destinations (R194 to R196, R203) -/

/-- NT of a tile destination. -/
def tileSpan (g : PlGeom) (t : Tile) : Nat := g.nc / t.elems

/-- The tiles that TILE_STATE looks at (R203): td, then the set where it can be formed, within t15. -/
def Quire.plTiles (c : Quire) (g : PlGeom) : PlDst → List TReg
  | .tile td =>
    let t := c.t td
    if t.cfg && g.nc % t.elems = 0 then
      ((List.range (tileSpan g t)).filter (fun n => td.val + n < 16)).map (fun n => Fin.ofNat 16 (td.val + n))
    else [td]
  | _ => []

/-- The registers of a vector destination: how many. -/
def PlGeom.vregs (g : PlGeom) : Nat := (g.nrows * g.nc * g.w + 32767) / 32768

/-- Codes 0x15, 0x16, 0x18 of R203. -/
def Quire.plDstBad (c : Quire) (g : PlGeom) (code : Nat) : PlDst → Option Nat
  | .tile td =>
    let t := c.t td
    let nt := tileSpan g t
    let spans : Bool := g.nc % t.elems = 0 && td.val + nt ≤ 16
    if code = 0x15 then (if spans then none else some td.val)
    else if code = 0x16 then
      ((List.range nt).find? (fun n =>
        let u := c.tile.getD (td.val + n) {}
        u.rows ≠ g.nrows || u.fmt ≠ g.dfmt || u.kaxis ≠ t.kaxis || u.rb ≠ t.rb ||
          scaleBlock u.desc ≠ scaleBlock t.desc)).map (fun n => td.val + n)
    else none
  | .vec vd => if code = 0x18 && 32 < vd.val + g.vregs then some 0 else none
  | .mem .. => none

/-- Whether a register lies in a vector destination group. -/
def inGroup (g : PlGeom) (r : VReg) : PlDst → Bool
  | .vec vd => vd ≤ r && r.val < vd.val + g.vregs
  | _ => false

/-- Translate every row of a memory destination before anything is written (R196). -/
def State.plRows (s : State) (i : QuireId) (g : PlGeom) (base stride : W64) :
    Nat → Nat → Except Exc (List (List Nat)) × State
  | _, 0 => (.ok [], s)
  | r, n + 1 =>
    let a := s.wideAccess i .store 9 r (base + BitVec.ofNat 64 r * stride) (g.nc * g.w / 8)
    match a.1 with
    | .error e => (.error e, a.2)
    | .ok pas =>
      let t := a.2.plRows i g base stride (r + 1) n
      match t.1 with
      | .error e => (.error e, t.2)
      | .ok l => (.ok (pas :: l), t.2)

/-- What a plough instruction delivers: output codes, which outputs are poisoned, and how many columns at a
time share one mark. -/
structure PlOut where
  code : Nat → Nat → Nat
  poison : Nat → Nat → Bool
  chunk : Nat

/-- The chunks of a row from chunk b, `n` of them, as runs of one poison mark: first chunk, how many, and the mark. -/
def plRuns (p : Nat → Bool) : Nat → Nat → List (Nat × Nat × Bool)
  | _, 0 => []
  | b, n + 1 =>
    match plRuns p (b + 1) n with
    | (b', k, m) :: r => if m = p b then (b, k + 1, m) :: r else (b, 1, p b) :: (b', k, m) :: r
    | [] => [(b, 1, p b)]

/-- Write a region row to memory, a run of chunks at a time: poisoned blocks are stored poisoned (R189). -/
def State.plStoreRow (s : State) (i : QuireId) (g : PlGeom) (o : PlOut) (va : W64) (pas : List Nat) (r : Nat) :
    List (Nat × Nat × Bool) → Bool × State
  | [] => (true, s)
  | (b, k, m) :: l =>
    let at_ := b * o.chunk * g.w / 8
    let n := k * o.chunk
    let va' := va + BitVec.ofNat 64 at_
    let ps := (pas.drop at_).take (n * g.w / 8)
    let v : Nat := (packElems (n * g.w) g.w n (fun j => o.code r (o.chunk * b + j))).toNat
    let p := if m then s.storePoisoned i va' ps v 0 else (true, s.storeTo i true va' ps v)
    if p.1 then p.2.plStoreRow i g o va pas r l else p

/-- The rows of a memory destination, in ascending order: where rows overlap the highest one stands, as R141 has it for TST
(log entry 178). -/
def State.plStore (s : State) (i : QuireId) (g : PlGeom) (o : PlOut) (base stride : W64) :
    List (List Nat) → Nat → Bool × State
  | [], _ => (true, s)
  | pas :: l, r =>
    let p := s.plStoreRow i g o (base + BitVec.ofNat 64 r * stride) pas r
      (plRuns (fun b => o.poison r (o.chunk * b)) 0 (g.nc / o.chunk))
    if p.1 then p.2.plStore i g o base stride l (r + 1) else p

/-- Whether any output of a region row is poisoned. -/
def PlOut.rowPoison (o : PlOut) (g : PlGeom) (r : Nat) : Bool :=
  (List.range (g.nc / o.chunk)).any (fun b => o.poison r (o.chunk * b))

/-- Write a tile destination (R157, R194). -/
def Quire.plTile (c : Quire) (g : PlGeom) (o : PlOut) (td : TReg) : Quire :=
  let e := (c.t td).elems
  (List.range (tileSpan g (c.t td))).foldl (fun c n =>
    let k : TReg := Fin.ofNat 16 (td.val + n)
    c.setT k { c.t k with
      data := packElems 131072 g.w (g.nrows * e) (fun x => o.code (x / e) (n * e + x % e)),
      rowPoison := packElems 128 1 g.nrows (fun r => if o.rowPoison g r then 1 else 0),
      dirty := true, zero := false, sliced := false, slices := 0 }) c

/-- Write a vector destination, column-major (R195). -/
def Quire.plVec (c : Quire) (g : PlGeom) (o : PlOut) (vd : VReg) : Quire :=
  let per := 32768 / g.w
  (List.range g.vregs).foldl (fun c n =>
    let k : VReg := Fin.ofNat 32 (vd.val + n)
    c.vw k (packElems 32768 g.w per (fun y =>
      let x := n * per + y
      if x < g.nrows * g.nc then o.code (x % g.nrows) (x / g.nrows) else elem (c.vr k) g.w y))) c

/-- Deliver the outputs to their destination; false when a full poison table ended the context. -/
def State.plWrite (s : State) (i : QuireId) (g : PlGeom) (o : PlOut) (rows : List (List Nat)) :
    PlDst → Bool × State
  | .tile td => (true, s.modQ i (fun c => c.plTile g o td))
  | .vec vd => (true, s.modQ i (fun c => c.plVec g o vd))
  | .mem b st =>
    let c := s.q i
    s.plStore i g o (c.gr b) (c.gr st) rows 0

/-- Whether any output of the region is poisoned. -/
def PlOut.any (o : PlOut) (g : PlGeom) : Bool := (List.range g.nrows).any (o.rowPoison g)

/-- A plough instruction that read a poisoned element has completed: DATA_POISON with the next instruction
as its restart point, reported at its own address (R189, R245). -/
def State.plPoisoned (s : State) (i : QuireId) (len : Nat) : State :=
  let pc := (s.q i).pc64
  let next := s.after i len
  let r := s.logErr (unitCode 1 i.val) 0x08 0 0 0 (some (s.q i).ctx)
  (r.2.modQ i (fun c => { c with pc := next.setWidth 56 })).raiseAt i ⟨15, 0, pc, syndOf 0 r.1, false⟩ next

/-- The end of a plough instruction: its memory faults, its outputs, what else it changes, and poison. -/
def State.plFinish (s : State) (i : QuireId) (len : Nat) (g : PlGeom) (dst : PlDst) (o : PlOut)
    (f : Quire → Quire) : Body :=
  let c := s.q i
  let rows : Except Exc (List (List Nat)) × State := match dst with
    | .mem b st => s.plRows i g (c.gr b) (c.gr st) 0 g.nrows
    | _ => (.ok [], s)
  match rows.1 with
  | .error e => .trap rows.2 e
  | .ok ps =>
    if rows.2.l2Waits i ps.flatten then .stay s else
    let s := rows.2.modQ i f
    let p := s.plWrite i g o ps dst
    if !p.1 then .stay p.2
    else if o.any g then .stay (p.2.plPoisoned i len)
    else .retire p.2 (p.2.after i len)

/-! ## PLOUGH (R186 to R190) -/

/-- The block of a region position is poisoned (R189). -/
def plPoisonAt (a : Acc) (g : PlGeom) (i j : Nat) : Bool := a.poisoned (g.ro + i / 32) (g.co + j / 32)

/-- x of R186. -/
def plX (a : Acc) (g : PlGeom) (i j : Nat) : FVal :=
  let x := a.at (32 * g.ro + i) (32 * g.co + j)
  if plPoisonAt a g i j then .nan false false 0
  else if a.tag = 1 then
    let v := (BitVec.ofNat 32 x).toInt
    .fin (v < 0) v.natAbs 0
  else rd32 x

/-- One. -/
def fOne : FVal := .fin false 1 0

/-- y of R186, before NSCALE. -/
def Quire.plY (c : Quire) (a : Acc) (g : PlGeom) (i j : Nat) : FVal × Flags :=
  let p := exMul (plX a g i j) (if c.plOpt 7 then rd32 (c.plVal 0 i) else fOne)
  let p2 := exMul p.1 (if c.plOpt 8 then rd32 (c.plVal 5 j) else fOne)
  let y := exAdd p2.1 (if c.plOpt 9 then rd32 (c.plVal 10 j) else .fin false 0 0)
  (y.1, p.2 ||| p2.2 ||| y.2)

/-- The scale that QSCL divides an output by (R190). -/
def Quire.plScale (c : Quire) (dst : PlDst) (i j : Nat) : Option Nat :=
  if !c.plOpt 14 then none
  else match dst with
    | .tile td =>
      let e := (c.t td).elems
      some ((c.tile.getD (td.val + j / e) {}).scaleAt i (j % e))
    | _ => none

/-- How an output rounds (R202). -/
def Quire.plRnd (c : Quire) (g : PlGeom) (md : RMode) (i j : Nat) : Rnd :=
  ⟨md, false, if md = .sr then c.draw .plg 0 0 0 (32 * g.ro + i) (32 * g.co + j) else 0, c.plOpt 13⟩

/-- The integer path of R187 applies. -/
def Quire.plInt (c : Quire) (a : Acc) (g : PlGeom) : Bool :=
  a.tag = 1 && (g.dfmt = 0xA || g.dfmt = 0xE || g.dfmt = 0xF) && !c.plOpt 7 && !c.plOpt 8 && !c.plOpt 9 &&
    !c.plOpt 14

/-- One element of PLOUGH: its output, y32, and its flags. -/
def Quire.plElem (c : Quire) (a : Acc) (g : PlGeom) (dst : PlDst) (md : RMode) (i j : Nat) :
    Nat × Nat × Flags :=
  if c.plInt a g then
    let x : Nat := if plPoisonAt a g i j then 0 else a.at (32 * g.ro + i) (32 * g.co + j)
    let v := (BitVec.ofNat 32 x).toInt
    let out := if g.dfmt = 0xA then (x, 0)
      else vcvtVal (vtypeOf g.dfmt) (.int 32 true) (c.plRnd g .rne i j) x
    (out.1, (toF32 (.fin (v < 0) v.natAbs 0)).1, out.2)
  else
    let y := c.plY a g i j
    let out := convScaled g.dfmt (c.plRnd g md i j) (c.plScale dst i j) y.1
    (out.1, (toF32 y.1).1, y.2 ||| out.2)

/-- The OR of flags over a region. -/
def plFlags (g : PlGeom) (f : Nat → Nat → Flags) : Flags :=
  (List.range (g.nrows * g.nc)).foldl (fun fl x => fl ||| f (x / g.nc) (x % g.nc)) 0

/-- Write FP32 elements 0 to NROWS − 1 of a register, keeping the others (R195). -/
def Quire.plStat (c : Quire) (r : VReg) (g : PlGeom) (f : Nat → Nat) : Quire :=
  c.vw r (packElems 32768 32 1024 (fun e => if e < g.nrows then f e else elem (c.vr r) 32 e))

/-- A plough instruction may move the counter of waiting PRESSCLK (R200). -/
def Quire.ploughRan (c : Quire) : Quire := { c with timed := 0x05A :: c.timed.filter (fun n => n ≠ 0x05A) }

/-- Count the PRESSCLK in which rows are read (R200, R206). -/
def Quire.plCount (c : Quire) (g : PlGeom) : Quire :=
  let per := (if g.dfmt = 0 then 4 else 8) / g.nb
  (c.count 0x059 ((g.nrows + per - 1) / per)).ploughRan

/-- The row maximum of PLOUGH (R188). -/
def Quire.plMax (c : Quire) (a : Acc) (g : PlGeom) (dst : PlDst) (md : RMode) (i : Nat) : Nat :=
  let ys := (List.range g.nc).map (fun j => (c.plElem a g dst md i j).2.1)
  if c.plOpt 12 then ys.foldl maxNan (c.plVal 15 i)
  else (ys.drop 1).foldl maxNan (maxNan (ys.headD 0) (ys.headD 0))

/-- The row sum of PLOUGH (R188). -/
def Quire.plSum (c : Quire) (a : Acc) (g : PlGeom) (dst : PlDst) (md : RMode) (i : Nat) : Nat × Flags :=
  rowSum (if c.plOpt 12 then c.plVal 20 i else 0)
    ((List.range g.nc).map (fun j => (c.plElem a g dst md i j).2.1)) g.nb

/-- What PLOUGH changes beside its destination: flags, statistics, SR_SEQ and PLCYC. -/
def Quire.plEffects (c : Quire) (a : Acc) (g : PlGeom) (dst : PlDst) (md : RMode) : Quire :=
  let fl := plFlags g (fun i j => (c.plElem a g dst md i j).2.2)
  let fl := if c.plOpt 11 then (List.range g.nrows).foldl (fun x i => x ||| (c.plSum a g dst md i).2) fl else fl
  let d := c.setFlags .plg fl
  let d := if c.plOpt 10 then d.plStat (c.plReg 15) g (fun i => c.plMax a g dst md i) else d
  let d := if c.plOpt 11 then d.plStat (c.plReg 20) g (fun i => (c.plSum a g dst md i).1) else d
  (if c.plInt a g then d else d.countSr md).plCount g

/-- The TILE_SHAPE cause of PLOUGH and PLOUGH.N (R203): the lowest code that holds, with its INDEX. -/
def Quire.plShape (c : Quire) (g : PlGeom) (dst : PlDst) (acc : Fin 2) (norm : Bool) : Option (Nat × Nat) :=
  let a := c.acc[acc]
  let ia := acc.val
  let td : Nat := match dst with | .tile t => t.val | _ => 0
  let scaled : Bool := match dst with | .tile t => scaleBlock (c.t t).desc ≠ 0 | _ => false
  let used : List (Bool × VReg) := [(c.plOpt 7, c.plReg 0), (c.plOpt 8, c.plReg 5), (c.plOpt 9, c.plReg 10),
    (norm || c.plOpt 10, c.plReg 15), (norm || c.plOpt 11, c.plReg 20), (norm, c.plReg 25)]
  let clash : Bool :=
    if norm then c.plReg 15 = c.plReg 20 || c.plReg 15 = c.plReg 25 || c.plReg 20 = c.plReg 25
    else c.plOpt 10 && c.plOpt 11 && c.plReg 15 = c.plReg 20
  if a.tag = 2 then some (0x10, ia)
  else if norm && a.tag = 1 then some (0x11, ia)
  else if 128 < 32 * g.ro + g.nrows then some (0x12, ia)
  else if 4 < g.co + g.nb then some (0x13, ia)
  else if norm && g.dfmt ≠ 3 && g.dfmt ≠ 4 then some (0x14, 0)
  else match c.plDstBad g 0x15 dst with
    | some x => some (0x15, x)
    | none => match c.plDstBad g 0x16 dst with
      | some x => some (0x16, x)
      | none =>
        if c.plOpt 14 && !scaled then some (0x17, td)
        else match c.plDstBad g 0x18 dst with
          | some x => some (0x18, x)
          | none => if used.any (fun u => u.1 && inGroup g u.2 dst) || clash then some (0x19, 0) else none

/-- PLOUGH (R186 to R190, R201 to R204). -/
def execPlough (q : QuireId) (dst : PlDst) (co ro : BitVec 2) (acc : Fin 2) (rm : Ext) (s : State) :
    Res State :=
  s.tehusP q (extLen rm) true (fun s =>
    match (s.q q).mode .plg rm with
    | none => .trap s excIllegal
    | some md =>
      let g := (s.q q).plGeom ro.toNat co.toNat
      s.tileCheck q false ((s.q q).plTiles g dst) (fun s =>
        let c := s.q q
        match c.plShape g dst acc false with
        | some e => s.tileShape q e.1 e.2
        | none =>
          let a := c.acc[acc]
          s.plFinish q (extLen rm) g dst
            ⟨fun i j => (c.plElem a g dst md i j).1, fun i j => plPoisonAt a g i j, 32⟩
            (fun c => c.plEffects a g dst md)))

/-! ## PLOUGH.N (R191, R192) -/

/-- T[k] × 2^30 of R192. -/
def exp2T (k : Nat) : Nat := (exp2Frac k 8 / 2 ^ 97 + 1) / 2

/-- exp2_unit (R192) on an FP32 code. -/
def exp2Unit (x : Nat) : Nat × Flags :=
  match rd32 x with
  | .nan .. => (fp32.qnan, 0)
  | .inf neg => (if neg then 0 else fp32.infinity false, 0)
  | .fin neg m e =>
    let kb := max (-e).toNat 8
    let scaled : Nat := m * 2 ^ (e + kb).toNat
    let v : Int := if neg then -(scaled : Int) else scaled
    if v < -126 * 2 ^ kb then (0, fUNF ||| fINX)
    else
      let n : Int := v / 2 ^ kb
      let f : Nat := (v % 2 ^ kb).toNat
      let k := f / 2 ^ (kb - 8)
      let r := f % 2 ^ (kb - 8)
      let p : Nat := exp2T k * (2 ^ (2 * kb + 32) + 0xB17217F8 * r * 2 ^ kb + 0x3D7F7BFF * r * r)
      let y := fp32.round .rne false false false p (n - 30 - 2 * kb - 32) 0
      (y.1, if f = 0 then 0 else fINX)

/-- diff of R191: its only flag is INV, where it forms ∞ − ∞ (R208). -/
def diffN (u v : Nat) : Nat × Flags :=
  match rd32 u, rd32 v with
  | .inf true, .inf true => (fp32.infinity true, 0)
  | a, b => ((addVals fp32 ⟨.rne, false, 0, false⟩ a b.negate).1, if a = .inf false ∧ b = .inf false then fINV else 0)

/-- z[j] of R191, with the INV that its exact step sets. -/
def Quire.plZ (c : Quire) (a : Acc) (g : PlGeom) (i j : Nat) : Nat × Flags :=
  let y := c.plY a g i j
  let z := exMul y.1 (rd32 (bits (c.crGet 0x058) 31 0))
  ((toF32 z.1).1, (y.2 ||| z.2) &&& fINV)

/-- What PLOUGH.N computes for one row: the new maximum and sum, the correction, p and the flags. -/
structure PlNorm where
  mx : Nat
  sum : Nat
  cor : Nat
  p : List Nat
  fl : Flags
  deriving DecidableEq, Repr

/-- A row of PLOUGH.N (R191). -/
def Quire.plNormRow (c : Quire) (a : Acc) (g : PlGeom) (i : Nat) : PlNorm :=
  let zs := (List.range g.nc).map (fun j => c.plZ a g i j)
  let mo := c.plVal 15 i
  let mn := zs.foldl (fun m z => maxNan m z.1) mo
  let ps := zs.map (fun z =>
    let d := diffN z.1 mn
    let p := exp2Unit d.1
    (p.1, z.2 ||| d.2 ||| p.2))
  let dc := diffN mo mn
  let cor := exp2Unit dc.1
  let t := rowSum 0 (ps.map (·.1)) g.nb
  let l := fmaVals fp32 ⟨.rne, false, 0, false⟩ (rd32 (c.plVal 20 i)) (rd32 cor.1) (rd32 t.1)
  ⟨mn, l.1, cor.1, ps.map (·.1), ps.foldl (fun f p => f ||| p.2) (dc.2 ||| cor.2 ||| t.2 ||| l.2)⟩

/-- What PLOUGH.N changes beside its destination. -/
def Quire.plNormEffects (c : Quire) (a : Acc) (g : PlGeom) (dst : PlDst) (md : RMode) : Quire :=
  let row := c.plNormRow a g
  let out (i j : Nat) : Nat × Flags :=
    convScaled g.dfmt (c.plRnd g md i j) (c.plScale dst i j) (rd32 ((row i).p.getD j 0))
  let fl := (List.range g.nrows).foldl (fun f i => f ||| (row i).fl) (plFlags g (fun i j => (out i j).2))
  let d := ((c.setFlags .plg fl).plStat (c.plReg 20) g (fun i => (row i).sum)).plStat (c.plReg 15) g
    (fun i => (row i).mx)
  let d := d.vw (c.plReg 25) (packElems 32768 32 1024 (fun e => (row (e % g.nrows)).cor))
  (d.countSr md).plCount g

/-- PLOUGH.N (R191, R201): a memory destination is an illegal form. -/
def execPloughN (q : QuireId) (dst : PlDst) (co ro : BitVec 2) (acc : Fin 2) (rm : Ext) (s : State) :
    Res State :=
  s.tehusP q (extLen rm) (match dst with | .mem .. => false | _ => true) (fun s =>
    match (s.q q).mode .plg rm with
    | none => .trap s excIllegal
    | some md =>
      let g := (s.q q).plGeom ro.toNat co.toNat
      s.tileCheck q false ((s.q q).plTiles g dst) (fun s =>
        let c := s.q q
        match c.plShape g dst acc true with
        | some e => s.tileShape q e.1 e.2
        | none =>
          let a := c.acc[acc]
          let out (i j : Nat) : Nat := (convScaled g.dfmt (c.plRnd g md i j) (c.plScale dst i j)
            (rd32 ((c.plNormRow a g i).p.getD j 0))).1
          s.plFinish q (extLen rm) g dst ⟨out, fun i j => plPoisonAt a g i j, 32⟩
            (fun c => c.plNormEffects a g dst md)))

end Sys2Proof.Machine
end

