-- ==== Sys2Proof/Machine/Scalar.lean ====
section
/-!
DEFINITION. Integer instructions and branches of the Tehus core (03_tehus_core.md, R81 to R84, R89).
-/
namespace Sys2Proof.Machine

/-! ## Shared forms -/

/-- An instruction that writes a function of two general registers. -/
def opRR (q : QuireId) (rd rs1 rs2 : GReg) (f : W64 → W64 → W64) (s : State) : Res State :=
  s.tehus q 4 true (fun s => s.simple q 4 (fun c => c.gw rd (f (c.gr rs1) (c.gr rs2))))

/-- An instruction that writes a function of one general register. -/
def opR (q : QuireId) (rd rs1 : GReg) (f : W64 → W64) (s : State) : Res State :=
  s.tehus q 4 true (fun s => s.simple q 4 (fun c => c.gw rd (f (c.gr rs1))))

/-- An instruction that writes a function of a general register and an immediate (R63, R83). -/
def opRI (q : QuireId) (rd rs1 : GReg) (imm : Imm) (f : W64 → W64 → W64) (s : State) : Res State :=
  s.tehus q (immLen imm) true
    (fun s => s.simple q (immLen imm) (fun c => c.gw rd (f (c.gr rs1) (immVal imm))))

/-- A checked signed result of a width (R82). -/
def checked (q : QuireId) (rd : GReg) (w : Nat) (f : Quire → Int) (s : State) : Res State :=
  s.tehus q 4 true (fun s =>
    let c := s.q q
    let x := f c
    let ovf : Bool := decide (x < -(2 : Int) ^ (w - 1)) || decide ((2 : Int) ^ (w - 1) - 1 < x)
    if ovf && bit (c.crGet 0x024) 1 then .trap s excOverflow
    else s.simple q 4 (fun c =>
      (c.setFlags .scl (if ovf then fIOV else 0)).gw rd ((BitVec.ofInt w x).signExtend 64)))

/-- The low 32 bits of an operand. -/
def lo32 (x : W64) : W32 := x.setWidth 32

/-- A 0 or 1 result. -/
def flag64 (b : Bool) : W64 := if b then 1 else 0

/-- Rotate right. -/
def ror64 (a : W64) (n : Nat) : W64 := (a >>> n) ||| (a <<< ((64 - n) % 64))

/-- A division or remainder (R35, R84): on bits `w`, signed or not, quotient or remainder. By zero the
quotient has every bit 1 and the remainder is the dividend, with IDZ or the trap; the signed overflow
delivers the dividend and 0, with IOV or the trap for a quotient. -/
def divide (q : QuireId) (rd rs1 rs2 : GReg) (w : Nat) (signed quot : Bool) (s : State) : Res State :=
  s.tehus q 4 true (fun s =>
    let c := s.q q
    let a : BitVec w := (c.gr rs1).setWidth w
    let b : BitVec w := (c.gr rs2).setWidth w
    let put (fl : Flags) (x : BitVec w) : Body :=
      s.simple q 4 (fun c => (c.setFlags .scl fl).gw rd (x.signExtend 64))
    if b = 0 then
      if bit (c.crGet 0x024) 0 then .trap s excDivZero
      else put fIDZ (if quot then BitVec.allOnes w else a)
    else if signed && a = BitVec.intMin w && b = BitVec.allOnes w then
      if quot then
        if bit (c.crGet 0x024) 1 then .trap s excOverflow else put fIOV a
      else put 0 0
    else if signed then put 0 (if quot then a.sdiv b else a.srem b)
    else put 0 (if quot then a.udiv b else a.umod b))

/-- A conditional branch (R89). -/
def branch (q : QuireId) (rs1 rs2 : GReg) (off : Imm) (cond : W64 → W64 → Bool) (s : State) :
    Res State :=
  s.tehus q (immLen off) true (fun s =>
    let c := s.q q
    .retire s (if cond (c.gr rs1) (c.gr rs2) then c.pc64 + 4 * immVal off else s.after q (immLen off)))

/-! ## OP (R81, R82) -/

/-- ADD (R81). -/
def execAdd (q : QuireId) (rd rs1 rs2 : GReg) (s : State) : Res State := opRR q rd rs1 rs2 (· + ·) s
/-- SUB (R81). -/
def execSub (q : QuireId) (rd rs1 rs2 : GReg) (s : State) : Res State := opRR q rd rs1 rs2 (· - ·) s
/-- AND (R81). -/
def execAnd (q : QuireId) (rd rs1 rs2 : GReg) (s : State) : Res State := opRR q rd rs1 rs2 (· &&& ·) s
/-- OR (R81). -/
def execOr (q : QuireId) (rd rs1 rs2 : GReg) (s : State) : Res State := opRR q rd rs1 rs2 (· ||| ·) s
/-- XOR (R81). -/
def execXor (q : QuireId) (rd rs1 rs2 : GReg) (s : State) : Res State := opRR q rd rs1 rs2 (· ^^^ ·) s
/-- ANDN (R81). -/
def execAndn (q : QuireId) (rd rs1 rs2 : GReg) (s : State) : Res State :=
  opRR q rd rs1 rs2 (fun a b => a &&& ~~~ b) s
/-- SLL (R81). -/
def execSll (q : QuireId) (rd rs1 rs2 : GReg) (s : State) : Res State :=
  opRR q rd rs1 rs2 (fun a b => a <<< bits b 5 0) s
/-- SRL (R81). -/
def execSrl (q : QuireId) (rd rs1 rs2 : GReg) (s : State) : Res State :=
  opRR q rd rs1 rs2 (fun a b => a >>> bits b 5 0) s
/-- SRA (R81). -/
def execSra (q : QuireId) (rd rs1 rs2 : GReg) (s : State) : Res State :=
  opRR q rd rs1 rs2 (fun a b => a.sshiftRight (bits b 5 0)) s
/-- ROR (R81). -/
def execRor (q : QuireId) (rd rs1 rs2 : GReg) (s : State) : Res State :=
  opRR q rd rs1 rs2 (fun a b => ror64 a (bits b 5 0)) s
/-- SLT (R81). -/
def execSlt (q : QuireId) (rd rs1 rs2 : GReg) (s : State) : Res State :=
  opRR q rd rs1 rs2 (fun a b => flag64 (a.slt b)) s
/-- SLTU (R81). -/
def execSltu (q : QuireId) (rd rs1 rs2 : GReg) (s : State) : Res State :=
  opRR q rd rs1 rs2 (fun a b => flag64 (a.ult b)) s
/-- MIN (R81). -/
def execMin (q : QuireId) (rd rs1 rs2 : GReg) (s : State) : Res State :=
  opRR q rd rs1 rs2 (fun a b => if b.slt a then b else a) s
/-- MAX (R81). -/
def execMax (q : QuireId) (rd rs1 rs2 : GReg) (s : State) : Res State :=
  opRR q rd rs1 rs2 (fun a b => if a.slt b then b else a) s
/-- MINU (R81). -/
def execMinu (q : QuireId) (rd rs1 rs2 : GReg) (s : State) : Res State :=
  opRR q rd rs1 rs2 (fun a b => if b.ult a then b else a) s
/-- MAXU (R81). -/
def execMaxu (q : QuireId) (rd rs1 rs2 : GReg) (s : State) : Res State :=
  opRR q rd rs1 rs2 (fun a b => if a.ult b then b else a) s
/-- ADDW (R81). -/
def execAddw (q : QuireId) (rd rs1 rs2 : GReg) (s : State) : Res State :=
  opRR q rd rs1 rs2 (fun a b => (lo32 a + lo32 b).signExtend 64) s
/-- SUBW (R81). -/
def execSubw (q : QuireId) (rd rs1 rs2 : GReg) (s : State) : Res State :=
  opRR q rd rs1 rs2 (fun a b => (lo32 a - lo32 b).signExtend 64) s
/-- SLLW (R81). -/
def execSllw (q : QuireId) (rd rs1 rs2 : GReg) (s : State) : Res State :=
  opRR q rd rs1 rs2 (fun a b => (lo32 a <<< bits b 4 0).signExtend 64) s
/-- SRLW (R81). -/
def execSrlw (q : QuireId) (rd rs1 rs2 : GReg) (s : State) : Res State :=
  opRR q rd rs1 rs2 (fun a b => (lo32 a >>> bits b 4 0).signExtend 64) s
/-- SRAW (R81). -/
def execSraw (q : QuireId) (rd rs1 rs2 : GReg) (s : State) : Res State :=
  opRR q rd rs1 rs2 (fun a b => ((lo32 a).sshiftRight (bits b 4 0)).signExtend 64) s
/-- ADDO (R82). -/
def execAddo (q : QuireId) (rd rs1 rs2 : GReg) (s : State) : Res State :=
  checked q rd 64 (fun c => (c.gr rs1).toInt + (c.gr rs2).toInt) s
/-- SUBO (R82). -/
def execSubo (q : QuireId) (rd rs1 rs2 : GReg) (s : State) : Res State :=
  checked q rd 64 (fun c => (c.gr rs1).toInt - (c.gr rs2).toInt) s
/-- NEGO (R82). -/
def execNego (q : QuireId) (rd rs1 : GReg) (s : State) : Res State :=
  checked q rd 64 (fun c => -(c.gr rs1).toInt) s
/-- ADDWO (R82). -/
def execAddwo (q : QuireId) (rd rs1 rs2 : GReg) (s : State) : Res State :=
  checked q rd 32 (fun c => (lo32 (c.gr rs1)).toInt + (lo32 (c.gr rs2)).toInt) s
/-- CLZ (R81). -/
def execClz (q : QuireId) (rd rs1 : GReg) (s : State) : Res State :=
  opR q rd rs1 (fun a => BitVec.ofNat 64 (leadZeros a)) s
/-- CTZ (R81). -/
def execCtz (q : QuireId) (rd rs1 : GReg) (s : State) : Res State :=
  opR q rd rs1 (fun a => BitVec.ofNat 64 (trailZeros a)) s
/-- POPC (R81). -/
def execPopc (q : QuireId) (rd rs1 : GReg) (s : State) : Res State :=
  opR q rd rs1 (fun a => BitVec.ofNat 64 (popCount a)) s
/-- BREV (R81). -/
def execBrev (q : QuireId) (rd rs1 : GReg) (s : State) : Res State := opR q rd rs1 bitReverse s
/-- BSWAP (R81). -/
def execBswap (q : QuireId) (rd rs1 : GReg) (s : State) : Res State := opR q rd rs1 byteSwap64 s

/-! ## Immediates (R83) -/

/-- ADDI (R83). -/
def execAddi (q : QuireId) (rd rs1 : GReg) (imm : Imm) (s : State) : Res State :=
  opRI q rd rs1 imm (· + ·) s
/-- ANDI (R83). -/
def execAndi (q : QuireId) (rd rs1 : GReg) (imm : Imm) (s : State) : Res State :=
  opRI q rd rs1 imm (· &&& ·) s
/-- ORI (R83). -/
def execOri (q : QuireId) (rd rs1 : GReg) (imm : Imm) (s : State) : Res State :=
  opRI q rd rs1 imm (· ||| ·) s
/-- XORI (R83). -/
def execXori (q : QuireId) (rd rs1 : GReg) (imm : Imm) (s : State) : Res State :=
  opRI q rd rs1 imm (· ^^^ ·) s
/-- SLTI (R83). -/
def execSlti (q : QuireId) (rd rs1 : GReg) (imm : Imm) (s : State) : Res State :=
  opRI q rd rs1 imm (fun a b => flag64 (a.slt b)) s
/-- SLTIU (R83). -/
def execSltiu (q : QuireId) (rd rs1 : GReg) (imm : Imm) (s : State) : Res State :=
  opRI q rd rs1 imm (fun a b => flag64 (a.ult b)) s
/-- SLLI (R83). -/
def execSlli (q : QuireId) (rd rs1 : GReg) (sh : BitVec 6) (s : State) : Res State :=
  opR q rd rs1 (· <<< sh.toNat) s
/-- SRLI (R83). -/
def execSrli (q : QuireId) (rd rs1 : GReg) (sh : BitVec 6) (s : State) : Res State :=
  opR q rd rs1 (· >>> sh.toNat) s
/-- SRAI (R83). -/
def execSrai (q : QuireId) (rd rs1 : GReg) (sh : BitVec 6) (s : State) : Res State :=
  opR q rd rs1 (·.sshiftRight sh.toNat) s
/-- RORI (R83). -/
def execRori (q : QuireId) (rd rs1 : GReg) (sh : BitVec 6) (s : State) : Res State :=
  opR q rd rs1 (ror64 · sh.toNat) s
/-- LI (R83). -/
def execLi (q : QuireId) (rd : GReg) (imm : Imm) (s : State) : Res State :=
  opRI q rd 0 imm (fun _ b => b) s
/-- LIH (R83): a long form only. -/
def execLih (q : QuireId) (rd : GReg) (imm : BitVec 32) (s : State) : Res State :=
  s.tehus q 8 true (fun s => s.simple q 8 (fun c => c.gw rd (imm ++ lo32 (c.gr rd))))

/-! ## MULDIV (R84) -/

/-- MUL (R84). -/
def execMul (q : QuireId) (rd rs1 rs2 : GReg) (s : State) : Res State := opRR q rd rs1 rs2 (· * ·) s
/-- MULH (R84). -/
def execMulh (q : QuireId) (rd rs1 rs2 : GReg) (s : State) : Res State :=
  opRR q rd rs1 rs2 (fun a b => BitVec.ofInt 64 (a.toInt * b.toInt / 2 ^ 64)) s
/-- MULHU (R84). -/
def execMulhu (q : QuireId) (rd rs1 rs2 : GReg) (s : State) : Res State :=
  opRR q rd rs1 rs2 (fun a b => BitVec.ofNat 64 (a.toNat * b.toNat / 2 ^ 64)) s
/-- MULHSU (R84). -/
def execMulhsu (q : QuireId) (rd rs1 rs2 : GReg) (s : State) : Res State :=
  opRR q rd rs1 rs2 (fun a b => BitVec.ofInt 64 (a.toInt * (b.toNat : Int) / 2 ^ 64)) s
/-- MULO (R84). -/
def execMulo (q : QuireId) (rd rs1 rs2 : GReg) (s : State) : Res State :=
  checked q rd 64 (fun c => (c.gr rs1).toInt * (c.gr rs2).toInt) s
/-- MULW (R84). -/
def execMulw (q : QuireId) (rd rs1 rs2 : GReg) (s : State) : Res State :=
  opRR q rd rs1 rs2 (fun a b => (lo32 a * lo32 b).signExtend 64) s
/-- DIV (R84). -/
def execDiv (q : QuireId) (rd rs1 rs2 : GReg) (s : State) : Res State :=
  divide q rd rs1 rs2 64 true true s
/-- DIVU (R84). -/
def execDivu (q : QuireId) (rd rs1 rs2 : GReg) (s : State) : Res State :=
  divide q rd rs1 rs2 64 false true s
/-- REM (R84). -/
def execRem (q : QuireId) (rd rs1 rs2 : GReg) (s : State) : Res State :=
  divide q rd rs1 rs2 64 true false s
/-- REMU (R84). -/
def execRemu (q : QuireId) (rd rs1 rs2 : GReg) (s : State) : Res State :=
  divide q rd rs1 rs2 64 false false s
/-- DIVW (R84). -/
def execDivw (q : QuireId) (rd rs1 rs2 : GReg) (s : State) : Res State :=
  divide q rd rs1 rs2 32 true true s
/-- DIVUW (R84). -/
def execDivuw (q : QuireId) (rd rs1 rs2 : GReg) (s : State) : Res State :=
  divide q rd rs1 rs2 32 false true s
/-- REMW (R84). -/
def execRemw (q : QuireId) (rd rs1 rs2 : GReg) (s : State) : Res State :=
  divide q rd rs1 rs2 32 true false s
/-- REMUW (R84). -/
def execRemuw (q : QuireId) (rd rs1 rs2 : GReg) (s : State) : Res State :=
  divide q rd rs1 rs2 32 false false s

/-! ## Branches and jumps (R89) -/

/-- BEQ (R89). -/
def execBeq (q : QuireId) (rs1 rs2 : GReg) (off : Imm) (s : State) : Res State :=
  branch q rs1 rs2 off (fun a b => a = b) s
/-- BNE (R89). -/
def execBne (q : QuireId) (rs1 rs2 : GReg) (off : Imm) (s : State) : Res State :=
  branch q rs1 rs2 off (fun a b => a ≠ b) s
/-- BLT (R89). -/
def execBlt (q : QuireId) (rs1 rs2 : GReg) (off : Imm) (s : State) : Res State :=
  branch q rs1 rs2 off (fun a b => a.slt b) s
/-- BGE (R89). -/
def execBge (q : QuireId) (rs1 rs2 : GReg) (off : Imm) (s : State) : Res State :=
  branch q rs1 rs2 off (fun a b => !a.slt b) s
/-- BLTU (R89). -/
def execBltu (q : QuireId) (rs1 rs2 : GReg) (off : Imm) (s : State) : Res State :=
  branch q rs1 rs2 off (fun a b => a.ult b) s
/-- BGEU (R89). -/
def execBgeu (q : QuireId) (rs1 rs2 : GReg) (off : Imm) (s : State) : Res State :=
  branch q rs1 rs2 off (fun a b => !a.ult b) s
/-- JAL (R89). -/
def execJal (q : QuireId) (rd : GReg) (off : JOff) (s : State) : Res State :=
  s.tehus q (joffLen off) true (fun s =>
    let link := s.after q (joffLen off)
    .retire (s.modQ q (fun c => c.gw rd link)) ((s.q q).pc64 + 4 * joffVal off))
/-- JALR (R89): g[rs1] is read before g[rd] is written, and the target's bits [1:0] become 0. -/
def execJalr (q : QuireId) (rd rs1 : GReg) (imm : Imm) (s : State) : Res State :=
  s.tehus q (immLen imm) true (fun s =>
    let t := (s.q q).gr rs1 + immVal imm
    let link := s.after q (immLen imm)
    .retire (s.modQ q (fun c => c.gw rd link)) (t &&& ~~~ 3#64))

end Sys2Proof.Machine
end

