-- ==== Sys2Proof/Machine/Slice.lean ====
section
/-!
DEFINITION. Slice mode (08_slice_mode.md): SLC, MMA.S and PLOUGH.S.
-/
namespace Sys2Proof.Machine

/-! ## Slice planes (R209 to R212) -/

/-- Lines of a tile: rows for KAXIS = 0, columns for KAXIS = 1 (R210). -/
def Tile.lineOf (t : Tile) (r x : Nat) : Nat := if t.kaxis then x else r

/-- floor(log2 |b|) of a finite bound (R212). -/
def boundExp (v : FVal) : Int :=
  match v with
  | .fin _ m e => if m = 0 then 0 else (Nat.log2 m : Int) + e
  | _ => 0

/-- What slicing one element gives: Q, whether it counts in SLICE_TRUNC and in SLICE_OVR, and flags. -/
structure SliceOut where
  q : Int
  trunc : Nat
  ovr : Nat
  fl : Flags
  deriving DecidableEq, Repr

/-- Slice an element under its line's bound (R212). -/
def sliceElem (s : Nat) (b x : FVal) : SliceOut :=
  match b, x with
  | .fin _ mb _, .fin neg m e =>
    if mb = 0 then (if m = 0 then ⟨0, 0, 0, 0⟩ else ⟨0, 1, 0, fINX⟩)
    else
      let p : Int := e + (8 * s : Nat) - 2 - boundExp b
      let k := (-p).toNat
      let whole : Nat := m * 2 ^ p.toNat / 2 ^ k
      let lost : Bool := m * 2 ^ p.toNat % 2 ^ k ≠ 0
      let sgn (n : Nat) : Int := if neg then -(n : Int) else n
      if 2 ^ (8 * s - 1) ≤ whole then ⟨sgn (2 ^ (8 * s - 1) - 1), 0, 1, fOVF ||| fINX⟩
      else ⟨sgn whole, if lost then 1 else 0, 0, if lost then fINX else 0⟩
  | _, _ => ⟨0, 0, 1, fINV⟩

/-- The slicing of element x of row r of a tile (R212). -/
def Tile.sliceAt (t : Tile) (s : Nat) (vb : BitVec 32768) (r x : Nat) : SliceOut :=
  let f := floatFmt t.fmt
  sliceElem s (f.decode false (elem vb f.width (t.lineOf r x))) (f.decode false (t.elemAt r x))

/-- Slice i of Q, as a byte (R210). -/
def sliceByte (s : Nat) (q : Int) (i : Nat) : Nat := (BitVec.ofInt (8 * s) q).toNat / 2 ^ (8 * (s - i)) % 256

/-- The tile with its slice planes (R211, R212). -/
def Tile.sliced' (t : Tile) (s : Nat) (vb : BitVec 32768) : Tile :=
  let e := t.elems
  { t with
    data := packElems 131072 8 (t.rows * t.rb) (fun n =>
      let r := n / t.rb
      let c := n % t.rb
      if c < s * e then sliceByte s (t.sliceAt s vb r (c % e)).q (c / e + 1) else 0),
    dirty := true, zero := false, sliced := true, slices := BitVec.ofNat 4 s }

/-- A sum over the elements of a tile. -/
def Tile.total (t : Tile) (f : Nat → Nat → Nat) : Nat :=
  (List.range (t.rows * t.elems)).foldl (fun a n => a + f (n / t.elems) (n % t.elems)) 0

/-- The flags of slicing a tile. -/
def Tile.sliceFlags (t : Tile) (s : Nat) (vb : BitVec 32768) : Flags :=
  (List.range (t.rows * t.elems)).foldl
    (fun f n => f ||| (t.sliceAt s vb (n / t.elems) (n % t.elems)).fl) 0

/-- SLCFG.S (R229). -/
def Quire.sliceCount (c : Quire) : Nat := bits (c.crGet 0x05B) 3 0

/-- SLC (R212, R213, R222). -/
def execSlc (q : QuireId) (tn : TReg) (vb : VReg) (s : State) : Res State :=
  s.tehusP q 4 true (fun s => s.tileCheck q false [tn] (fun s =>
    let c := s.q q
    let t := c.t tn
    let n := c.sliceCount
    let b := c.vr vb
    if t.fmt ≠ 0 && t.fmt ≠ 1 then s.tileShape q 0x30 tn.val
    else if t.fmt = 1 && 4 < n then s.tileShape q 0x31 tn.val
    else if t.sliced then s.tileShape q 0x32 tn.val
    else s.simple q 4 (fun c =>
      (((c.setT tn (t.sliced' n b)).setFlags .prs (t.sliceFlags n b)).count 0x05E
        (t.total (fun r x => (t.sliceAt n b r x).trunc))).count 0x05F
        (t.total (fun r x => (t.sliceAt n b r x).ovr)))))

/-! ## Words (R216, R217) -/

/-- Words per output. -/
def sliceWd (s : Nat) : Nat := if s ≤ 2 then 2 else if s ≤ 4 then 4 else 8
/-- Rows of the output capacity. -/
def sliceMcap (s : Nat) : Nat := if s ≤ 4 then 128 else 64
/-- Columns of the output capacity. -/
def sliceNcap (s : Nat) : Nat := if s ≤ 2 then 128 else 64

/-- The first word of output (r, c). -/
def sliceWord (s r c : Nat) : Nat := (r * sliceNcap s + c) * sliceWd s

/-- Word q of the joined accumulators. -/
def Quire.accWord (c : Quire) (q : Nat) : Nat :=
  elem (c.acc.getD (q / 16384) {}).words 32 (q % 16384)

/-- The value R, or F of R224, that the words of an output hold: class 2 is signed, the others are not. -/
def Quire.sliceValue (c : Quire) (s r col : Nat) : Int :=
  let q := sliceWord s r col
  (List.range (s - 1)).foldl (fun a n => a + (c.accWord (q + 1 + n) : Int) * 256 ^ (s - 2 - n))
    ((BitVec.ofNat 32 (c.accWord q)).toInt * 256 ^ (s - 1))

/-- Bring R into the range that the words can hold, with IOV when the class-2 word wraps (R217). -/
def sliceWrap (s : Nat) (r : Int) : Int × Flags :=
  let hi := r / 256 ^ (s - 1)
  if -(2 : Int) ^ 31 ≤ hi && hi < (2 : Int) ^ 31 then (r, 0)
  else ((BitVec.ofInt 32 hi).toInt * 256 ^ (s - 1) + r % 256 ^ (s - 1), fIOV)

/-- Word n of an output whose value is R: class n + 2 (R216, R217). -/
def sliceWordOf (s : Nat) (r : Int) (n : Nat) : Nat :=
  if n = 0 then (BitVec.ofInt 32 (r / 256 ^ (s - 1))).toNat
  else if n < s then (r / 256 ^ (s - 1 - n) % 256).toNat
  else 0

/-- Whether any word of an output lies in a poisoned accumulator block. All its words lie in one block. -/
def Quire.slicePoison (c : Quire) (s r col : Nat) : Bool :=
  let q := sliceWord s r col
  (c.acc.getD (q / 16384) {}).poisoned (q % 16384 / 128 / 32) (q % 128 / 32)

/-! ## MMA.S (R215 to R219, R223) -/

/-- The slice pairs in the order of R219: by class, then by i. -/
def slicePairs (s : Nat) : List (Nat × Nat) :=
  (List.range s).flatMap (fun w => (List.range (w + 1)).map (fun i => (i + 1, w + 1 - i)))

/-- Slice i of element e of row r, as its plane's integer (R210, R215). -/
def Tile.sliceGet (t : Tile) (i r e : Nat) : Int :=
  let b := t.data.toNat / 2 ^ (8 * (r * t.rb + (i - 1) * t.elems + e)) % 256
  if i = 1 then (BitVec.ofNat 8 b).toInt else b

/-- One task: the weighted sum of the products of one slice pair over 16 k (R219). -/
def sliceTask (s : Nat) (a b : Tile) (r col g : Nat) (p : Nat × Nat) : Int :=
  (List.range 16).foldl (fun x n =>
    x + a.sliceGet p.1 r (16 * g + n) * b.sliceGet p.2 (16 * g + n) col) 0 * 256 ^ (s + 1 - p.1 - p.2)

/-- Add tasks four at a time, wrapping after each press cycle (R217, R219). -/
def sliceCycles (s : Nat) : Nat → List Int → Int × Flags → Int × Flags
  | 0, _, x => x
  | n + 1, ts, x =>
    let r := sliceWrap s ((ts.take 4).foldl (· + ·) x.1)
    sliceCycles s n (ts.drop 4) (r.1, x.2 ||| r.2)

/-- The new value of an output from its starting value. -/
def sliceOutput (s : Nat) (a b : Tile) (start : Int) (r col : Nat) : Int × Flags :=
  let ts := (List.range (a.elems / 16)).flatMap (fun g =>
    (slicePairs s).map (fun p => sliceTask s a b r col g p))
  sliceCycles s ((ts.length + 3) / 4) ts (start, 0)

/-- The TILE_SHAPE cause of MMA.S (R222), the lowest code that holds, with its INDEX. -/
def Quire.mmaSShape (c : Quire) (ovw : Bool) (ta tb : TReg) (co ro : Nat) : Option (Nat × Nat) :=
  let a := c.t ta
  let b := c.t tb
  let st := c.crGet 0x05D
  let s := a.slices.toNat
  if !a.sliced then some (0x20, ta.val)
  else if !b.sliced then some (0x21, tb.val)
  else if a.kaxis then some (0x22, ta.val)
  else if !b.kaxis then some (0x23, tb.val)
  else if a.fmt ≠ b.fmt || a.slices ≠ b.slices then some (0x24, tb.val)
  else if a.elems ≠ b.rows then some (0x25, tb.val)
  else if a.elems % 16 ≠ 0 then some (0x26, ta.val)
  else if b.elems % 32 ≠ 0 then some (0x27, tb.val)
  else if sliceMcap s < 32 * ro + a.rows then some (0x28, ta.val)
  else if sliceNcap s < 32 * co + b.elems then some (0x29, tb.val)
  else if !ovw && (c.acc[0].tag ≠ 2 || c.acc[1].tag ≠ 2 || !bit st 8 || bits st 7 4 ≠ s ||
      bits st 0 0 ≠ a.fmt) then some (0x2A, 0)
  else none

/-- The accumulators, joined (R216), after MMA.S, and its flags. -/
def Quire.mmaS (c : Quire) (ovw : Bool) (ta tb : TReg) (co ro : Nat) : Quire :=
  let a := c.t ta
  let b := c.t tb
  let s := a.slices.toNat
  let wd := sliceWd s
  let inside (r col : Nat) : Bool :=
    32 * ro ≤ r && r < 32 * ro + a.rows && 32 * co ≤ col && col < 32 * co + b.elems
  let new (r col : Nat) : Int × Flags :=
    sliceOutput s a b (if ovw then 0 else c.sliceValue s r col) (r - 32 * ro) (col - 32 * co)
  let word (q : Nat) : Nat :=
    let r := q / wd / sliceNcap s
    let col := q / wd % sliceNcap s
    if inside r col then sliceWordOf s (new r col).1 (q % wd) else c.accWord q
  let fl : Flags := (List.range (a.rows * b.elems)).foldl (fun f n =>
    f ||| (new (32 * ro + n / b.elems) (32 * co + n % b.elems)).2) 0
  let badB : Bool := (List.range b.rows).any (fun r => bit b.rowPoison r)
  let badA (i : Nat) : Bool :=
    (List.range 32).any (fun r => 32 * i + r < a.rows && bit a.rowPoison (32 * i + r))
  -- outputs of a poisoned press cycle's output block
  let bad (r col : Nat) : Bool :=
    ro ≤ r / 32 && r / 32 < ro + (a.rows + 31) / 32 && 32 * co ≤ col && col < 32 * co + b.elems &&
      (badB || badA (r / 32 - ro))
  let mark (n blk : Nat) : Bool :=
    (List.range 1024).any (fun x =>
      let q := n * 16384 + (blk / 4 * 32 + x / 32) * 128 + blk % 4 * 32 + x % 32
      bad (q / wd / sliceNcap s) (q / wd % sliceNcap s))
  let new' (n : Fin 2) : Acc :=
    { words := packElems 524288 32 16384 (fun x => word (n.val * 16384 + x)),
      tag := 2, dirty := true,
      poison := packElems 16 1 16 (fun x =>
        if mark n.val x then 1 else elem c.acc[n].poison 1 x) }
  let g := a.elems / 16
  let c := (c.setFlags .prs fl).count 0x052
    ((a.rows + 31) / 32 * (b.elems / 32) * ((g * (s * (s + 1) / 2) + 3) / 4))
  let c := if ovw then c.crSet 0x05D (BitVec.ofNat 64 (0x100 + 16 * s + a.fmt)) else c
  { c with acc := Vector.ofFn new' }.pressRan

/-- MMA.S (R215 to R223). -/
def execMmaS (q : QuireId) (ovw : Bool) (ta tb : TReg) (co ro : BitVec 2) (s : State) : Res State :=
  s.tehusP q 4 true (fun s => s.tileCheck q false [ta, tb] (fun s =>
    match (s.q q).mmaSShape ovw ta tb co.toNat ro.toNat with
    | some e => s.tileShape q e.1 e.2
    | none => s.simple q 4 (fun c => c.mmaS ovw ta tb co.toNat ro.toNat)))

/-! ## PLOUGH.S (R224, R225) -/

/-- The TILE_SHAPE cause of PLOUGH.S (R222), the lowest code that holds, with its INDEX. -/
def Quire.plSShape (c : Quire) (g : PlGeom) (dst : PlDst) : Option (Nat × Nat) :=
  let st := c.crGet 0x05D
  let s := bits st 7 4
  if c.acc[0].tag ≠ 2 || c.acc[1].tag ≠ 2 || !bit st 8 then some (0x38, 0)
  else if g.dfmt ≠ 0 && g.dfmt ≠ 1 then some (0x39, 0)
  else if c.plOpt 7 || c.plOpt 8 || c.plOpt 9 || c.plOpt 14 then some (0x3A, 0)
  else if sliceMcap s < 32 * g.ro + g.nrows then some (0x3B, 0)
  else if sliceNcap s < 32 * (g.co + g.nb) then some (0x3C, 0)
  else match c.plDstBad g 0x15 dst with
    | some x => some (0x3D, x)
    | none => match c.plDstBad g 0x16 dst with
      | some x => some (0x3D, x)
      | none => match c.plDstBad g 0x18 dst with
        | some x => some (0x3D, x)
        | none => if inGroup g (c.plReg 0) dst || inGroup g (c.plReg 5) dst then some (0x3E, 0) else none

/-- One output of PLOUGH.S for row i and column j of the region: its code and flags (R224). Bounds and
draws are taken at the output's own coordinates. A tiny inexact result is delivered as a subnormal, and sets UNF, in both
profiles (R37, R51; log entry 175). -/
def Quire.plSElem (c : Quire) (g : PlGeom) (md : RMode) (i j : Nat) : Nat × Flags :=
  let st := c.crGet 0x05D
  let s := bits st 7 4
  let r := 32 * g.ro + i
  let col := 32 * g.co + j
  let bf := floatFmt (bits st 0 0)
  let ba := bf.decode false (elem (c.vr (c.plReg 0)) bf.width r)
  let bb := bf.decode false (elem (c.vr (c.plReg 5)) bf.width col)
  let df := floatFmt g.dfmt
  let rnd : Rnd := ⟨md, true, if md = .sr then c.draw .plg 0 0 0 r col else 0, c.plOpt 13⟩
  if c.slicePoison s r col then toFloat df rnd (.nan false false 0)
  else match ba, bb with
    | .fin .., .fin .. =>
      let f := c.sliceValue s r col
      if f = 0 then (0, 0)
      else toFloat df rnd (.fin (f < 0) f.natAbs (boundExp ba + boundExp bb - 4 - (8 * s : Nat)))
    | _, _ => (df.qnan, fINV)

/-- How many columns of a region share poison marks: whole groups of 32 unless the marks differ inside one. -/
def Quire.plSChunk (c : Quire) (g : PlGeom) : Nat :=
  let s := bits (c.crGet 0x05D) 7 4
  if (List.range (g.nrows * g.nc)).all (fun n =>
      let r := 32 * g.ro + n / g.nc
      let col := n % g.nc
      c.slicePoison s r (32 * g.co + col) = c.slicePoison s r (32 * g.co + col / 32 * 32)) then 32
  else 32 / sliceWd s

/-- What PLOUGH.S changes beside its destination: flags, SR_SEQ and PLCYC. -/
def Quire.plSEffects (c : Quire) (g : PlGeom) (md : RMode) : Quire :=
  let per := 256 / sliceWd (bits (c.crGet 0x05D) 7 4)
  (((c.setFlags .plg (plFlags g (fun i j => (c.plSElem g md i j).2))).countSr md).count 0x059
    ((g.nrows * g.nc + per - 1) / per)).ploughRan

/-- PLOUGH.S (R221 to R225). -/
def execPloughS (q : QuireId) (dst : PlDst) (co ro : BitVec 2) (rm : Ext) (s : State) : Res State :=
  s.tehusP q (extLen rm) true (fun s =>
    match (s.q q).mode .plg rm with
    | none => .trap s excIllegal
    | some md =>
      let g := (s.q q).plGeom ro.toNat co.toNat
      s.tileCheck q false ((s.q q).plTiles g dst) (fun s =>
        let c := s.q q
        match c.plSShape g dst with
        | some e => s.tileShape q e.1 e.2
        | none =>
          s.plFinish q (extLen rm) g dst
            ⟨fun i j => (c.plSElem g md i j).1,
             fun i j => c.slicePoison (bits (c.crGet 0x05D) 7 4) (32 * g.ro + i) (32 * g.co + j),
             c.plSChunk g⟩
            (fun c => c.plSEffects g md)))

end Sys2Proof.Machine
end

