-- ==== Sys2Proof/Machine/StitchMem.lean ====
section
/-!
DEFINITION. Tehus-S loads and stores (12_stitcher_isa.md, R328, R329; 13_stitcher_streams.md, R364) and custom opcodes
(R345 to R348).
-/
namespace Sys2Proof.Machine

/-! ## The data address space (R328) -/

/-- What a load finds: a value; ADDRESS; or a far line that is not in the data cache (R364). -/
inductive SVal where
  | val (v : Nat) (s : State)
  | addr (s : State)
  | miss (s : State)

/-- The stores an instruction still holds, oldest first (R347). -/
abbrev SPosts := List SStore

/-- The byte of the data RAM that a held store writes. -/
def SStore.ramByte (x : SStore) (a : Nat) : Option Nat :=
  match x with
  | .ram b n v => if b ≤ a ∧ a < b + n then some (v / 2 ^ (8 * (a - b)) % 256) else none
  | _ => none

/-- The byte of far memory that a held store writes. -/
def SStore.farByte (x : SStore) (a : Nat) : Option Nat :=
  match x with
  | .far b n v => if b ≤ a ∧ a < b + n then some (v / 2 ^ (8 * (a - b)) % 256) else none
  | _ => none

/-- The word of the register window that a held store writes. -/
def SStore.winWord (x : SStore) (off : Nat) : Option Nat :=
  match x with
  | .win o v => if o = off then some v.toNat else none
  | _ => none

/-- n bytes at `a` as a load sees them: `v` under the stores its instruction holds (R347). -/
def SPosts.over (posts : SPosts) (byte : SStore → Nat → Option Nat) (a n v : Nat) : Nat :=
  if posts.isEmpty then v
  else leNat ((List.range n).map (fun i =>
    BitVec.ofNat 8 ((posts.reverse.findSome? (fun p => byte p (a + i))).getD (v / 2 ^ (8 * i) % 256))))

/-- The source of an engine's register writes (R8). -/
def engSource (e : EngineId) : Source := if e.val < 64 then .stitcher else .headband

/-- Local physical address of a far-window address (R328, R343); none where it raises ADDRESS. -/
def State.farAddr (s : State) (e : EngineId) (a : Nat) : Option Nat :=
  let d := (s.eng e).dwin
  let p := bits d 14 0 * 2 ^ 31 + (a - 2 ^ 31)
  if bit d 31 && s.backed p then some p else none

/-- A word of the register window for an engine, with the writes its instruction still holds. -/
def State.sWin (s : State) (posts : SPosts) (off : Nat) : SVal :=
  let s := s.winLook false off 4
  .val ((posts.reverse.findSome? (fun p => p.winWord off)).getD (s.winRead32 false off).toNat) s

/-- The owner of the stream whose bank the engine runs. -/
def State.engOwner (s : State) (e : EngineId) : Option CtxId :=
  (((s.eng e).banks.toList.find? (fun k => k.st = .running || k.st = .ready)).bind (·.stream)).map
    (fun id => (s.stream id).owner)

/-- How a far load ends: one of the host aperture can fail (R265, R328). -/
def State.farEnds (s : State) (e : EngineId) (p : Nat) : Option W32 × State :=
  if regionOf p = .host then (s.hostRead ((s.engOwner e).getD 0) (p / 64 * 64) 64).awayFault false p (s.engOwner e)
  else (none, s)

/-- A line enters the data cache of 128 lines (R329; log entry 166). -/
def State.dcachePut (s : State) (e : EngineId) (line : Nat) : State :=
  let r := s.putWay 128 (fun _ => true) (line, s.lineData line) ((s.eng e).dcache.filter (fun l => l.1 ≠ line))
  r.2.modEng e (fun g => { g with dcache := r.1.2 })

/-- The data of a far line, from its memory: poison and an error response raise ADDRESS; a cacheable line enters the data
cache unless deterministic mode keeps it off (R328, R329, R371). -/
def State.farFill (s : State) (e : EngineId) (p n : Nat) : SVal :=
  match s.poisonedIn p n with
  | some ref => .addr (s.logErr (s.unitOf p) 0x08 0 (BitVec.ofNat 64 (p / 64 * 64)) ref (s.engOwner e)).2
  | none =>
    let o := s.farEnds e p
    if o.1.isSome then .addr o.2
    else
      let r := o.2.dmaRead p n
      .val r.1 (if (regionOf p).memory && !(s.eng e).det then r.2.dcachePut e (p / 64) else r.2)

/-- A far load. A line in the data cache is used as it is, stale or not, unless it has been replaced: which, is a free
value (R329; log entry 5). `now` completes a miss at once. -/
def State.farLoad (s : State) (e : EngineId) (p n : Nat) (now : Bool) : SVal :=
  let s := s.wakeFor p
  let miss (s : State) : SVal := if now then s.farFill e p n else .miss s
  match (s.eng e).dcache.find? (fun l => l.1 = p / 64) with
  | none => miss s
  | some l =>
    let hit (s : State) : SVal := .val (l.2.toNat / 2 ^ (8 * (p % 64)) % 2 ^ (8 * n)) s
    if l.2 = s.lineData (p / 64) && (s.poisonedIn p n).isNone then hit s
    else
      let d := s.fresh
      if bit d.1 0 then hit d.2
      else miss (d.2.modEng e (fun g => { g with dcache := g.dcache.filter (fun x => x.1 ≠ p / 64) }))

/-- A load of n bytes at a data address. A headband's mailbox and control interface holds what this manual does not
give: a free value. -/
def State.sLoad (s : State) (e : EngineId) (a n : Nat) (now : Bool) (posts : SPosts) : SVal :=
  if a % n ≠ 0 then .addr s
  else if a < 0x8000 then .val (posts.over SStore.ramByte a n ((s.eng e).ramRead a n)) s
  else if 0x10000 ≤ a && a < 0x20000 then
    if n ≠ 4 then .addr s
    else match engFrame e with
      | none => let d := s.fresh; .val (d.1.toNat % 2 ^ 32) d.2
      | some f =>
        if a < 0x18000 then .addr s
        else
          let g := s.syncVal e 0x1A (s.eng e).stwin
          let k := 256 * bits g.1 5 0 + (a - 0x18000) / 128
          .val (elem (g.2.stream (BitVec.ofNat 16 (f.val * 16384 + k))).view 32 (a % 128 / 4)) g.2
  else if 64 ≤ e.val && 0x40000000 ≤ a && a < 0x50000000 then
    if n ≠ 4 then .addr s else s.sWin posts (a - 0x40000000)
  else if a < 0x80000000 then .addr s
  else match s.farAddr e a with
    | none => .addr s
    | some p =>
      if regionOf p = .window then
        if n ≠ 4 then .addr s else s.sWin posts (winOff p)
      else match s.farLoad e p n now with
        | .val v t => .val (posts.over SStore.farByte p n v) t
        | r => r

/-- A far store: written through, into the engine's own line too (R329). -/
def State.farStore (s : State) (e : EngineId) (p n v : Nat) : State :=
  let s := ((s.wakeFor p).dmaWrite p (leBytes n v)).hostWrite ((s.engOwner e).getD 0) p (leBytes n v)
  s.modEng e (fun g => { g with dcache := g.dcache.map (fun l =>
    if l.1 = p / 64 then (l.1, setBits l.2 (8 * (p % 64 + n) - 1) (8 * (p % 64)) (v % 2 ^ (8 * n))) else l) })

/-- What a store of n bytes at a data address writes; none where it raises ADDRESS. -/
def State.sStore (s : State) (e : EngineId) (a n v : Nat) : Option SPosts :=
  if a % n ≠ 0 then none
  else if a < 0x8000 then some [.ram a n v]
  else if 0x10000 ≤ a && a < 0x20000 then (if n = 4 && 64 ≤ e.val then some [] else none)
  else if 64 ≤ e.val && 0x40000000 ≤ a && a < 0x50000000 then
    (if n = 4 then some [.win (a - 0x40000000) (BitVec.ofNat 32 v)] else none)
  else if a < 0x80000000 then none
  else match s.farAddr e a with
    | none => none
    | some p =>
      if regionOf p = .window then (if n = 4 then some [.win (winOff p) (BitVec.ofNat 32 v)] else none)
      else some [.far p n v]

/-- Perform a store. -/
def State.sPerform (s : State) (e : EngineId) : SStore → State
  | .ram a n v => s.modEng e (fun g => g.ramWrite a n v)
  | .far p n v => s.farStore e p n v
  | .win off v => s.winWrite (engSource e) 0 off false (v.setWidth 64)

/-- Whether a store reaches the register window. -/
def SStore.isWin : SStore → Bool
  | .win _ _ => true
  | _ => false

/-- End an instruction and perform its stores; the PC moves before a write of the register window acts. -/
def State.sPost (s : State) (e : EngineId) (b : Fin 9) (pc : BitVec 18) (posts : SPosts) : SOut :=
  if posts.any SStore.isWin then .stay (posts.foldl (fun s w => s.sPerform e w) (s.modBank e b (fun k => { k with pc := pc })))
  else .done (posts.foldl (fun s w => s.sPerform e w) s) pc

/-! ## LD and ST (R328) -/

/-- Bytes that LD's modifier names. -/
def ldBytes (m : Byte) : Nat := if m.toNat < 2 then 1 else if m.toNat < 4 then 2 else 4

/-- LD on the stack, the loaded bytes given. -/
def ldOp (m : Byte) (v : Nat) : COp := legal (m.toNat < 5) (unary (fun c _ =>
  .ok (if m = 1 then (BitVec.ofNat 8 v).signExtend 32 else if m = 3 then (BitVec.ofNat 16 v).signExtend 32
       else BitVec.ofNat 32 v, c)))

/-- LD: the modifier and the stack first, then the address (R321). -/
def State.sLd (s : State) (e : EngineId) (b : Fin 9) (m : Byte) (now : Bool) (posts : SPosts) : SOut :=
  match s.core e b 2 (ldOp m 0) with
  | .fault t v a => .fault t v a
  | _ =>
    let a := (s.coreOf e b).at 0
    match s.sLoad e a.toNat (ldBytes m) now posts with
    | .addr t => .fault t 7 (some a)
    | .miss t => .stay (t.modBank e b (fun k => { k with st := .blocked, block := .far a m }))
    | .val v t => t.core e b 2 (ldOp m v)

/-- ST on the stack. -/
def stOp (m : Byte) : COp := legal (m.toNat < 3) (popOp 2 id)

/-- ST, with the stores it leaves. -/
def State.sSt (s : State) (e : EngineId) (b : Fin 9) (m : Byte) : SPosts × SOut :=
  match s.core e b 2 (stOp m) with
  | .done t pc =>
    let a := (s.coreOf e b).at 0
    match t.sStore e a.toNat (2 ^ m.toNat) ((s.coreOf e b).at 1).toNat with
    | none => ([], .fault s 7 (some a))
    | some p => (p, .done t pc)
  | o => ([], o)

/-- LDL as a micro-op, under the stores held. -/
def State.sLdl (s : State) (e : EngineId) (b : Fin 9) (m : Byte) (posts : SPosts) : SOut :=
  let a := 4 * m.toNat
  s.core e b 2 (pushOp (fun _ => BitVec.ofNat 32 (posts.over SStore.ramByte a 4 ((s.eng e).ramRead a 4))))

/-- STL as a micro-op, with the store it leaves. -/
def State.sStl (s : State) (e : EngineId) (b : Fin 9) (m : Byte) : SPosts × SOut :=
  match s.core e b 2 (popOp 1 id) with
  | .done t pc => ([.ram (4 * m.toNat) 4 ((s.coreOf e b).at 0).toNat], .done t pc)
  | o => ([], o)

/-- S_LD (R328). -/
def execSLd (e : EngineId) (b : Fin 9) (m : Byte) (s : State) : Res State := s.stitch e b (fun s => s.sLd e b m false [])

/-- S_ST (R328). -/
def execSSt (e : EngineId) (b : Fin 9) (m : Byte) (s : State) : Res State :=
  s.stitch e b (fun s => match s.sSt e b m with
    | (p, .done t pc) => t.sPost e b pc p
    | (_, o) => o)

/-- DATA_CACHE_FILL (R364): the line of a blocked far load arrives, and the load completes. -/
def execDataCacheFill (e : EngineId) (b : Fin 9) (s : State) : Res State :=
  let k := s.bank e b
  match k.st, k.block with
  | .blocked, .far _ m =>
    if (s.eng e).halted || (s.down && decide (e.val < 64)) then .next s
    else
      let s := s.modBank e b (fun k => { k with st := .ready, block := .none })
      match s.sLd e b m true [] with
      | .done t pc => .next (t.modBank e b (fun k => { k with pc := pc }))
      | .fault t v a => .next (t.raiseS e b v 0 k.pc a)
      | .stay t => .next t
  | _, _ => .next s

/-! ## Custom opcodes (R345 to R348) -/

/-- The micro-ops that act on the stack, flags and accumulator alone. -/
def microOp (op : Nat) (m : Byte) (x : W32) : Option COp :=
  match op with
  | 0x01 => some (pushi8Op m) | 0x02 => some (pushi16Op m (x.setWidth 16)) | 0x03 => some (pushi32Op m x)
  | 0x04 => some (pickOp m) | 0x05 => some (dropOp m) | 0x06 => some (swapOp m) | 0x07 => some (rollOp m)
  | 0x08 => some (depthOp m)
  | 0x10 => some (addOp m) | 0x11 => some (adcOp m) | 0x12 => some (subOp m) | 0x13 => some (sbcOp m)
  | 0x14 => some (andOp m) | 0x15 => some (orOp m) | 0x16 => some (xorOp m) | 0x17 => some (andnOp m)
  | 0x18 => some (cmpOp m) | 0x19 => some (tstOp m) | 0x1A => some (addiOp m) | 0x1B => some (negOp m)
  | 0x1C => some (notOp m)
  | 0x20 => some (shiftOp 0 m) | 0x21 => some (shiftOp 1 m) | 0x22 => some (shiftOp 2 m) | 0x23 => some (shiftOp 3 m)
  | 0x28 => some (mulOp m) | 0x29 => some (divOp false m) | 0x2A => some (divOp true m)
  | 0x30 => some (faddsOp m) | 0x31 => some (fsubsOp m) | 0x32 => some (fmulrOp m) | 0x33 => some (accldOp m)
  | 0x34 => some (accaddOp m) | 0x35 => some (macOp m) | 0x36 => some (msuOp m) | 0x37 => some (accstOp m)
  | 0x38 => some (accshrOp m) | 0x39 => some (accclrOp m) | 0x3A => some (accgetOp m) | 0x3B => some (accputOp m)
  | 0x41 => some (parOp m) | 0x42 => some (brevOp m) | 0x43 => some (popcOp m) | 0x44 => some (clzOp m)
  | 0x45 => some (bswapOp m)
  | 0x48 => some (decOp false m) | 0x49 => some (decOp true m) | 0x4A => some (dadjOp m)
  | _ => none

/-- FABCLK of a shift by c (R325). -/
def shiftClk (c : Nat) : Nat := if c ≤ 8 then 1 else if c ≤ 16 then 2 else if c ≤ 24 then 3 else 4

/-- FABCLK of a micro-op, with the count a shift pops and CRCP.CFG (R322 to R326, R333 to R336). A far load takes 3, or more
on a miss (R328). -/
def microClk (op : Nat) (m : Byte) (top : W32) (cfg : W32) (farLd : Bool) : Nat :=
  if op = 0x03 || op = 0x48 || op = 0x49 || op = 0x4A then 2
  else if 0x20 ≤ op && op ≤ 0x23 then shiftClk (if bit m 7 then bits m 4 0 else bits top 5 0)
  else if op = 0x29 || op = 0x2A then 34
  else if op = 0x32 || op = 0x35 || op = 0x36 then 3
  else if op = 0x40 then 2 ^ m.toNat * (if crcWidth cfg = 64 then 2 else 1)
  else if op = 0x50 && farLd then 3
  else 1

/-- Whether a micro-op reads the word that the load before it pushed, which costs one FABCLK (R328). Of DROP, SWAP and ROLL
the spec does not say whether they read the words that they remove or move. -/
def readsTop (op : Nat) (m : Byte) : Option Bool :=
  if op ≤ 3 || op = 8 || (0x37 ≤ op && op ≤ 0x3A) || op = 0x52 || op = 0x80 then some false
  else if op = 4 then some (m = 0)
  else if 5 ≤ op && op ≤ 7 then none
  else some true

/-- A product outstanding in a custom instruction: the FABCLK in which its MUL issued, and whether that is known. -/
abbrev MulAt := Nat × Bool

/-- Products land before the micro-op of FABCLK τ: one whose MUL issued at j lands at the end of j + 2 (R316). A MUL of an
earlier instruction issued at 1 or before, the list's first micro-op going at 3 (R347; log entry 155). -/
def State.landDue (s : State) (e : EngineId) (b : Fin 9) (τ : Nat) : List MulAt → List MulAt × State
  | [] => ([], s)
  | j :: r =>
    if j.1 + 3 ≤ τ then (s.modBank e b Bank.land).landDue e b τ r
    else if j.1 + 2 = τ && !j.2 then
      let d := s.fresh
      if bit d.1 0 then (d.2.modBank e b Bank.land).landDue e b τ r else (j :: r, d.2)
    else (j :: r, s)

/-- One micro-op: the stores it leaves, and its end. -/
def State.micro (s : State) (e : EngineId) (b : Fin 9) (op : Nat) (m : Byte) (x : W32) (posts : SPosts) : SPosts × SOut :=
  match op with
  | 0x40 => ([], s.crcS e b m)
  | 0x50 => ([], s.sLd e b m true posts)
  | 0x51 => s.sSt e b m
  | 0x52 => ([], s.sLdl e b m posts)
  | 0x53 => s.sStl e b m
  | 0x80 => ([], s.rdsr e b m)
  | _ => ([], match microOp op m x with
    | some f => s.core e b 2 f
    | none => .fault s 1 none)

/-- FABCLK of a micro-op that is followed by another, known only while a product is outstanding, when it matters. -/
def State.microTime (s : State) (e : EngineId) (b : Fin 9) (js : List MulAt) (op : Nat) (m : Byte)
    (next : Option (Nat × Byte)) : Nat × State :=
  if js.isEmpty then (1, s)
  else
    let top := (s.coreOf e b).at 0
    let cfg := s.syncVal e 0x08 (s.eng e).crcCfg
    let n := microClk op m top cfg.1 (decide (0x80000000 ≤ top.toNat))
    if op = 0x50 || op = 0x52 then
      match next.bind (fun x => readsTop x.1 x.2) with
      | some r => (n + (if r then 1 else 0), cfg.2)
      | none => let d := cfg.2.fresh; (n + d.1.toNat % 2, d.2)
    else (n, cfg.2)

/-- A custom instruction: its micro-op list, modifier and extra words. -/
structure Custom where
  ops : List W32
  m : Byte
  x : W32
  imm : Nat
  deriving DecidableEq, Repr

/-- Opcode and modifier of a micro-op of a custom instruction (R345). -/
def Custom.opOf (u : Custom) (w : W32) : Nat × Byte := (bits w 15 8, if bit w 30 then u.m else w.setWidth 8)

/-- The micro-ops from FABCLK τ: the stores held, with the state, or the fault. -/
def State.micros (s : State) (e : EngineId) (b : Fin 9) (u : Custom) :
    List W32 → Nat → List MulAt → Nat → SPosts → SPosts × SOut
  | [], _, _, _, posts => (posts, .done s 0)
  | w :: r, τ, js, stores, posts =>
    let l := s.landDue e b τ js
    let op := u.opOf w
    if !microOk w r.isEmpty u.imm stores then ([], .fault l.2 1 none)
    else
      let c := l.2.microTime e b (if op.1 = 0x28 then (τ, true) :: l.1 else l.1) op.1 op.2 (r.head?.map u.opOf)
      let o := c.2.micro e b op.1 op.2 u.x posts
      match o.2 with
      | .done t _ => t.micros e b u r (τ + c.1) (if op.1 = 0x28 then l.1 ++ [(τ, true)] else l.1)
          (if op.1 = 0x51 || op.1 = 0x53 then stores + 1 else stores) (posts ++ o.1)
      | x => ([], x)

/-- What a fault in a micro-op restores (R348): the stack, FLAGS, ACC and STICKY; its stores are discarded, and products
stay. -/
def State.customUndo (t s : State) (e : EngineId) (b : Fin 9) : State :=
  let k := s.bank e b
  (t.modBank e b (fun h => { h with stack := k.stack, flags := k.flags, acc := k.acc })).modEng e (fun h =>
    { h with sticky := (s.eng e).sticky })

/-- The decode image an engine uses (R374). -/
def State.decodeImage (s : State) (e : EngineId) : List (Nat × W32) :=
  match engFrame e with
  | none => []
  | some f => if (s.eng e).oldImage then s.frames[f].decOld else s.frames[f].dec

/-- CUSTOM_OPCODE (R345 to R348). -/
def execCustomOpcode (e : EngineId) (b : Fin 9) (n : BitVec 4) (m : Byte) (x : W32) (s : State) : Res State :=
  s.stitch e b (fun s =>
    let en := s.syncVal e 0x0B (s.eng e).decen
    let s := en.2
    let img := s.decodeImage e
    let h := sGet (0 : W32) img n.toNat
    if !bit en.1 n.toNat || !bit h 31 || !headerOk h then
      .fault s 1 none
    else match s.core e b 2 (need (bits h 15 12) (bits h 11 8) (fun c => .ok c)) with
      | .fault t v a => .fault t v a
      | _ =>
        let ops := imageOps img n.toNat
        let r := s.micros e b ⟨ops, m, x, bits h 3 2⟩ ops 3 ((s.bank e b).muls.map (fun _ => (1, false))) 0 []
        match r.2 with
        | .done t _ => t.sPost e b (s.pcAfter e b (2 + 2 * bits h 3 2)) r.1
        | .fault t v a => .fault (t.customUndo s e b) v a
        | .stay t => .stay t)

end Sys2Proof.Machine
end

