-- ==== Sys2Proof/Machine/VectorMem.lean ====
section
/-!
DEFINITION. VLD, VST, MLD and MST (04_long_vectors.md, R104, R105, R108, R111, R116, R121 to R126).
-/
namespace Sys2Proof.Machine

/-- The fields of a VLD or VST that fix its addresses (R121). -/
structure VMem where
  m : Bool
  mode : Nat
  w : Nat
  vd : VReg
  rs1 : GReg
  rs2 : BitVec 6
  deriving DecidableEq, Repr

/-- Element width in bits. -/
def VMem.bits (x : VMem) : Nat := 8 * 2 ^ x.w
/-- Fields of an element: NF in segment mode, else 1 (R121). -/
def VMem.nf (x : VMem) : Nat := if x.mode = 3 then x.rs2.toNat + 1 else 1
/-- A defined combination of mode and rs2 (R108, R121). -/
def VMem.ok (x : VMem) : Bool :=
  match x.mode with
  | 0 => x.rs2 = 0
  | 1 => true
  | 2 => x.rs2.toNat < 32
  | _ => 1 ≤ x.rs2.toNat && x.rs2.toNat ≤ 7 && x.vd.val + x.rs2.toNat ≤ 31
/-- Register of field f. -/
def VMem.reg (x : VMem) (f : Nat) : VReg := Fin.ofNat 32 (x.vd.val + f)

/-- Address of field f of element i (R121). -/
def VMem.addr (x : VMem) (c : Quire) (i f : Nat) : W64 :=
  let e := x.bits / 8
  let b := c.gr x.rs1
  match x.mode with
  | 0 => b + BitVec.ofNat 64 (i * e)
  | 1 => b + BitVec.ofNat 64 i * c.gr (Fin.ofNat 64 x.rs2.toNat)
  | 2 => b + BitVec.ofNat 64 (elem (c.vr (Fin.ofNat 32 x.rs2.toNat)) x.bits i * e)
  | _ => b + BitVec.ofNat 64 ((i * x.nf + f) * e)

/-- The check that follows the encoding's (R111). -/
def VMem.cfgBad (x : VMem) (c : Quire) : Bool := vlmaxOf c.sew < c.vl || x.bits ≠ c.sew

/-- Whether an element that the instruction still has to access is held before L2. -/
def State.elemsWait (s : State) (i : QuireId) (k : Acc') (x : VMem) : Bool :=
  let c := s.q i
  s.l2Guard i && (c.active x.m).any (fun n => (List.range x.nf).any (fun f =>
    s.l2WaitsSpan i k (x.addr c n f) (x.bits / 8)))

/-! ## Loads -/

/-- Read checked bytes: the register window, or memory past L1D (R86, R122, R267). -/
def State.readVec (s : State) (i : QuireId) (pas : List Nat) : Nat × State :=
  let pa := pas.headD 0
  if !pas.isEmpty && s.inWindow pa then
    let s := s.winLook false (winOff pa) pas.length
    ((s.winRead false (winOff pa) (pas.length = 8)).toNat, s)
  else s.loadWide i pas

/-- The fields of one element from field f, `n` of them: their values, or the first fault. -/
def State.loadElem (s : State) (i : QuireId) (x : VMem) (c : Quire) (e : Nat) : Nat → Nat → Except Exc (List Nat) × State
  | _, 0 => (.ok [], s)
  | f, n + 1 =>
    let a := s.access i .load 5 e false (x.addr c e f) (x.bits / 8)
    match a.1 with
    | .error x => (.error x, a.2)
    | .ok pas =>
      let v := a.2.readVec i pas
      let t := v.2.loadElem i x c e (f + 1) n
      match t.1 with
      | .error x => (.error x, t.2)
      | .ok l => (.ok (v.1 :: l), t.2)

/-- The active elements in ascending order up to the first fault (R123): the values loaded, and the faulting element
with its exception and the state that reports it. -/
def State.loadElems (s : State) (i : QuireId) (x : VMem) (c : Quire) :
    List Nat → (List (Nat × List Nat) × Option (Nat × Exc × State)) × State
  | [] => (([], none), s)
  | e :: r =>
    let a := s.loadElem i x c e 0 x.nf
    match a.1 with
    | .error y => (([], some (e, y, a.2)), s)
    | .ok l =>
      let t := a.2.loadElems i x c r
      (((e, l) :: t.1.1, t.1.2), t.2)

/-- Field f's register after elements VSTART to `hi` − 1: active ones as loaded, inactive ones under MP; `tail` writes
the elements from VL up under TP; every other element keeps its value (R105, R123). -/
def Quire.loaded (c : Quire) (x : VMem) (vals : List (Nat × List Nat)) (hi : Nat) (tail : Bool) (f : Nat) : VWord :=
  let old := c.vr (x.reg f)
  packElems 32768 x.bits (32768 / x.bits) (fun i =>
    if i < c.vstart then elem old x.bits i
    else if i < hi then
      if c.on x.m i then ((vals.find? (fun v => v.1 = i)).map (fun v => v.2.getD f 0)).getD 0
      else if c.mp then 0 else elem old x.bits i
    else if tail && c.tp then 0 else elem old x.bits i)

/-- Write every register of a load. -/
def Quire.putLoaded (c : Quire) (x : VMem) (vals : List (Nat × List Nat)) (hi : Nat) (tail : Bool) : Quire :=
  (List.range x.nf).foldl (fun d f => d.vw (x.reg f) (c.loaded x vals hi tail f)) c

/-- Set VSTART (R104). -/
def Quire.setVstart (c : Quire) (n : Nat) : Quire := c.crSet 0x032 (BitVec.ofNat 64 n)

/-- Write what a load loaded, leaving VSTART, and count its bytes (R538). -/
def State.putVld (s : State) (q : QuireId) (x : VMem) (vals : List (Nat × List Nat)) (hi : Nat) (tail : Bool)
    (vstart : Nat) : State :=
  s.modQ q (fun c =>
    let d := (c.putLoaded x vals hi tail).setVstart vstart
    { d with events := d.events ++ [(0x0107#16, vals.length * x.nf * (x.bits / 8))] })

/-- The end of a vector load (R122, R123): a fault past the first active element of a fault-first one shortens VL. -/
def State.endVld (s : State) (q : QuireId) (x : VMem) (ff : Bool) (r : (List (Nat × List Nat) × Option (Nat × Exc × State)) × State) :
    Body :=
  let c := s.q q
  match r.1.2 with
  | none =>
    let t := r.2.putVld q x r.1.1 c.vl true 0
    .retire t (t.after q 4)
  | some (e, y, t) =>
    if ff && (c.active x.m).head? ≠ some e then
      let t := (r.2.modQ q (fun c => c.crSet 0x030 (BitVec.ofNat 64 e))).putVld q x r.1.1 e true 0
      .retire t (t.after q 4)
    else .trap (t.putVld q x r.1.1 e false e) y

/-- VLD (R121 to R124): VLD_BYTES counts the bytes loaded (R538). -/
def execVld (q : QuireId) (m : Bool) (mode : BitVec 2) (ff : Bool) (w : BitVec 2) (vd : VReg) (rs1 : GReg) (rs2 : BitVec 6)
    (s : State) : Res State :=
  let x : VMem := ⟨m, mode.toNat, w.toNat, vd, rs1, rs2⟩
  s.tehus q 4 (x.ok && (!ff || mode.toNat < 2)) (fun s =>
    if x.cfgBad (s.q q) then .trap s excVector
    else if s.elemsWait q .load x then .stay s
    else s.endVld q x ff ((s.drain q).loadElems q x (s.q q) ((s.q q).active m)))

/-! ## Stores -/

/-- Writes that a store instruction posts to the register window, oldest first. -/
abbrev WinPosts := List (Nat × Bool × W64)

/-- Perform posted writes of a quire to the register window, in order (R287). -/
def State.winPosts (s : State) (i : QuireId) (l : WinPosts) : State :=
  l.foldl (fun s e => s.winWrite .quire i e.1 e.2.1 e.2.2) s

/-- Write checked bytes: memory past L1D, or a write for the register window. -/
def State.writeVec (s : State) (i : QuireId) (va : W64) (pas : List Nat) (v : Nat) : WinPosts × State :=
  let pa := pas.headD 0
  if !pas.isEmpty && s.inWindow pa then ([(winOff pa, pas.length = 8, BitVec.ofNat 64 v)], s)
  else ([], s.storeTo i true va pas v)

/-- Check the fields of one element, none of which has been written yet (R123). -/
def State.checkElem (s : State) (i : QuireId) (x : VMem) (c : Quire) (e : Nat) :
    Nat → Nat → Except Exc (List (List Nat)) × State
  | _, 0 => (.ok [], s)
  | f, n + 1 =>
    let a := s.access i .store 6 e false (x.addr c e f) (x.bits / 8)
    match a.1 with
    | .error x => (.error x, a.2)
    | .ok pas =>
      let t := a.2.checkElem i x c e (f + 1) n
      match t.1 with
      | .error x => (.error x, t.2)
      | .ok l => (.ok (pas :: l), t.2)

/-- Write the fields of one element. -/
def State.storeElem (s : State) (i : QuireId) (x : VMem) (c : Quire) (e : Nat) : Nat → List (List Nat) → WinPosts × State
  | _, [] => ([], s)
  | f, pas :: r =>
    let p := s.writeVec i (x.addr c e f) pas (elem (c.vr (x.reg f)) x.bits e)
    let t := p.2.storeElem i x c e (f + 1) r
    (p.1 ++ t.1, t.2)

/-- The active elements in ascending order up to the first fault (R122, R123). -/
def State.storeElems (s : State) (i : QuireId) (x : VMem) (c : Quire) :
    List Nat → (WinPosts × Option (Nat × Exc)) × State
  | [] => (([], none), s)
  | e :: r =>
    let a := s.checkElem i x c e 0 x.nf
    match a.1 with
    | .error y => (([], some (e, y)), a.2)
    | .ok l =>
      let p := a.2.storeElem i x c e 0 l
      let t := p.2.storeElems i x c r
      ((p.1 ++ t.1.1, t.1.2), t.2)

/-- VST (R121 to R123). -/
def execVst (q : QuireId) (m : Bool) (mode : BitVec 2) (ff : Bool) (w : BitVec 2) (vd : VReg) (rs1 : GReg) (rs2 : BitVec 6)
    (s : State) : Res State :=
  let x : VMem := ⟨m, mode.toNat, w.toNat, vd, rs1, rs2⟩
  s.tehus q 4 (x.ok && !ff) (fun s =>
    let c := s.q q
    if x.cfgBad c then .trap s excVector
    else if s.elemsWait q .store x then .stay s
    else
      let r := (s.drain q).storeElems q x c (c.active m)
      .andThen (match r.1.2 with
        | none => .retire (r.2.modQ q (fun c => c.setVstart 0)) (r.2.after q 4)
        | some (e, y) => .trap (r.2.modQ q (fun c => c.setVstart e)) y)
        (fun s => s.winPosts q r.1.1))

/-! ## Masks (R116) -/

/-- Bytes of a mask access. -/
def Quire.maskBytes (c : Quire) : Nat := (c.vl + 7) / 8

/-- MLD (R116): bits from VL up follow TP. -/
def execMld (q : QuireId) (mr : MReg) (rs1 : GReg) (s : State) : Res State :=
  s.tehus q 4 true (fun s =>
    let c := s.q q
    let va := c.gr rs1
    if c.vconfigBad then .trap s excVector
    else if s.l2WaitsSpan q .load va c.maskBytes then .stay s
    else
      let a := (s.drain q).access q .load 0xA 0 false va c.maskBytes
      match a.1 with
      | .error e => .trap a.2 e
      | .ok pas =>
        let v := a.2.readVec q pas
        .retire (v.2.modQ q (fun c => c.mw mr (c.destMask false c.m[mr] (fun i => v.1.testBit i)))) (v.2.after q 4))

/-- MST (R116): whole bytes of the mask as it stands. -/
def execMst (q : QuireId) (mr : MReg) (rs1 : GReg) (s : State) : Res State :=
  s.tehus q 4 true (fun s =>
    let c := s.q q
    let va := c.gr rs1
    if c.vconfigBad then .trap s excVector
    else if s.l2WaitsSpan q .store va c.maskBytes then .stay s
    else
      let a := (s.drain q).access q .store 0xB 0 false va c.maskBytes
      match a.1 with
      | .error e => .trap a.2 e
      | .ok pas =>
        let p := a.2.writeVec q va pas (c.m[mr].toNat % 2 ^ (8 * c.maskBytes))
        .andThen (.retire p.2 (p.2.after q 4)) (fun s => s.winPosts q p.1))

end Sys2Proof.Machine
end

