-- ==== Sys2Proof/Machine/Dispatch.lean ====
section
/-!
DEFINITION. One arm per command: each calls its own meaning.
-/
namespace Sys2Proof.Machine

/-- The effect of one command on everything but the queue. -/
def exec (i : Instr) (s : State) : Host.Outcome State Fault Refusal :=
  match i with
  | .add q rd rs1 rs2 => Sys2Proof.Machine.execAdd q rd rs1 rs2 s
  | .sub q rd rs1 rs2 => Sys2Proof.Machine.execSub q rd rs1 rs2 s
  | .and q rd rs1 rs2 => Sys2Proof.Machine.execAnd q rd rs1 rs2 s
  | .or q rd rs1 rs2 => Sys2Proof.Machine.execOr q rd rs1 rs2 s
  | .xor q rd rs1 rs2 => Sys2Proof.Machine.execXor q rd rs1 rs2 s
  | .andn q rd rs1 rs2 => Sys2Proof.Machine.execAndn q rd rs1 rs2 s
  | .sll q rd rs1 rs2 => Sys2Proof.Machine.execSll q rd rs1 rs2 s
  | .srl q rd rs1 rs2 => Sys2Proof.Machine.execSrl q rd rs1 rs2 s
  | .sra q rd rs1 rs2 => Sys2Proof.Machine.execSra q rd rs1 rs2 s
  | .ror q rd rs1 rs2 => Sys2Proof.Machine.execRor q rd rs1 rs2 s
  | .slt q rd rs1 rs2 => Sys2Proof.Machine.execSlt q rd rs1 rs2 s
  | .sltu q rd rs1 rs2 => Sys2Proof.Machine.execSltu q rd rs1 rs2 s
  | .min q rd rs1 rs2 => Sys2Proof.Machine.execMin q rd rs1 rs2 s
  | .max q rd rs1 rs2 => Sys2Proof.Machine.execMax q rd rs1 rs2 s
  | .minu q rd rs1 rs2 => Sys2Proof.Machine.execMinu q rd rs1 rs2 s
  | .maxu q rd rs1 rs2 => Sys2Proof.Machine.execMaxu q rd rs1 rs2 s
  | .addw q rd rs1 rs2 => Sys2Proof.Machine.execAddw q rd rs1 rs2 s
  | .subw q rd rs1 rs2 => Sys2Proof.Machine.execSubw q rd rs1 rs2 s
  | .sllw q rd rs1 rs2 => Sys2Proof.Machine.execSllw q rd rs1 rs2 s
  | .srlw q rd rs1 rs2 => Sys2Proof.Machine.execSrlw q rd rs1 rs2 s
  | .sraw q rd rs1 rs2 => Sys2Proof.Machine.execSraw q rd rs1 rs2 s
  | .addo q rd rs1 rs2 => Sys2Proof.Machine.execAddo q rd rs1 rs2 s
  | .subo q rd rs1 rs2 => Sys2Proof.Machine.execSubo q rd rs1 rs2 s
  | .nego q rd rs1 => Sys2Proof.Machine.execNego q rd rs1 s
  | .addwo q rd rs1 rs2 => Sys2Proof.Machine.execAddwo q rd rs1 rs2 s
  | .clz q rd rs1 => Sys2Proof.Machine.execClz q rd rs1 s
  | .ctz q rd rs1 => Sys2Proof.Machine.execCtz q rd rs1 s
  | .popc q rd rs1 => Sys2Proof.Machine.execPopc q rd rs1 s
  | .brev q rd rs1 => Sys2Proof.Machine.execBrev q rd rs1 s
  | .bswap q rd rs1 => Sys2Proof.Machine.execBswap q rd rs1 s
  | .addi q rd rs1 imm => Sys2Proof.Machine.execAddi q rd rs1 imm s
  | .andi q rd rs1 imm => Sys2Proof.Machine.execAndi q rd rs1 imm s
  | .ori q rd rs1 imm => Sys2Proof.Machine.execOri q rd rs1 imm s
  | .xori q rd rs1 imm => Sys2Proof.Machine.execXori q rd rs1 imm s
  | .slti q rd rs1 imm => Sys2Proof.Machine.execSlti q rd rs1 imm s
  | .sltiu q rd rs1 imm => Sys2Proof.Machine.execSltiu q rd rs1 imm s
  | .slli q rd rs1 sh => Sys2Proof.Machine.execSlli q rd rs1 sh s
  | .srli q rd rs1 sh => Sys2Proof.Machine.execSrli q rd rs1 sh s
  | .srai q rd rs1 sh => Sys2Proof.Machine.execSrai q rd rs1 sh s
  | .rori q rd rs1 sh => Sys2Proof.Machine.execRori q rd rs1 sh s
  | .li q rd imm => Sys2Proof.Machine.execLi q rd imm s
  | .lih q rd imm => Sys2Proof.Machine.execLih q rd imm s
  | .mul q rd rs1 rs2 => Sys2Proof.Machine.execMul q rd rs1 rs2 s
  | .mulh q rd rs1 rs2 => Sys2Proof.Machine.execMulh q rd rs1 rs2 s
  | .mulhu q rd rs1 rs2 => Sys2Proof.Machine.execMulhu q rd rs1 rs2 s
  | .mulhsu q rd rs1 rs2 => Sys2Proof.Machine.execMulhsu q rd rs1 rs2 s
  | .mulo q rd rs1 rs2 => Sys2Proof.Machine.execMulo q rd rs1 rs2 s
  | .mulw q rd rs1 rs2 => Sys2Proof.Machine.execMulw q rd rs1 rs2 s
  | .div q rd rs1 rs2 => Sys2Proof.Machine.execDiv q rd rs1 rs2 s
  | .divu q rd rs1 rs2 => Sys2Proof.Machine.execDivu q rd rs1 rs2 s
  | .rem q rd rs1 rs2 => Sys2Proof.Machine.execRem q rd rs1 rs2 s
  | .remu q rd rs1 rs2 => Sys2Proof.Machine.execRemu q rd rs1 rs2 s
  | .divw q rd rs1 rs2 => Sys2Proof.Machine.execDivw q rd rs1 rs2 s
  | .divuw q rd rs1 rs2 => Sys2Proof.Machine.execDivuw q rd rs1 rs2 s
  | .remw q rd rs1 rs2 => Sys2Proof.Machine.execRemw q rd rs1 rs2 s
  | .remuw q rd rs1 rs2 => Sys2Proof.Machine.execRemuw q rd rs1 rs2 s
  | .lb q rd rs1 imm => Sys2Proof.Machine.execLb q rd rs1 imm s
  | .lbu q rd rs1 imm => Sys2Proof.Machine.execLbu q rd rs1 imm s
  | .lh q rd rs1 imm => Sys2Proof.Machine.execLh q rd rs1 imm s
  | .lhu q rd rs1 imm => Sys2Proof.Machine.execLhu q rd rs1 imm s
  | .lw q rd rs1 imm => Sys2Proof.Machine.execLw q rd rs1 imm s
  | .lwu q rd rs1 imm => Sys2Proof.Machine.execLwu q rd rs1 imm s
  | .ld q rd rs1 imm => Sys2Proof.Machine.execLd q rd rs1 imm s
  | .flw q fd rs1 imm => Sys2Proof.Machine.execFlw q fd rs1 imm s
  | .fld q fd rs1 imm => Sys2Proof.Machine.execFld q fd rs1 imm s
  | .sb q rs2 rs1 imm => Sys2Proof.Machine.execSb q rs2 rs1 imm s
  | .sh q rs2 rs1 imm => Sys2Proof.Machine.execSh q rs2 rs1 imm s
  | .sw q rs2 rs1 imm => Sys2Proof.Machine.execSw q rs2 rs1 imm s
  | .sd q rs2 rs1 imm => Sys2Proof.Machine.execSd q rs2 rs1 imm s
  | .fsw q fs2 rs1 imm => Sys2Proof.Machine.execFsw q fs2 rs1 imm s
  | .fsd q fs2 rs1 imm => Sys2Proof.Machine.execFsd q fs2 rs1 imm s
  | .swap q rd rs1 rs2 dbl => Sys2Proof.Machine.execSwap q rd rs1 rs2 dbl s
  | .aadd q rd rs1 rs2 dbl => Sys2Proof.Machine.execAadd q rd rs1 rs2 dbl s
  | .aand q rd rs1 rs2 dbl => Sys2Proof.Machine.execAand q rd rs1 rs2 dbl s
  | .aor q rd rs1 rs2 dbl => Sys2Proof.Machine.execAor q rd rs1 rs2 dbl s
  | .axor q rd rs1 rs2 dbl => Sys2Proof.Machine.execAxor q rd rs1 rs2 dbl s
  | .amin q rd rs1 rs2 dbl => Sys2Proof.Machine.execAmin q rd rs1 rs2 dbl s
  | .amax q rd rs1 rs2 dbl => Sys2Proof.Machine.execAmax q rd rs1 rs2 dbl s
  | .aminu q rd rs1 rs2 dbl => Sys2Proof.Machine.execAminu q rd rs1 rs2 dbl s
  | .amaxu q rd rs1 rs2 dbl => Sys2Proof.Machine.execAmaxu q rd rs1 rs2 dbl s
  | .cas q rd rs1 rs2 dbl => Sys2Proof.Machine.execCas q rd rs1 rs2 dbl s
  | .atomicFadd q rd rs1 rs2 dbl => Sys2Proof.Machine.execAtomicFadd q rd rs1 rs2 dbl s
  | .farAtomicExecute unit => Sys2Proof.Machine.execFarAtomicExecute unit s
  | .atomicResult q => Sys2Proof.Machine.execAtomicResult q s
  | .beq q rs1 rs2 off => Sys2Proof.Machine.execBeq q rs1 rs2 off s
  | .bne q rs1 rs2 off => Sys2Proof.Machine.execBne q rs1 rs2 off s
  | .blt q rs1 rs2 off => Sys2Proof.Machine.execBlt q rs1 rs2 off s
  | .bge q rs1 rs2 off => Sys2Proof.Machine.execBge q rs1 rs2 off s
  | .bltu q rs1 rs2 off => Sys2Proof.Machine.execBltu q rs1 rs2 off s
  | .bgeu q rs1 rs2 off => Sys2Proof.Machine.execBgeu q rs1 rs2 off s
  | .jal q rd off => Sys2Proof.Machine.execJal q rd off s
  | .jalr q rd rs1 imm => Sys2Proof.Machine.execJalr q rd rs1 imm s
  | .fenceD q => Sys2Proof.Machine.execFenceD q s
  | .fenceS q => Sys2Proof.Machine.execFenceS q s
  | .fenceT q => Sys2Proof.Machine.execFenceT q s
  | .syscall q => Sys2Proof.Machine.execSyscall q s
  | .brk q => Sys2Proof.Machine.execBrk q s
  | .eret q => Sys2Proof.Machine.execEret q s
  | .csync q => Sys2Proof.Machine.execCsync q s
  | .wait q => Sys2Proof.Machine.execWait q s
  | .halt q => Sys2Proof.Machine.execHalt q s
  | .cinv q sel => Sys2Proof.Machine.execCinv q sel s
  | .cinvL2Complete q => Sys2Proof.Machine.execCinvL2Complete q s
  | .crw q rd cr rs1 => Sys2Proof.Machine.execCrw q rd cr rs1 s
  | .crs q rd cr rs1 => Sys2Proof.Machine.execCrs q rd cr rs1 s
  | .crc q rd cr rs1 => Sys2Proof.Machine.execCrc q rd cr rs1 s
  | .fadd q dbl fd fs1 fs2 rm => Sys2Proof.Machine.execFadd q dbl fd fs1 fs2 rm s
  | .fsub q dbl fd fs1 fs2 rm => Sys2Proof.Machine.execFsub q dbl fd fs1 fs2 rm s
  | .fmul q dbl fd fs1 fs2 rm => Sys2Proof.Machine.execFmul q dbl fd fs1 fs2 rm s
  | .fdiv q dbl fd fs1 fs2 rm => Sys2Proof.Machine.execFdiv q dbl fd fs1 fs2 rm s
  | .fsqrt q dbl fd fs1 rm => Sys2Proof.Machine.execFsqrt q dbl fd fs1 rm s
  | .fmin q dbl fd fs1 fs2 rm => Sys2Proof.Machine.execFmin q dbl fd fs1 fs2 rm s
  | .fmax q dbl fd fs1 fs2 rm => Sys2Proof.Machine.execFmax q dbl fd fs1 fs2 rm s
  | .fsgn q dbl fd fs1 fs2 rm => Sys2Proof.Machine.execFsgn q dbl fd fs1 fs2 rm s
  | .fsgnn q dbl fd fs1 fs2 rm => Sys2Proof.Machine.execFsgnn q dbl fd fs1 fs2 rm s
  | .fsgnx q dbl fd fs1 fs2 rm => Sys2Proof.Machine.execFsgnx q dbl fd fs1 fs2 rm s
  | .feq q dbl rd fs1 fs2 rm => Sys2Proof.Machine.execFeq q dbl rd fs1 fs2 rm s
  | .flt q dbl rd fs1 fs2 rm => Sys2Proof.Machine.execFlt q dbl rd fs1 fs2 rm s
  | .fle q dbl rd fs1 fs2 rm => Sys2Proof.Machine.execFle q dbl rd fs1 fs2 rm s
  | .fclass q dbl rd fs1 rm => Sys2Proof.Machine.execFclass q dbl rd fs1 rm s
  | .fmvG q dbl rd fs1 rm => Sys2Proof.Machine.execFmvG q dbl rd fs1 rm s
  | .fmvF q dbl fd rs1 rm => Sys2Proof.Machine.execFmvF q dbl fd rs1 rm s
  | .fcvt q dst src rd rs1 rm => Sys2Proof.Machine.execFcvt q dst src rd rs1 rm s
  | .fmadd q dbl fd fs1 fs2 fs3 rm => Sys2Proof.Machine.execFmadd q dbl fd fs1 fs2 fs3 rm s
  | .fmsub q dbl fd fs1 fs2 fs3 rm => Sys2Proof.Machine.execFmsub q dbl fd fs1 fs2 fs3 rm s
  | .fnmadd q dbl fd fs1 fs2 fs3 rm => Sys2Proof.Machine.execFnmadd q dbl fd fs1 fs2 fs3 rm s
  | .fnmsub q dbl fd fs1 fs2 fs3 rm => Sys2Proof.Machine.execFnmsub q dbl fd fs1 fs2 fs3 rm s
  | .interruptEntry q => Sys2Proof.Machine.execInterruptEntry q s
  | .timer q => Sys2Proof.Machine.execTimer q s
  | .storeErrorLatch q timeout => Sys2Proof.Machine.execStoreErrorLatch q timeout s
  | .responseTimeout q => Sys2Proof.Machine.execResponseTimeout q s
  | .l1dLineFill q addr => Sys2Proof.Machine.execL1dLineFill q addr s
  | .l2WritebackAck q addr => Sys2Proof.Machine.execL2WritebackAck q addr s
  | .vfadd q m scalar vd vs1 rs2 rm => Sys2Proof.Machine.execVfadd q m scalar vd vs1 rs2 rm s
  | .vfsub q m scalar vd vs1 rs2 rm => Sys2Proof.Machine.execVfsub q m scalar vd vs1 rs2 rm s
  | .vfmul q m scalar vd vs1 rs2 rm => Sys2Proof.Machine.execVfmul q m scalar vd vs1 rs2 rm s
  | .vfdiv q m scalar vd vs1 rs2 rm => Sys2Proof.Machine.execVfdiv q m scalar vd vs1 rs2 rm s
  | .vfsqrt q m vd vs1 rm => Sys2Proof.Machine.execVfsqrt q m vd vs1 rm s
  | .vfmin q m scalar vd vs1 rs2 rm => Sys2Proof.Machine.execVfmin q m scalar vd vs1 rs2 rm s
  | .vfmax q m scalar vd vs1 rs2 rm => Sys2Proof.Machine.execVfmax q m scalar vd vs1 rs2 rm s
  | .vfsgn q m scalar vd vs1 rs2 rm => Sys2Proof.Machine.execVfsgn q m scalar vd vs1 rs2 rm s
  | .vfsgnn q m scalar vd vs1 rs2 rm => Sys2Proof.Machine.execVfsgnn q m scalar vd vs1 rs2 rm s
  | .vfsgnx q m scalar vd vs1 rs2 rm => Sys2Proof.Machine.execVfsgnx q m scalar vd vs1 rs2 rm s
  | .vfmadd q m scalar vd vs1 rs2 rm => Sys2Proof.Machine.execVfmadd q m scalar vd vs1 rs2 rm s
  | .vfmsub q m scalar vd vs1 rs2 rm => Sys2Proof.Machine.execVfmsub q m scalar vd vs1 rs2 rm s
  | .vfnmadd q m scalar vd vs1 rs2 rm => Sys2Proof.Machine.execVfnmadd q m scalar vd vs1 rs2 rm s
  | .vfnmsub q m scalar vd vs1 rs2 rm => Sys2Proof.Machine.execVfnmsub q m scalar vd vs1 rs2 rm s
  | .vfexp2 q m vd vs1 rm => Sys2Proof.Machine.execVfexp2 q m vd vs1 rm s
  | .vadd q m scalar vd vs1 rs2 => Sys2Proof.Machine.execVadd q m scalar vd vs1 rs2 s
  | .vsub q m scalar vd vs1 rs2 => Sys2Proof.Machine.execVsub q m scalar vd vs1 rs2 s
  | .vand q m scalar vd vs1 rs2 => Sys2Proof.Machine.execVand q m scalar vd vs1 rs2 s
  | .vor q m scalar vd vs1 rs2 => Sys2Proof.Machine.execVor q m scalar vd vs1 rs2 s
  | .vxor q m scalar vd vs1 rs2 => Sys2Proof.Machine.execVxor q m scalar vd vs1 rs2 s
  | .vsll q m scalar vd vs1 rs2 => Sys2Proof.Machine.execVsll q m scalar vd vs1 rs2 s
  | .vsrl q m scalar vd vs1 rs2 => Sys2Proof.Machine.execVsrl q m scalar vd vs1 rs2 s
  | .vsra q m scalar vd vs1 rs2 => Sys2Proof.Machine.execVsra q m scalar vd vs1 rs2 s
  | .vmin q m scalar vd vs1 rs2 => Sys2Proof.Machine.execVmin q m scalar vd vs1 rs2 s
  | .vmax q m scalar vd vs1 rs2 => Sys2Proof.Machine.execVmax q m scalar vd vs1 rs2 s
  | .vminu q m scalar vd vs1 rs2 => Sys2Proof.Machine.execVminu q m scalar vd vs1 rs2 s
  | .vmaxu q m scalar vd vs1 rs2 => Sys2Proof.Machine.execVmaxu q m scalar vd vs1 rs2 s
  | .vmul q m scalar vd vs1 rs2 => Sys2Proof.Machine.execVmul q m scalar vd vs1 rs2 s
  | .vmulh q m scalar vd vs1 rs2 => Sys2Proof.Machine.execVmulh q m scalar vd vs1 rs2 s
  | .vmulhu q m scalar vd vs1 rs2 => Sys2Proof.Machine.execVmulhu q m scalar vd vs1 rs2 s
  | .vdiv q m scalar vd vs1 rs2 => Sys2Proof.Machine.execVdiv q m scalar vd vs1 rs2 s
  | .vdivu q m scalar vd vs1 rs2 => Sys2Proof.Machine.execVdivu q m scalar vd vs1 rs2 s
  | .vrem q m scalar vd vs1 rs2 => Sys2Proof.Machine.execVrem q m scalar vd vs1 rs2 s
  | .vremu q m scalar vd vs1 rs2 => Sys2Proof.Machine.execVremu q m scalar vd vs1 rs2 s
  | .vsadd q m scalar vd vs1 rs2 => Sys2Proof.Machine.execVsadd q m scalar vd vs1 rs2 s
  | .vsaddu q m scalar vd vs1 rs2 => Sys2Proof.Machine.execVsaddu q m scalar vd vs1 rs2 s
  | .vssub q m scalar vd vs1 rs2 => Sys2Proof.Machine.execVssub q m scalar vd vs1 rs2 s
  | .vssubu q m scalar vd vs1 rs2 => Sys2Proof.Machine.execVssubu q m scalar vd vs1 rs2 s
  | .vmacc q m scalar vd vs1 rs2 => Sys2Proof.Machine.execVmacc q m scalar vd vs1 rs2 s
  | .vcmp q m scalar cond md vs1 rs2 => Sys2Proof.Machine.execVcmp q m scalar cond md vs1 rs2 s
  | .mand q md ms1 ms2 => Sys2Proof.Machine.execMand q md ms1 ms2 s
  | .mor q md ms1 ms2 => Sys2Proof.Machine.execMor q md ms1 ms2 s
  | .mxor q md ms1 ms2 => Sys2Proof.Machine.execMxor q md ms1 ms2 s
  | .mandn q md ms1 ms2 => Sys2Proof.Machine.execMandn q md ms1 ms2 s
  | .mnot q md ms1 => Sys2Proof.Machine.execMnot q md ms1 s
  | .mmv q md ms1 => Sys2Proof.Machine.execMmv q md ms1 s
  | .mset q md => Sys2Proof.Machine.execMset q md s
  | .mclr q md => Sys2Proof.Machine.execMclr q md s
  | .mpopc q rd ms1 => Sys2Proof.Machine.execMpopc q rd ms1 s
  | .mfirst q rd ms1 => Sys2Proof.Machine.execMfirst q rd ms1 s
  | .mld q mr rs1 => Sys2Proof.Machine.execMld q mr rs1 s
  | .mst q mr rs1 => Sys2Proof.Machine.execMst q mr rs1 s
  | .vcvt q dst src sat rm vd vs1 => Sys2Proof.Machine.execVcvt q dst src sat rm vd vs1 s
  | .vmv q m vd vs1 => Sys2Proof.Machine.execVmv q m vd vs1 s
  | .vmerge q vd vs1 vs2 => Sys2Proof.Machine.execVmerge q vd vs1 vs2 s
  | .vslideup q m vd vs1 rs2 => Sys2Proof.Machine.execVslideup q m vd vs1 rs2 s
  | .vslidedown q m vd vs1 rs2 => Sys2Proof.Machine.execVslidedown q m vd vs1 rs2 s
  | .vslide1upF q m vd vs1 rs2 => Sys2Proof.Machine.execVslide1upF q m vd vs1 rs2 s
  | .vslide1downF q m vd vs1 rs2 => Sys2Proof.Machine.execVslide1downF q m vd vs1 rs2 s
  | .vslide1upG q m vd vs1 rs2 => Sys2Proof.Machine.execVslide1upG q m vd vs1 rs2 s
  | .vslide1downG q m vd vs1 rs2 => Sys2Proof.Machine.execVslide1downG q m vd vs1 rs2 s
  | .vgather q m vd vs1 vs2 => Sys2Proof.Machine.execVgather q m vd vs1 vs2 s
  | .vcompress q vd vs1 => Sys2Proof.Machine.execVcompress q vd vs1 s
  | .vbcastF q m vd rs1 => Sys2Proof.Machine.execVbcastF q m vd rs1 s
  | .vbcastG q m vd rs1 => Sys2Proof.Machine.execVbcastG q m vd rs1 s
  | .vextrG q rd vs1 rs2 => Sys2Proof.Machine.execVextrG q rd vs1 rs2 s
  | .vextrF q fd vs1 rs2 => Sys2Proof.Machine.execVextrF q fd vs1 rs2 s
  | .vinsG q vd rs1 rs2 => Sys2Proof.Machine.execVinsG q vd rs1 rs2 s
  | .vfredsumO q m vd vs1 vs2 rm => Sys2Proof.Machine.execVfredsumO q m vd vs1 vs2 rm s
  | .vfredsumT q m vd vs1 vs2 rm => Sys2Proof.Machine.execVfredsumT q m vd vs1 vs2 rm s
  | .vfredmax q m vd vs1 vs2 rm => Sys2Proof.Machine.execVfredmax q m vd vs1 vs2 rm s
  | .vfredmin q m vd vs1 vs2 rm => Sys2Proof.Machine.execVfredmin q m vd vs1 vs2 rm s
  | .vredsum q m vd vs1 vs2 rm => Sys2Proof.Machine.execVredsum q m vd vs1 vs2 rm s
  | .vredand q m vd vs1 vs2 rm => Sys2Proof.Machine.execVredand q m vd vs1 vs2 rm s
  | .vredor q m vd vs1 vs2 rm => Sys2Proof.Machine.execVredor q m vd vs1 vs2 rm s
  | .vredxor q m vd vs1 vs2 rm => Sys2Proof.Machine.execVredxor q m vd vs1 vs2 rm s
  | .vredmax q m vd vs1 vs2 rm => Sys2Proof.Machine.execVredmax q m vd vs1 vs2 rm s
  | .vredmin q m vd vs1 vs2 rm => Sys2Proof.Machine.execVredmin q m vd vs1 vs2 rm s
  | .vredmaxu q m vd vs1 vs2 rm => Sys2Proof.Machine.execVredmaxu q m vd vs1 vs2 rm s
  | .vredminu q m vd vs1 vs2 rm => Sys2Proof.Machine.execVredminu q m vd vs1 vs2 rm s
  | .vsetvl q rd rs1 imm => Sys2Proof.Machine.execVsetvl q rd rs1 imm s
  | .vld q m mode ff w vd rs1 rs2 => Sys2Proof.Machine.execVld q m mode ff w vd rs1 rs2 s
  | .vst q m mode ff w vd rs1 rs2 => Sys2Proof.Machine.execVst q m mode ff w vd rs1 rs2 s
  | .tcfg q rs1 rs2 => Sys2Proof.Machine.execTcfg q rs1 rs2 s
  | .tdesc q rd tn => Sys2Proof.Machine.execTdesc q rd tn s
  | .trelall q => Sys2Proof.Machine.execTrelall q s
  | .tzero q td => Sys2Proof.Machine.execTzero q td s
  | .tld q td rs1 rs2 => Sys2Proof.Machine.execTld q td rs1 rs2 s
  | .tldP q td rs1 => Sys2Proof.Machine.execTldP q td rs1 s
  | .tst q td rs1 rs2 => Sys2Proof.Machine.execTst q td rs1 rs2 s
  | .tstP q td rs1 => Sys2Proof.Machine.execTstP q td rs1 s
  | .tlds q td rs1 => Sys2Proof.Machine.execTlds q td rs1 s
  | .tsts q td rs1 => Sys2Proof.Machine.execTsts q td rs1 s
  | .mma q ovw fine sat sgna sgnb ta tb co ro acc rm => Sys2Proof.Machine.execMma q ovw fine sat sgna sgnb ta tb co ro acc rm s
  | .accz q acc int32 => Sys2Proof.Machine.execAccz q acc int32 s
  | .plough q dst co ro acc rm => Sys2Proof.Machine.execPlough q dst co ro acc rm s
  | .ploughN q dst co ro acc rm => Sys2Proof.Machine.execPloughN q dst co ro acc rm s
  | .slc q tn vb => Sys2Proof.Machine.execSlc q tn vb s
  | .mmaS q ovw ta tb co ro => Sys2Proof.Machine.execMmaS q ovw ta tb co ro s
  | .ploughS q dst co ro rm => Sys2Proof.Machine.execPloughS q dst co ro rm s
  | .pressAutoGate q => Sys2Proof.Machine.execPressAutoGate q s
  | .ctxCreate q src ctx full => Sys2Proof.Machine.execCtxCreate q src ctx full s
  | .ctxRestore q src ctx full => Sys2Proof.Machine.execCtxRestore q src ctx full s
  | .ctxStopSave q src ctx full => Sys2Proof.Machine.execCtxStopSave q src ctx full s
  | .ctxStopDiscard q src ctx full => Sys2Proof.Machine.execCtxStopDiscard q src ctx full s
  | .ctxPreempt q src ctx full => Sys2Proof.Machine.execCtxPreempt q src ctx full s
  | .ctxCheckpoint q src ctx full => Sys2Proof.Machine.execCtxCheckpoint q src ctx full s
  | .ctxResume q src ctx full => Sys2Proof.Machine.execCtxResume q src ctx full s
  | .graceExpiry q => Sys2Proof.Machine.execGraceExpiry q s
  | .quiesceComplete q => Sys2Proof.Machine.execQuiesceComplete q s
  | .saveCommit q => Sys2Proof.Machine.execSaveCommit q s
  | .restoreComplete q => Sys2Proof.Machine.execRestoreComplete q s
  | .tipIn logical spare => Sys2Proof.Machine.execTipIn logical spare s
  | .tipInCommit logical => Sys2Proof.Machine.execTipInCommit logical s
  | .tipInFailure logical what => Sys2Proof.Machine.execTipInFailure logical what s
  | .qIrqSet q src num => Sys2Proof.Machine.execQIrqSet q src num s
  | .qEnd q src writer code => Sys2Proof.Machine.execQEnd q src writer code s
  | .qCacheCtl q src v => Sys2Proof.Machine.execQCacheCtl q src v s
  | .cacheCfgComplete q => Sys2Proof.Machine.execCacheCfgComplete q s
  | .refreshInterval ch postponed => Sys2Proof.Machine.execRefreshInterval ch postponed s
  | .refreshCatchUp ch => Sys2Proof.Machine.execRefreshCatchUp ch s
  | .refreshRateChange ch temp => Sys2Proof.Machine.execRefreshRateChange ch temp s
  | .scrubRowStep ch ces ues => Sys2Proof.Machine.execScrubRowStep ch ces ues s
  | .repairRowStep ch => Sys2Proof.Machine.execRepairRowStep ch s
  | .rowSpared ch => Sys2Proof.Machine.execRowSpared ch s
  | .calibration type inst forced ns => Sys2Proof.Machine.execCalibration type inst forced ns s
  | .targetedRowRefresh type inst => Sys2Proof.Machine.execTargetedRowRefresh type inst s
  | .telemetryShadowCopy => Sys2Proof.Machine.execTelemetryShadowCopy s
  | .xlatInvAll => Sys2Proof.Machine.execXlatInvAll s
  | .xlatInvCtx ctx => Sys2Proof.Machine.execXlatInvCtx ctx s
  | .xlatInvSeg ctx seg => Sys2Proof.Machine.execXlatInvSeg ctx seg s
  | .xlatInvPage ctx seg vpn => Sys2Proof.Machine.execXlatInvPage ctx seg vpn s
  | .xlatInvCtxtbl ctx => Sys2Proof.Machine.execXlatInvCtxtbl ctx s
  | .xlatInvComplete => Sys2Proof.Machine.execXlatInvComplete s
  | .xfqRecordWrite => Sys2Proof.Machine.execXfqRecordWrite s
  | .xfqRetry ctx id => Sys2Proof.Machine.execXfqRetry ctx id s
  | .xfqFail ctx id => Sys2Proof.Machine.execXfqFail ctx id s
  | .sfScreate f src q v => Sys2Proof.Machine.execSfScreate f src q v s
  | .cancel f src q ctx id => Sys2Proof.Machine.execCancel f src q ctx id s
  | .doorbell f src q ctx id => Sys2Proof.Machine.execDoorbell f src q ctx id s
  | .streamDispatch f => Sys2Proof.Machine.execStreamDispatch f s
  | .moverOperationComplete id fail => Sys2Proof.Machine.execMoverOperationComplete id fail s
  | .streamCompletion id => Sys2Proof.Machine.execStreamCompletion id s
  | .sld e b m => Sys2Proof.Machine.execSld e b m s
  | .sst e b m => Sys2Proof.Machine.execSst e b m s
  | .mvgo e b m => Sys2Proof.Machine.execMvgo e b m s
  | .mvgoResume e b => Sys2Proof.Machine.execMvgoResume e b s
  | .mvset e b m => Sys2Proof.Machine.execMvset e b m s
  | .mvpend e b m => Sys2Proof.Machine.execMvpend e b m s
  | .crret e b m => Sys2Proof.Machine.execCrret e b m s
  | .sdone e b m => Sys2Proof.Machine.execSdone e b m s
  | .signal e b m => Sys2Proof.Machine.execSignal e b m s
  | .bkill e b m => Sys2Proof.Machine.execBkill e b m s
  | .pushi8 e b m => Sys2Proof.Machine.execPushi8 e b m s
  | .pushi16 e b m w => Sys2Proof.Machine.execPushi16 e b m w s
  | .pushi32 e b m w => Sys2Proof.Machine.execPushi32 e b m w s
  | .pick e b m => Sys2Proof.Machine.execPick e b m s
  | .drop e b m => Sys2Proof.Machine.execDrop e b m s
  | .sSwap e b m => Sys2Proof.Machine.execSSwap e b m s
  | .roll e b m => Sys2Proof.Machine.execRoll e b m s
  | .depth e b m => Sys2Proof.Machine.execDepth e b m s
  | .sAdd e b m => Sys2Proof.Machine.execSAdd e b m s
  | .adc e b m => Sys2Proof.Machine.execAdc e b m s
  | .sSub e b m => Sys2Proof.Machine.execSSub e b m s
  | .sbc e b m => Sys2Proof.Machine.execSbc e b m s
  | .sAnd e b m => Sys2Proof.Machine.execSAnd e b m s
  | .sOr e b m => Sys2Proof.Machine.execSOr e b m s
  | .sXor e b m => Sys2Proof.Machine.execSXor e b m s
  | .sAndn e b m => Sys2Proof.Machine.execSAndn e b m s
  | .cmp e b m => Sys2Proof.Machine.execCmp e b m s
  | .sTst e b m => Sys2Proof.Machine.execSTst e b m s
  | .sAddi e b m => Sys2Proof.Machine.execSAddi e b m s
  | .neg e b m => Sys2Proof.Machine.execNeg e b m s
  | .not e b m => Sys2Proof.Machine.execNot e b m s
  | .shl e b m => Sys2Proof.Machine.execShl e b m s
  | .shr e b m => Sys2Proof.Machine.execShr e b m s
  | .sar e b m => Sys2Proof.Machine.execSar e b m s
  | .sRor e b m => Sys2Proof.Machine.execSRor e b m s
  | .sMul e b m => Sys2Proof.Machine.execSMul e b m s
  | .mulProductLand e b => Sys2Proof.Machine.execMulProductLand e b s
  | .sDiv e b m => Sys2Proof.Machine.execSDiv e b m s
  | .sRem e b m => Sys2Proof.Machine.execSRem e b m s
  | .br e b m => Sys2Proof.Machine.execBr e b m s
  | .brl e b m w => Sys2Proof.Machine.execBrl e b m w s
  | .call e b m w => Sys2Proof.Machine.execCall e b m w s
  | .calli e b m => Sys2Proof.Machine.execCalli e b m s
  | .ret e b m => Sys2Proof.Machine.execRet e b m s
  | .jmpi e b m => Sys2Proof.Machine.execJmpi e b m s
  | .reti e b m => Sys2Proof.Machine.execReti e b m s
  | .bcc e b c m => Sys2Proof.Machine.execBcc e b c m s
  | .sLd e b m => Sys2Proof.Machine.execSLd e b m s
  | .sSt e b m => Sys2Proof.Machine.execSSt e b m s
  | .ldl e b m => Sys2Proof.Machine.execLdl e b m s
  | .stl e b m => Sys2Proof.Machine.execStl e b m s
  | .rdsr e b m => Sys2Proof.Machine.execRdsr e b m s
  | .wrsr e b m => Sys2Proof.Machine.execWrsr e b m s
  | .sNop e b m => Sys2Proof.Machine.execSNop e b m s
  | .sync e b m => Sys2Proof.Machine.execSync e b m s
  | .sWait e b m => Sys2Proof.Machine.execSWait e b m s
  | .swi e b m => Sys2Proof.Machine.execSwi e b m s
  | .dcinv e b m => Sys2Proof.Machine.execDcinv e b m s
  | .fadds e b m => Sys2Proof.Machine.execFadds e b m s
  | .fsubs e b m => Sys2Proof.Machine.execFsubs e b m s
  | .fmulr e b m => Sys2Proof.Machine.execFmulr e b m s
  | .accld e b m => Sys2Proof.Machine.execAccld e b m s
  | .accadd e b m => Sys2Proof.Machine.execAccadd e b m s
  | .mac e b m => Sys2Proof.Machine.execMac e b m s
  | .msu e b m => Sys2Proof.Machine.execMsu e b m s
  | .accst e b m => Sys2Proof.Machine.execAccst e b m s
  | .accshr e b m => Sys2Proof.Machine.execAccshr e b m s
  | .accclr e b m => Sys2Proof.Machine.execAccclr e b m s
  | .accget e b m => Sys2Proof.Machine.execAccget e b m s
  | .accput e b m => Sys2Proof.Machine.execAccput e b m s
  | .sCrc e b m => Sys2Proof.Machine.execSCrc e b m s
  | .par e b m => Sys2Proof.Machine.execPar e b m s
  | .sBrev e b m => Sys2Proof.Machine.execSBrev e b m s
  | .sPopc e b m => Sys2Proof.Machine.execSPopc e b m s
  | .sClz e b m => Sys2Proof.Machine.execSClz e b m s
  | .sBswap e b m => Sys2Proof.Machine.execSBswap e b m s
  | .dadd e b m => Sys2Proof.Machine.execDadd e b m s
  | .dsub e b m => Sys2Proof.Machine.execDsub e b m s
  | .dadj e b m => Sys2Proof.Machine.execDadj e b m s
  | .customOpcode e b n m x => Sys2Proof.Machine.execCustomOpcode e b n m x s
  | .event e b => Sys2Proof.Machine.execEvent e b s
  | .streamFault e b => Sys2Proof.Machine.execStreamFault e b s
  | .fastInterrupt e => Sys2Proof.Machine.execFastInterrupt e s
  | .bankTimerExpiry e b => Sys2Proof.Machine.execBankTimerExpiry e b s
  | .patchStart f src countm1 => Sys2Proof.Machine.execPatchStart f src countm1 s
  | .patchApply f => Sys2Proof.Machine.execPatchApply f s
  | .hostRead tag addr wide => Sys2Proof.Machine.execHostRead tag addr wide s
  | .hostReadTimeout tag => Sys2Proof.Machine.execHostReadTimeout tag s
  | .registerWrite src who addr wide v => Sys2Proof.Machine.execRegisterWrite src who addr wide v s
  | .hostResponse tag err poison data => Sys2Proof.Machine.execHostResponse tag err poison data s
  | .hstDbSqtail src n v => Sys2Proof.Machine.execHstDbSqtail src n v s
  | .hstDbCqhead src n v => Sys2Proof.Machine.execHstDbCqhead src n v s
  | .hstDbQirq src n v => Sys2Proof.Machine.execHstDbQirq src n v s
  | .submissionFetch n fail => Sys2Proof.Machine.execSubmissionFetch n fail s
  | .commandStart => Sys2Proof.Machine.execCommandStart s
  | .nop n => Sys2Proof.Machine.execNop n s
  | .launch n => Sys2Proof.Machine.execLaunch n s
  | .stream n => Sys2Proof.Machine.execStream n s
  | .sctl n => Sys2Proof.Machine.execSctl n s
  | .bind => Sys2Proof.Machine.execBind s
  | .releaseSave => Sys2Proof.Machine.execReleaseSave s
  | .releaseDiscard => Sys2Proof.Machine.execReleaseDiscard s
  | .restore => Sys2Proof.Machine.execRestore s
  | .query => Sys2Proof.Machine.execQuery s
  | .kill => Sys2Proof.Machine.execKill s
  | .enable src n => Sys2Proof.Machine.execEnable src n s
  | .disable src n => Sys2Proof.Machine.execDisable src n s
  | .reset src n => Sys2Proof.Machine.execReset src n s
  | .refresh src n => Sys2Proof.Machine.execRefresh src n s
  | .refreshMsi src n => Sys2Proof.Machine.execRefreshMsi src n s
  | .laneSignalDetect p => Sys2Proof.Machine.execLaneSignalDetect p s
  | .laneLock p lane => Sys2Proof.Machine.execLaneLock p lane s
  | .laneTrainingTimeout p lane => Sys2Proof.Machine.execLaneTrainingTimeout p lane s
  | .alignComplete p => Sys2Proof.Machine.execAlignComplete p s
  | .portRelease src => Sys2Proof.Machine.execPortRelease src s
  | .backoffExpiry p => Sys2Proof.Machine.execBackoffExpiry p s
  | .capReq p m => Sys2Proof.Machine.execCapReq p m s
  | .capRsp p m => Sys2Proof.Machine.execCapRsp p m s
  | .bootNak p => Sys2Proof.Machine.execBootNak p s
  | .dataFlit p raw unc => Sys2Proof.Machine.execDataFlit p raw unc s
  | .nullFlit p raw unc => Sys2Proof.Machine.execNullFlit p raw unc s
  | .retryReq p raw unc => Sys2Proof.Machine.execRetryReq p raw unc s
  | .retryTimeout p => Sys2Proof.Machine.execRetryTimeout p s
  | .retrain p failed => Sys2Proof.Machine.execRetrain p failed s
  | .retrainTimeout p => Sys2Proof.Machine.execRetrainTimeout p s
  | .lossOfSignal p => Sys2Proof.Machine.execLossOfSignal p s
  | .lnkHoldExpiry p => Sys2Proof.Machine.execLnkHoldExpiry p s
  | .rd port => Sys2Proof.Machine.execRd port s
  | .wr port => Sys2Proof.Machine.execWr port s
  | .wrbe port => Sys2Proof.Machine.execWrbe port s
  | .atom port => Sys2Proof.Machine.execAtom port s
  | .sdata port => Sys2Proof.Machine.execSdata port s
  | .scred port => Sys2Proof.Machine.execScred port s
  | .coll port => Sys2Proof.Machine.execColl port s
  | .snak port => Sys2Proof.Machine.execSnak port s
  | .rsp port => Sys2Proof.Machine.execRsp port s
  | .mgmt port => Sys2Proof.Machine.execMgmt port s
  | .streamRequestTimeout tag => Sys2Proof.Machine.execStreamRequestTimeout tag s
  | .flip src v => Sys2Proof.Machine.execFlip src v s
  | .orderedHoldRelease => Sys2Proof.Machine.execOrderedHoldRelease s
  | .lnkCtl p src v => Sys2Proof.Machine.execLnkCtl p src v s
  | .cxlLinkUp x up => Sys2Proof.Machine.execCxlLinkUp x up s
  | .tierEnable t src v => Sys2Proof.Machine.execTierEnable t src v s
  | .tierDisable t src v => Sys2Proof.Machine.execTierDisable t src v s
  | .roleChange src v => Sys2Proof.Machine.execRoleChange src v s
  | .test src type inst => Sys2Proof.Machine.execTest src type inst s
  | .testComplete pass => Sys2Proof.Machine.execTestComplete pass s
  | .admitUnit src type inst => Sys2Proof.Machine.execAdmitUnit src type inst s
  | .retire src type inst => Sys2Proof.Machine.execRetire src type inst s
  | .unitFailed type inst mover => Sys2Proof.Machine.execUnitFailed type inst mover s
  | .journalAckTimeout => Sys2Proof.Machine.execJournalAckTimeout s
  | .standbySynced => Sys2Proof.Machine.execStandbySynced s
  | .hbFailover => Sys2Proof.Machine.execHbFailover s
  | .spineHang => Sys2Proof.Machine.execSpineHang s
  | .mresetArm src => Sys2Proof.Machine.execMresetArm src s
  | .managementReset src env => Sys2Proof.Machine.execManagementReset src env s
  | .mresetArmExpiry => Sys2Proof.Machine.execMresetArmExpiry s
  | .clkPp src v => Sys2Proof.Machine.execClkPp src v s
  | .voltageSettle => Sys2Proof.Machine.execVoltageSettle s
  | .voltageTimeout => Sys2Proof.Machine.execVoltageTimeout s
  | .governorLoop power => Sys2Proof.Machine.execGovernorLoop power s
  | .droopAssert => Sys2Proof.Machine.execDroopAssert s
  | .droopRelease => Sys2Proof.Machine.execDroopRelease s
  | .thermalSample temp => Sys2Proof.Machine.execThermalSample temp s
  | .domainRequest d src v => Sys2Proof.Machine.execDomainRequest d src v s
  | .domainTransitionComplete d => Sys2Proof.Machine.execDomainTransitionComplete d s
  | .active src => Sys2Proof.Machine.execActive src s
  | .idle src => Sys2Proof.Machine.execIdle src s
  | .sleep src => Sys2Proof.Machine.execSleep src s
  | .wake cause p => Sys2Proof.Machine.execWake cause p s
  | .railFailure rail env => Sys2Proof.Machine.execRailFailure rail env s
  | .coldReset cause straps env => Sys2Proof.Machine.execColdReset cause straps env s
  | .blockReset env => Sys2Proof.Machine.execBlockReset env s
  | .factoryRestore src => Sys2Proof.Machine.execFactoryRestore src s
  | .factoryRestoreCommit ok => Sys2Proof.Machine.execFactoryRestoreCommit ok s
  | .mark src v => Sys2Proof.Machine.execMark src v s
  | .freeze src v => Sys2Proof.Machine.execFreeze src v s
  | .ringEvent u => Sys2Proof.Machine.execRingEvent u s
  | .counterWrite src n v => Sys2Proof.Machine.execCounterWrite src n v s
  | .debugAccess we addr wdata => Sys2Proof.Machine.execDebugAccess we addr wdata s
  | .wsBypass env => Sys2Proof.Machine.execWsBypass env s
  | .wsIjtag env => Sys2Proof.Machine.execWsIjtag env s
  | .wsPreload env => Sys2Proof.Machine.execWsPreload env s
  | .wsExtest env => Sys2Proof.Machine.execWsExtest env s
  | .wsIntest env => Sys2Proof.Machine.execWsIntest env s
  | .wsClamp env => Sys2Proof.Machine.execWsClamp env s
  | .wsSafe env => Sys2Proof.Machine.execWsSafe env s
  | .illegalInstruction q => Sys2Proof.Machine.execIllegalInstruction q s
  | .illegal e b w => Sys2Proof.Machine.execIllegal e b w s
  | .scrubLate ch => Sys2Proof.Machine.execScrubLate ch s
  | .dataCacheFill e b => Sys2Proof.Machine.execDataCacheFill e b s
  | .tagHoldExpiry tag => Sys2Proof.Machine.execTagHoldExpiry tag s
  | .headbandReboot h => Sys2Proof.Machine.execHeadbandReboot h s

end Sys2Proof.Machine
end

