-- ==== Sys2Proof/Machine/Step.lean ====
section
/-!
DEFINITION. One step of the block: the command at the front of the queue, or a nanosecond of idling.
-/
namespace Sys2Proof.Machine

/-- The command at the front of the queue acts on the state with the rest of the queue. On an empty queue the block
idles: a nanosecond of GTIME passes (R496; log entry 18), and the host requests that waited come up once no write is held
(R376); an error in an array may arise too (R466; log entry 189). -/
def step (s : State) : Host.Outcome State Fault Refusal :=
  match s.pending with
  | [] => .next s.idle
  | c :: r => exec c { s with pending := r }

/-- A state with the command that a table word spells at the front of its queue. -/
def State.withFetchWord (s : State) (nbits w : Nat) : State :=
  match decodeTableWord nbits w with
  | some c => { s with pending := c :: s.pending }
  | none => s

end Sys2Proof.Machine
end

