-- ==== Sys2Proof/Safety.lean ====
section
/-!
DEFINITION. What the statements about the block are said with.
-/
namespace Sys2Proof.Machine

/-- Memory in its canonical form: addresses rise, and no listed byte is what an unlisted one reads as. -/
abbrev Canon (m : List Host.Cell) : Prop := memOk m = true

/-- A Tehus instruction of `len` bytes runs on the quire: the quire can issue, replays nothing, owes no interrupt at
this boundary (R236), and the fetch is not held, succeeds and leaves `t`. -/
def State.Ready (s : State) (q : QuireId) (len : Nat) (t : State) : Prop :=
  s.canIssue q = true ∧ (s.q q).pendingList = [] ∧ (s.dueIrq q).1 = none ∧
    (s.dueIrq q).2.fetchHeld q len = false ∧ ((s.dueIrq q).2.issue q).fetchFault q len true = (none, t)

/-- As `Ready` for the first word of an instruction, of `len` bytes if it is legal: the fetch of that word succeeds and
leaves `t` (R67). -/
def State.ReadyFirst (s : State) (q : QuireId) (len : Nat) (t : State) : Prop :=
  s.canIssue q = true ∧ (s.q q).pendingList = [] ∧ (s.dueIrq q).1 = none ∧ (s.dueIrq q).2.fetchHeld q len = false ∧
    ((s.dueIrq q).2.issue q).fetchWord q (((s.dueIrq q).2.issue q).q q).pc64 = (none, t)

/-- What retirement does to a quire (R79): INSTRET counts and the PC moves. -/
def Quire.retired (c : Quire) (next : W64) : Quire :=
  { c.crSet 0x006 (c.crGet 0x006 + 1) with pc := next.setWidth 56, events := [] }

/-- Nothing is owed at the boundary after an instruction: no SINGLE_STEP (R79), and a next address of 56 bits (R89). -/
abbrev Quire.plain (c : Quire) (next : W64) : Prop :=
  (c.pl = 0 → c.singleStep = false) ∧ next.toNat < 2 ^ 56

/-- The state that an instruction leaves when it retires with its quire as `c` and goes on at `next`: `t` but for that
quire, and for its counters, which count the instruction's events and its retirement (R538). -/
def State.retiredAs (t : State) (q : QuireId) (c : Quire) (next : W64) : State :=
  let es : List (W16 × Nat) := c.events ++ [(0x0101, 1)]
  es.foldl (fun s e => s.countEvent (unitCode 1 q.val) e.1 e.2) (t.setQ q (c.retired next))

/-- Where `p` holds of its quire, an instruction of `len` bytes that is ready to run changes the quire by `f`, retires,
and goes on at `next`. -/
def RetiresWhen (p : Quire → Prop) (i : Instr) (q : QuireId) (len : Nat) (f : Quire → Quire) (next : Quire → W64) :
    Prop :=
  ∀ s t, s.Ready q len t → p (t.q q) → (f (t.q q)).plain (next (t.q q)) →
    exec i s = .next (t.retiredAs q (f (t.q q)) (next (t.q q)))

/-- An instruction of `len` bytes that is ready to run changes its quire by `f`, retires, and goes on at `next`. -/
abbrev Retires (i : Instr) (q : QuireId) (len : Nat) (f : Quire → Quire) (next : Quire → W64) : Prop :=
  RetiresWhen (fun _ => True) i q len f next

/-- Where `p` holds of its quire, an instruction of `len` bytes that is ready to run takes exception `e` at itself, its
registers as they were. -/
def TrapsWhen (p : Quire → Prop) (i : Instr) (q : QuireId) (len : Nat) (e : Exc) : Prop :=
  ∀ s t, s.Ready q len t → p (t.q q) → exec i s = .next ((t.flushEvents q).raise q e)

/-- The address after an instruction of `len` bytes. -/
def Quire.past (len : Nat) (c : Quire) : W64 := c.pc64 + BitVec.ofNat 64 len

end Sys2Proof.Machine
end

