-- ==== Sys2Proof/Certificates/Slice0/Obligations.lean ====
section
/-!
DEFINITION. The statements about the block.
-/
open Sys2Proof Sys2Proof.Machine

/-! ## Number formats (02) -/

/-- R26, R27: the values of the FP8-V and FP8-G codes; `.fin s m k` is (−1)^s × m × 2^k. -/
def Obligations.EightBitFormats : Prop :=
  ∀ (strict s : Bool) (e f : Nat),
    let small : FVal := if f = 0 ∧ s = true then .nan false false 0 else .fin false 0 0
    (e < 16 → f < 8 → fp8v.read strict ((if s then 128 else 0) + 8 * e + f) =
      if e = 0 then small else .fin s (8 + f) ((e : Int) - 7 - 3)) ∧
    (e < 32 → f < 4 → fp8g.read strict ((if s then 128 else 0) + 4 * e + f) =
      if e = 0 then small else .fin s (4 + f) ((e : Int) - 15 - 2))

/-! ## Integer instructions (03) -/

/-- An instruction on two general registers writes `op a b` to rd and goes on behind itself. -/
abbrev Sys2Proof.WritesRR (i : Instr) (q : QuireId) (rd rs1 rs2 : GReg) (op : W64 → W64 → W64) : Prop :=
  Retires i q 4 (fun c => c.gw rd (op (c.gr rs1) (c.gr rs2))) (Quire.past 4)

/-- An instruction on one general register writes `op a` to rd. -/
abbrev Sys2Proof.WritesR (i : Instr) (q : QuireId) (rd rs1 : GReg) (op : W64 → W64) : Prop :=
  Retires i q 4 (fun c => c.gw rd (op (c.gr rs1))) (Quire.past 4)

/-- An instruction on a general register and an immediate writes `op a imm` to rd. -/
abbrev Sys2Proof.WritesRI (i : Instr) (q : QuireId) (rd rs1 : GReg) (imm : Imm) (op : W64 → W64 → W64) : Prop :=
  Retires i q (immLen imm) (fun c => c.gw rd (op (c.gr rs1) (immVal imm))) (Quire.past (immLen imm))

/-- An instruction on the low words of two registers writes the sign-extended result. -/
abbrev Sys2Proof.WritesW (i : Instr) (q : QuireId) (rd rs1 rs2 : GReg) (op : W32 → W32 → W32) : Prop :=
  WritesRR i q rd rs1 rs2 (fun a b => (op (a.setWidth 32) (b.setWidth 32)).signExtend 64)

/-- R58: g0 reads as zero and ignores writes, and every other register holds what was written last. -/
def Obligations.GeneralRegisterZero : Prop :=
  ∀ (c : Quire) (r n : GReg) (x : W64),
    c.gr 0 = 0 ∧ c.gw 0 x = c ∧ (n ≠ 0 → (c.gw n x).gr n = x) ∧ (r ≠ n → (c.gw n x).gr r = c.gr r)

/-- R81, the functions of the OP major that cannot overflow and take two operands. Each changes nothing but rd, the PC,
INSTRET and its quire's counters. -/
def Sys2Proof.IntegerOperations : Prop :=
  ∀ (q : QuireId) (rd rs1 rs2 : GReg),
    WritesRR (.add q rd rs1 rs2) q rd rs1 rs2 (fun a b => a + b) ∧
    WritesRR (.sub q rd rs1 rs2) q rd rs1 rs2 (fun a b => a - b) ∧
    WritesRR (.and q rd rs1 rs2) q rd rs1 rs2 (fun a b => a &&& b) ∧
    WritesRR (.or q rd rs1 rs2) q rd rs1 rs2 (fun a b => a ||| b) ∧
    WritesRR (.xor q rd rs1 rs2) q rd rs1 rs2 (fun a b => a ^^^ b) ∧
    WritesRR (.andn q rd rs1 rs2) q rd rs1 rs2 (fun a b => a &&& ~~~b) ∧
    WritesRR (.sll q rd rs1 rs2) q rd rs1 rs2 (fun a b => a <<< (b.toNat % 64)) ∧
    WritesRR (.srl q rd rs1 rs2) q rd rs1 rs2 (fun a b => a >>> (b.toNat % 64)) ∧
    WritesRR (.sra q rd rs1 rs2) q rd rs1 rs2 (fun a b => BitVec.ofInt 64 (a.toInt / 2 ^ (b.toNat % 64))) ∧
    WritesRR (.ror q rd rs1 rs2) q rd rs1 rs2 (fun a b => a.rotateRight (b.toNat % 64)) ∧
    WritesRR (.slt q rd rs1 rs2) q rd rs1 rs2 (fun a b => if a.toInt < b.toInt then 1 else 0) ∧
    WritesRR (.sltu q rd rs1 rs2) q rd rs1 rs2 (fun a b => if a.toNat < b.toNat then 1 else 0) ∧
    WritesRR (.min q rd rs1 rs2) q rd rs1 rs2 (fun a b => BitVec.ofInt 64 (min a.toInt b.toInt)) ∧
    WritesRR (.max q rd rs1 rs2) q rd rs1 rs2 (fun a b => BitVec.ofInt 64 (max a.toInt b.toInt)) ∧
    WritesRR (.minu q rd rs1 rs2) q rd rs1 rs2 (fun a b => BitVec.ofNat 64 (min a.toNat b.toNat)) ∧
    WritesRR (.maxu q rd rs1 rs2) q rd rs1 rs2 (fun a b => BitVec.ofNat 64 (max a.toNat b.toNat)) ∧
    WritesW (.addw q rd rs1 rs2) q rd rs1 rs2 (fun a b => a + b) ∧
    WritesW (.subw q rd rs1 rs2) q rd rs1 rs2 (fun a b => a - b) ∧
    WritesW (.sllw q rd rs1 rs2) q rd rs1 rs2 (fun a b => a <<< (b.toNat % 32)) ∧
    WritesW (.srlw q rd rs1 rs2) q rd rs1 rs2 (fun a b => a >>> (b.toNat % 32)) ∧
    WritesW (.sraw q rd rs1 rs2) q rd rs1 rs2 (fun a b => BitVec.ofInt 32 (a.toInt / 2 ^ (b.toNat % 32)))

/-- R81, the functions of one operand: bit counts, and the orders of bits and bytes. -/
def Sys2Proof.BitCountsAndOrders : Prop :=
  ∀ (q : QuireId) (rd rs1 : GReg),
    WritesR (.clz q rd rs1) q rd rs1 (fun a => BitVec.ofNat 64 (((List.range 64).find? (fun i => a.getMsbD i)).getD 64)) ∧
    WritesR (.ctz q rd rs1) q rd rs1 (fun a => BitVec.ofNat 64 (((List.range 64).find? (fun i => a.getLsbD i)).getD 64)) ∧
    WritesR (.popc q rd rs1) q rd rs1 (fun a => BitVec.ofNat 64 ((List.range 64).filter (fun i => a.getLsbD i)).length) ∧
    (∃ f, WritesR (.brev q rd rs1) q rd rs1 f ∧ ∀ a n, n < 64 → (f a).getLsbD (63 - n) = a.getLsbD n) ∧
    (∃ f, WritesR (.bswap q rd rs1) q rd rs1 f ∧
      ∀ a n, n < 8 → (f a).extractLsb' (8 * (7 - n)) 8 = a.extractLsb' (8 * n) 8)

/-- R83: the immediate majors, with the immediate of the short or the long form. -/
def Sys2Proof.IntegerImmediates : Prop :=
  ∀ (q : QuireId) (rd rs1 : GReg) (imm : Imm) (sh : BitVec 6) (hi : BitVec 32),
    WritesRI (.addi q rd rs1 imm) q rd rs1 imm (fun a b => a + b) ∧
    WritesRI (.andi q rd rs1 imm) q rd rs1 imm (fun a b => a &&& b) ∧
    WritesRI (.ori q rd rs1 imm) q rd rs1 imm (fun a b => a ||| b) ∧
    WritesRI (.xori q rd rs1 imm) q rd rs1 imm (fun a b => a ^^^ b) ∧
    WritesRI (.slti q rd rs1 imm) q rd rs1 imm (fun a b => if a.toInt < b.toInt then 1 else 0) ∧
    WritesRI (.sltiu q rd rs1 imm) q rd rs1 imm (fun a b => if a.toNat < b.toNat then 1 else 0) ∧
    WritesRI (.li q rd imm) q rd 0 imm (fun _ b => b) ∧
    Retires (.lih q rd hi) q 8 (fun c => c.gw rd (hi ++ (c.gr rd).setWidth 32)) (Quire.past 8) ∧
    WritesR (.slli q rd rs1 sh) q rd rs1 (fun a => a <<< sh.toNat) ∧
    WritesR (.srli q rd rs1 sh) q rd rs1 (fun a => a >>> sh.toNat) ∧
    WritesR (.srai q rd rs1 sh) q rd rs1 (fun a => BitVec.ofInt 64 (a.toInt / 2 ^ sh.toNat)) ∧
    WritesR (.rori q rd rs1 sh) q rd rs1 (fun a => a.rotateRight sh.toNat)

/-- R81, R83: the integer operations, bit counts and immediates. -/
def Obligations.IntegerArithmetic : Prop := IntegerOperations ∧ BitCountsAndOrders ∧ IntegerImmediates

/-- R84: products. -/
def Sys2Proof.Products : Prop :=
  ∀ (q : QuireId) (rd rs1 rs2 : GReg),
    WritesRR (.mul q rd rs1 rs2) q rd rs1 rs2 (fun a b => BitVec.ofNat 64 (a.toNat * b.toNat)) ∧
    WritesRR (.mulh q rd rs1 rs2) q rd rs1 rs2 (fun a b => BitVec.ofInt 64 (a.toInt * b.toInt / 2 ^ 64)) ∧
    WritesRR (.mulhu q rd rs1 rs2) q rd rs1 rs2 (fun a b => BitVec.ofNat 64 (a.toNat * b.toNat / 2 ^ 64)) ∧
    WritesRR (.mulhsu q rd rs1 rs2) q rd rs1 rs2 (fun a b => BitVec.ofInt 64 (a.toInt * (b.toNat : Int) / 2 ^ 64)) ∧
    WritesW (.mulw q rd rs1 rs2) q rd rs1 rs2 (fun a b => BitVec.ofNat 32 (a.toNat * b.toNat))

/-- A signed number of w bits. -/
abbrev Sys2Proof.FitsSigned (w : Nat) (x : Int) : Prop := -(2 : Int) ^ (w - 1) ≤ x ∧ x ≤ (2 : Int) ^ (w - 1) - 1

/-- R82 for one instruction: within the range the result is delivered; outside it the trap enable raises
INTEGER_OVERFLOW and changes nothing, and without it IOV is set and the wrapped result delivered. -/
def Sys2Proof.Checked (i : Instr) (q : QuireId) (rd : GReg) (w : Nat) (exact : Quire → Int) : Prop :=
  RetiresWhen (fun c => FitsSigned w (exact c)) i q 4
    (fun c => c.gw rd ((BitVec.ofInt w (exact c)).signExtend 64)) (Quire.past 4) ∧
  RetiresWhen (fun c => ¬ FitsSigned w (exact c) ∧ (c.crGet 0x024).getLsbD 1 = false) i q 4
    (fun c => (c.crSet 0x021 (c.crGet 0x021 ||| fIOV.setWidth 64)).gw rd ((BitVec.ofInt w (exact c)).signExtend 64))
    (Quire.past 4) ∧
  TrapsWhen (fun c => ¬ FitsSigned w (exact c) ∧ (c.crGet 0x024).getLsbD 1 = true) i q 4 excOverflow

/-- R82: the checked instructions, MULO of R84 among them. -/
def Sys2Proof.CheckedArithmetic : Prop :=
  ∀ (q : QuireId) (rd rs1 rs2 : GReg),
    Checked (.addo q rd rs1 rs2) q rd 64 (fun c => (c.gr rs1).toInt + (c.gr rs2).toInt) ∧
    Checked (.subo q rd rs1 rs2) q rd 64 (fun c => (c.gr rs1).toInt - (c.gr rs2).toInt) ∧
    Checked (.nego q rd rs1) q rd 64 (fun c => 0 - (c.gr rs1).toInt) ∧
    Checked (.addwo q rd rs1 rs2) q rd 32
      (fun c => ((c.gr rs1).setWidth 32).toInt + ((c.gr rs2).setWidth 32).toInt) ∧
    Checked (.mulo q rd rs1 rs2) q rd 64 (fun c => (c.gr rs1).toInt * (c.gr rs2).toInt)

/-- R84 for one signed or unsigned division on w bits (R35): the quotient rounds toward zero; by zero the trap enable
raises, otherwise the quotient is all ones and the remainder the dividend, with IDZ; the most negative value by −1 gives
the dividend with IOV, or raises under its enable, and remainder 0 without a flag. -/
def Sys2Proof.Divides (i : Instr) (q : QuireId) (rd rs1 rs2 : GReg) (w : Nat) (signed quot : Bool) : Prop :=
  let a (c : Quire) : BitVec w := (c.gr rs1).setWidth w
  let b (c : Quire) : BitVec w := (c.gr rs2).setWidth w
  let ovf (c : Quire) : Prop := signed = true ∧ a c = BitVec.intMin w ∧ b c = BitVec.allOnes w
  let put (c : Quire) (x : BitVec w) : Quire := c.gw rd (x.signExtend 64)
  let flag (c : Quire) (fl : Flags) : Quire := c.crSet 0x021 (c.crGet 0x021 ||| fl.setWidth 64)
  RetiresWhen (fun c => b c ≠ 0 ∧ ¬ ovf c) i q 4 (fun c => put c
    (match signed, quot with
     | true, true => BitVec.ofInt w ((a c).toInt.tdiv (b c).toInt)
     | true, false => BitVec.ofInt w ((a c).toInt.tmod (b c).toInt)
     | false, true => BitVec.ofNat w ((a c).toNat / (b c).toNat)
     | false, false => BitVec.ofNat w ((a c).toNat % (b c).toNat))) (Quire.past 4) ∧
  RetiresWhen (fun c => b c = 0 ∧ (c.crGet 0x024).getLsbD 0 = false) i q 4
    (fun c => put (flag c fIDZ) (if quot then BitVec.allOnes w else a c)) (Quire.past 4) ∧
  TrapsWhen (fun c => b c = 0 ∧ (c.crGet 0x024).getLsbD 0 = true) i q 4 excDivZero ∧
  (quot = true → RetiresWhen (fun c => ovf c ∧ (c.crGet 0x024).getLsbD 1 = false) i q 4
    (fun c => put (flag c fIOV) (a c)) (Quire.past 4)) ∧
  (quot = true → TrapsWhen (fun c => ovf c ∧ (c.crGet 0x024).getLsbD 1 = true) i q 4 excOverflow) ∧
  (quot = false → RetiresWhen ovf i q 4 (fun c => put c 0) (Quire.past 4))

/-- R84: the divisions and remainders, with the corners of R35. -/
def Sys2Proof.Divisions : Prop :=
  ∀ (q : QuireId) (rd rs1 rs2 : GReg),
    Divides (.div q rd rs1 rs2) q rd rs1 rs2 64 true true ∧
    Divides (.divu q rd rs1 rs2) q rd rs1 rs2 64 false true ∧
    Divides (.rem q rd rs1 rs2) q rd rs1 rs2 64 true false ∧
    Divides (.remu q rd rs1 rs2) q rd rs1 rs2 64 false false ∧
    Divides (.divw q rd rs1 rs2) q rd rs1 rs2 32 true true ∧
    Divides (.divuw q rd rs1 rs2) q rd rs1 rs2 32 false true ∧
    Divides (.remw q rd rs1 rs2) q rd rs1 rs2 32 true false ∧
    Divides (.remuw q rd rs1 rs2) q rd rs1 rs2 32 false false

/-- R35, R82, R84: products, checked arithmetic, divisions and remainders. -/
def Obligations.ProductsAndDivisions : Prop := Products ∧ CheckedArithmetic ∧ Divisions

/-- A branch goes to PC + 4 × offset where its condition holds, and behind itself elsewhere; it changes no register. -/
def Sys2Proof.Branches (i : Instr) (q : QuireId) (rs1 rs2 : GReg) (off : Imm) (cond : W64 → W64 → Prop) : Prop :=
  RetiresWhen (fun c => cond (c.gr rs1) (c.gr rs2)) i q (immLen off) id
    (fun c => c.pc64 + 4 * immVal off) ∧
  RetiresWhen (fun c => ¬ cond (c.gr rs1) (c.gr rs2)) i q (immLen off) id (Quire.past (immLen off))

/-- A jump taken to a target that does not fit 56 bits: the instruction retires, and INSTR_TRANSLATION is raised at the
target. -/
def Sys2Proof.JumpsAway (i : Instr) (q : QuireId) (len : Nat) (taken : Quire → Prop) (f : Quire → Quire)
    (target : Quire → W64) : Prop :=
  ∀ s t, s.Ready q len t → taken (t.q q) → 2 ^ 56 ≤ (target (t.q q)).toNat → ((t.q q).pl = 0 → (t.q q).singleStep = false) →
    exec i s = .next ((t.retiredAs q (f (t.q q)) (target (t.q q))).raiseAt q
      ⟨2, 1, target (t.q q), syndOf 0 0x01000000#32, false⟩ (target (t.q q)))

/-- R89: branches and jumps. JALR reads rs1 before it writes rd. -/
def Obligations.BranchesAndJumps : Prop :=
  ∀ (q : QuireId) (rd rs1 rs2 : GReg) (off : Imm) (joff : JOff),
    Branches (.beq q rs1 rs2 off) q rs1 rs2 off (fun a b => a = b) ∧
    Branches (.bne q rs1 rs2 off) q rs1 rs2 off (fun a b => a ≠ b) ∧
    Branches (.blt q rs1 rs2 off) q rs1 rs2 off (fun a b => a.toInt < b.toInt) ∧
    Branches (.bge q rs1 rs2 off) q rs1 rs2 off (fun a b => b.toInt ≤ a.toInt) ∧
    Branches (.bltu q rs1 rs2 off) q rs1 rs2 off (fun a b => a.toNat < b.toNat) ∧
    Branches (.bgeu q rs1 rs2 off) q rs1 rs2 off (fun a b => b.toNat ≤ a.toNat) ∧
    Retires (.jal q rd joff) q (joffLen joff) (fun c => c.gw rd (c.past (joffLen joff)))
      (fun c => c.pc64 + 4 * joffVal joff) ∧
    Retires (.jalr q rd rs1 off) q (immLen off) (fun c => c.gw rd (c.past (immLen off)))
      (fun c => (c.gr rs1 + immVal off) &&& ~~~3#64) ∧
    JumpsAway (.beq q rs1 rs2 off) q (immLen off) (fun c => c.gr rs1 = c.gr rs2) id (fun c => c.pc64 + 4 * immVal off) ∧
    JumpsAway (.bne q rs1 rs2 off) q (immLen off) (fun c => c.gr rs1 ≠ c.gr rs2) id (fun c => c.pc64 + 4 * immVal off) ∧
    JumpsAway (.blt q rs1 rs2 off) q (immLen off) (fun c => (c.gr rs1).toInt < (c.gr rs2).toInt) id
      (fun c => c.pc64 + 4 * immVal off) ∧
    JumpsAway (.bge q rs1 rs2 off) q (immLen off) (fun c => (c.gr rs2).toInt ≤ (c.gr rs1).toInt) id
      (fun c => c.pc64 + 4 * immVal off) ∧
    JumpsAway (.bltu q rs1 rs2 off) q (immLen off) (fun c => (c.gr rs1).toNat < (c.gr rs2).toNat) id
      (fun c => c.pc64 + 4 * immVal off) ∧
    JumpsAway (.bgeu q rs1 rs2 off) q (immLen off) (fun c => (c.gr rs2).toNat ≤ (c.gr rs1).toNat) id
      (fun c => c.pc64 + 4 * immVal off) ∧
    JumpsAway (.jal q rd joff) q (joffLen joff) (fun _ => True) (fun c => c.gw rd (c.past (joffLen joff)))
      (fun c => c.pc64 + 4 * joffVal joff) ∧
    JumpsAway (.jalr q rd rs1 off) q (immLen off) (fun _ => True) (fun c => c.gw rd (c.past (immLen off)))
      (fun c => (c.gr rs1 + immVal off) &&& ~~~3#64)

/-! ## Floating point (03) -/

/-- The code of an instruction's rounding mode (R41, R53, R63): its EXT field, and for the short form or DYN the engine's
field of NUMCTL. -/
def Sys2Proof.modeCode (c : Quire) (e : Eng) (rm : Ext) : Nat :=
  let field : Nat := (c.crGet 0x020).toNat / 2 ^ (match e with | .scl => 1 | .vec => 4 | .prs => 7 | .plg => 10) % 8
  match rm with | none => field | some x => if x.toNat = 7 then field else x.toNat

/-- The engine accepts the instruction's rounding mode (R42): the codes above 4 never, RDN and RUP always in the plough,
in STRICT in the scalar and vector units, and never in the press. -/
abbrev Sys2Proof.ModeLegal (c : Quire) (e : Eng) (rm : Ext) : Prop :=
  modeCode c e rm ≤ 4 ∧
    (modeCode c e rm = 2 ∨ modeCode c e rm = 3 → e = .plg ∨ ((c.crGet 0x020).getLsbD 0 = true ∧ e ≠ .prs))

/-- The rounding mode that an accepted code names (R41). -/
def Sys2Proof.modeIn (c : Quire) (e : Eng) (rm : Ext) : RMode :=
  match modeCode c e rm with | 0 => .rne | 1 => .rtz | 2 => .rdn | 3 => .rup | _ => .sr

/-- A floating-point instruction that rounds: in an accepted mode it delivers `f`, sets its flags, counts towards SR_SEQ
in SR, and changes nothing else; in a mode that is not accepted it is illegal (R42, R46, R51, R59). -/
def Sys2Proof.FpRounds (i : Instr) (q : QuireId) (fd : FReg) (rm : Ext) (f : Quire → Rnd → Nat × Flags) : Prop :=
  RetiresWhen (fun c => ModeLegal c .scl rm) i q (extLen rm) (fun c =>
    let md := modeIn c .scl rm
    let r := f c (c.rnd .scl md false 0 0)
    ((c.setFlags .scl r.2).countSr md).fw fd r.1) (Quire.past (extLen rm)) ∧
  TrapsWhen (fun c => ¬ ModeLegal c .scl rm) i q (extLen rm) excIllegal

/-- A floating-point instruction that does not round: with EXT.RM zero or absent it changes its quire by `f`, and with
another EXT.RM it is illegal (R90). -/
def Sys2Proof.FpKeeps (i : Instr) (q : QuireId) (rm : Ext) (f : Quire → Quire) : Prop :=
  ((rm = none ∨ rm = some 0) → Retires i q (extLen rm) f (Quire.past (extLen rm))) ∧
  (¬ (rm = none ∨ rm = some 0) → TrapsWhen (fun _ => True) i q (extLen rm) excIllegal)

/-- R41, R42, R53, R63: the rounding mode of an instruction is its EXT field, and for the short form or DYN the engine's
field of NUMCTL; the codes above 4 and, where the engine or the profile does not take them, RDN and RUP are not
accepted. -/
def Obligations.RoundingModes : Prop :=
  ∀ (c : Quire) (e : Eng) (rm : Ext),
    let field : Nat := (c.crGet 0x020).toNat / 2 ^ (match e with | .scl => 1 | .vec => 4 | .prs => 7 | .plg => 10) % 8
    let code : Nat := match rm with | none => field | some x => if x.toNat = 7 then field else x.toNat
    let strict : Bool := (c.crGet 0x020).getLsbD 0
    c.mode e rm =
      (if code = 0 then some .rne else if code = 1 then some .rtz
       else if code = 2 then (if e = .plg ∨ (strict ∧ e ≠ .prs) then some .rdn else none)
       else if code = 3 then (if e = .plg ∨ (strict ∧ e ≠ .prs) then some .rup else none)
       else if code = 4 then some .sr else none) ∧
    (ModeLegal c e rm → c.mode e rm = some (modeIn c e rm)) ∧ (¬ ModeLegal c e rm → c.mode e rm = none)

/-- R90, R92: the arithmetic of FP.D, FP.S and the FM majors. -/
def Obligations.FloatingArithmetic : Prop :=
  ∀ (q : QuireId) (dbl : Bool) (fd fs1 fs2 fs3 : FReg) (rm : Ext),
    let F : Fmt := if dbl then fp64 else fp32
    let v (c : Quire) (r : FReg) : FVal := F.read c.strict (c.f[r].toNat % 2 ^ (if dbl then 64 else 32))
    FpRounds (.fadd q dbl fd fs1 fs2 rm) q fd rm (fun c r => addVals F r (v c fs1) (v c fs2)) ∧
    FpRounds (.fsub q dbl fd fs1 fs2 rm) q fd rm (fun c r => addVals F r (v c fs1) (v c fs2).negate) ∧
    FpRounds (.fmul q dbl fd fs1 fs2 rm) q fd rm (fun c r => mulVals F r (v c fs1) (v c fs2)) ∧
    FpRounds (.fdiv q dbl fd fs1 fs2 rm) q fd rm (fun c r => divVals F r (v c fs1) (v c fs2)) ∧
    FpRounds (.fsqrt q dbl fd fs1 rm) q fd rm (fun c r => sqrtVal F r (v c fs1)) ∧
    FpRounds (.fmadd q dbl fd fs1 fs2 fs3 rm) q fd rm (fun c r => fmaVals F r (v c fs1) (v c fs2) (v c fs3)) ∧
    FpRounds (.fmsub q dbl fd fs1 fs2 fs3 rm) q fd rm (fun c r => fmaVals F r (v c fs1) (v c fs2) (v c fs3).negate) ∧
    FpRounds (.fnmadd q dbl fd fs1 fs2 fs3 rm) q fd rm
      (fun c r => fmaVals F r (v c fs1).negate (v c fs2) (v c fs3).negate) ∧
    FpRounds (.fnmsub q dbl fd fs1 fs2 fs3 rm) q fd rm (fun c r => fmaVals F r (v c fs1).negate (v c fs2) (v c fs3))

/-- R90: minimum, maximum, sign injection, comparison, classification and moves. The sign functions, FMV and FCLASS act on
the encodings. -/
def Sys2Proof.FloatingChoices : Prop :=
  ∀ (q : QuireId) (dbl : Bool) (rd rs1 : GReg) (fd fs1 fs2 : FReg) (rm : Ext),
    let w : Nat := if dbl then 64 else 32
    let F : Fmt := if dbl then fp64 else fp32
    let enc (c : Quire) (r : FReg) : Nat := c.f[r].toNat % 2 ^ w
    let v (c : Quire) (r : FReg) : FVal := F.read c.strict (enc c r)
    let sign (x : Nat) : Bool := x.testBit (w - 1)
    let signed (c : Quire) (b : Bool) : Quire := c.fw fd (enc c fs1 % 2 ^ (w - 1) + (if b then 2 ^ (w - 1) else 0))
    let cmp (c : Quire) (quiet : Bool) (b : Ordering → Bool) : Quire :=
      (c.setFlags .scl (if (v c fs1).isSnan || (v c fs2).isSnan || (!quiet && ((v c fs1).isNan || (v c fs2).isNan))
        then fINV else 0)).gw rd (if (cmpVals (v c fs1) (v c fs2)).any b then 1 else 0)
    FpKeeps (.fmin q dbl fd fs1 fs2 rm) q rm (fun c =>
      (c.setFlags .scl (minMaxVals F false (v c fs1) (v c fs2)).2).fw fd (minMaxVals F false (v c fs1) (v c fs2)).1) ∧
    FpKeeps (.fmax q dbl fd fs1 fs2 rm) q rm (fun c =>
      (c.setFlags .scl (minMaxVals F true (v c fs1) (v c fs2)).2).fw fd (minMaxVals F true (v c fs1) (v c fs2)).1) ∧
    FpKeeps (.fsgn q dbl fd fs1 fs2 rm) q rm (fun c => signed c (sign (enc c fs2))) ∧
    FpKeeps (.fsgnn q dbl fd fs1 fs2 rm) q rm (fun c => signed c (!sign (enc c fs2))) ∧
    FpKeeps (.fsgnx q dbl fd fs1 fs2 rm) q rm (fun c => signed c (sign (enc c fs1) != sign (enc c fs2))) ∧
    FpKeeps (.feq q dbl rd fs1 fs2 rm) q rm (fun c => cmp c true (fun o => o = .eq)) ∧
    FpKeeps (.flt q dbl rd fs1 fs2 rm) q rm (fun c => cmp c false (fun o => o = .lt)) ∧
    FpKeeps (.fle q dbl rd fs1 fs2 rm) q rm (fun c => cmp c false (fun o => o ≠ .gt)) ∧
    FpKeeps (.fclass q dbl rd fs1 rm) q rm (fun c => c.gw rd (BitVec.ofNat 64 (F.classMask (enc c fs1)))) ∧
    FpKeeps (.fmvG q dbl rd fs1 rm) q rm (fun c => c.gw rd (BitVec.ofNat 64 (enc c fs1))) ∧
    FpKeeps (.fmvF q dbl fd rs1 rm) q rm (fun c => c.fw fd ((c.gr rs1).toNat % 2 ^ w))

/-- R91: a conversion runs in its mode, or, when it is exact by type, with EXT.RM zero or absent; it delivers to the register
file of its destination type. A func of two equal types or two integer types, or an f register above f31, is illegal. -/
def Sys2Proof.FloatingConversions : Prop :=
  ∀ (q : QuireId) (dst src : BitVec 3) (rd rs1 : BitVec 6) (rm : Ext),
    let d := cvtType dst
    let t := cvtType src
    let put (c : Quire) (x : Nat) : Quire := match d with
      | .flt _ => c.fw (Fin.ofNat 32 rd.toNat) x
      | .int .. => c.gw (gReg rd) (BitVec.ofNat 64 x)
    let res (c : Quire) (md : RMode) : Nat × Flags := cvtResult c d t rs1 (c.rnd .scl md false 0 0)
    let intT (x : BitVec 3) : Prop := x.toNat < 4
    let legal : Prop := dst ≠ src ∧ ¬ (intT dst ∧ intT src) ∧ (¬ intT dst → rd.toNat < 32) ∧ (¬ intT src → rs1.toNat < 32)
    (legal → cvtExact d t = true → (rm = none ∨ rm = some 0) → Retires (.fcvt q dst src rd rs1 rm) q (extLen rm)
      (fun c => put (c.setFlags .scl (res c .rne).2) (res c .rne).1) (Quire.past (extLen rm))) ∧
    (legal → cvtExact d t = true → ¬ (rm = none ∨ rm = some 0) →
      TrapsWhen (fun _ => True) (.fcvt q dst src rd rs1 rm) q (extLen rm) excIllegal) ∧
    (legal → cvtExact d t = false → RetiresWhen (fun c => ModeLegal c .scl rm) (.fcvt q dst src rd rs1 rm) q
      (extLen rm) (fun c =>
        let md := modeIn c .scl rm
        put ((c.setFlags .scl (res c md).2).countSr md) (res c md).1) (Quire.past (extLen rm))) ∧
    (legal → cvtExact d t = false →
      TrapsWhen (fun c => ¬ ModeLegal c .scl rm) (.fcvt q dst src rd rs1 rm) q (extLen rm) excIllegal) ∧
    (¬ legal → ∀ s t, s.ReadyFirst q (extLen rm) t →
      exec (.fcvt q dst src rd rs1 rm) s = .next (t.raise q excIllegal))

/-- R90, R91: minimum, maximum, signs, comparisons, classification, moves and conversions.
The model's choices that it rests on: log entries 162, 173, 174. -/
def Obligations.FloatingSelection : Prop := FloatingChoices ∧ FloatingConversions

/-! ## System instructions and control registers (03) -/

/-- R93, R94, R288: the fences. FENCE.D and FENCE.T wait for the stores that the port or the router has not accepted, and
FENCE.S for every store. FENCE.S turns a pending store error into a precise STORE_ERROR, which it clears.
The model's choices that it rests on: log entries 36, 37, 194. -/
def Obligations.Fences : Prop :=
  ∀ (q : QuireId) (s t : State), s.Ready q 4 t →
    let u := t.drain q
    let next := (u.q q).past 4
    (((u.q q).stores = [] ∧ (u.q q).plain next → exec (.fenceD q) s = .next (u.retiredAs q (u.q q) next)) ∧
     ((u.q q).stores ≠ [] → exec (.fenceD q) s = .next (u.flushEvents q)) ∧
     (u.storesOut q = false ∧ (u.q q).storeErr = none ∧ (u.q q).plain next →
       exec (.fenceS q) s = .next (u.retiredAs q (u.q q) next)) ∧
     (∀ e, u.storesOut q = false ∧ (u.q q).storeErr = some e →
       exec (.fenceS q) s = .next (((u.modQ q (fun c => { c with storeErr := none })).flushEvents q).raise q
         ⟨32, 0, e.addr, (e.entry.setWidth 64 ||| (if e.ovf then 0x8000000000000000#64 else 0)), false⟩)) ∧
     (u.storesOut q = true → exec (.fenceS q) s = .next (u.flushEvents q)) ∧
     (let w := t.drainStores q
      ((w.q q).stores = [] ∧ (w.q q).plain ((w.q q).past 4) →
        exec (.fenceT q) s = .next (w.retiredAs q (w.q q) ((w.q q).past 4))) ∧
      ((w.q q).stores ≠ [] → exec (.fenceT q) s = .next (w.flushEvents q))))

/-- R94: SYSCALL and BREAK raise their exceptions at themselves, and CSYNC completes the deferred writes. -/
def Sys2Proof.SystemCalls : Prop :=
  ∀ (q : QuireId),
    TrapsWhen (fun _ => True) (.syscall q) q 4 ⟨13, 0, 0, 0, false⟩ ∧
    TrapsWhen (fun _ => True) (.brk q) q 4 ⟨12, 0, 0, 0, false⟩ ∧
    (∃ f, Retires (.csync q) q 4 f (Quire.past 4) ∧
      ∀ c, f c = { c with deferred := [], useOld := [],
                          segCache := if ∃ e ∈ c.deferred, e.1 = 0x080 ∨ e.1 = 0x081 then [] else c.segCache,
                          tlb := if ∃ e ∈ c.deferred, e.1 = 0x080 ∨ e.1 = 0x081 then [] else c.tlb })

/-- R94: WAIT needs PL1 and then holds the quire until an interrupt is pending, masked or not. -/
def Sys2Proof.WaitHoldsTheQuire : Prop :=
  ∀ (q : QuireId),
    RetiresWhen (fun c => 1 ≤ c.pl) (.wait q) q 4 (fun c => { c with stall := .wait }) (Quire.past 4) ∧
    TrapsWhen (fun c => c.pl = 0) (.wait q) q 4 excPrivilege ∧
    (∀ s : State, (s.q q).stall = .wait → (s.q q).irq = 0 → s.timerPending (s.q q) = false → s.canIssue q = false) ∧
    (∀ s : State, (s.q q).stall = .wait → (s.q q).st = .running → s.down = false → (s.q q).irq ≠ 0 → s.canIssue q = true)

/-- R94, R249: HALT needs PL2. It leaves its quire HALTED with RESULT 0x06 and its registers as they were, and ends the
rest of its context. -/
def Sys2Proof.HaltStopsTheQuire : Prop :=
  ∀ (q : QuireId) (s t : State), s.Ready q 4 t →
    ((t.q q).pl < 2 → exec (.halt q) s = .next ((t.flushEvents q).raise q excPrivilege)) ∧
    ((t.q q).pl = 2 → ∃ u, exec (.halt q) s = .next u ∧ (u.q q).st = .halted ∧ (u.q q).result = 6 ∧
      (u.q q).pc = (t.q q).pc ∧ (∀ r, (u.q q).gr r = (t.q q).gr r) ∧ (u.q q).f = (t.q q).f ∧
      (∀ p, p ≠ q → (t.q p).ctx = (t.q q).ctx → (t.q p).st = .running → (u.q p).st = .idle))

/-- R94, R249: SYSCALL, BREAK, CSYNC, WAIT and HALT.
The model's choice that it rests on: log entry 6. -/
def Obligations.SystemInstructions : Prop := SystemCalls ∧ WaitHoldsTheQuire ∧ HaltStopsTheQuire

/-- R94, R273, R276: CINV of L1I and L1D runs at any level; of L2 it needs PL1, is complete at once while L2 is off, waits
while the L2 configuration changes, and otherwise starts cleaning and holds the quire. It completes once no line is dirty
and the eviction buffer is empty, and then no copy of an L2 line stays in L1D.
The model's choices that it rests on: log entries 6, 149, 170. -/
def Obligations.CacheInvalidation : Prop :=
  ∀ (q : QuireId),
    Retires (.cinv q 0) q 4 (fun c => { c with l1i := [] }) (Quire.past 4) ∧
    Retires (.cinv q 1) q 4 (fun c => { c with l1d := [], victim := [] }) (Quire.past 4) ∧
    TrapsWhen (fun c => c.pl = 0) (.cinv q 2) q 4 excPrivilege ∧
    (∀ s t, s.Ready q 4 t → 1 ≤ (t.q q).pl → t.l2Busy q = true → exec (.cinv q 2) s = .next (t.flushEvents q)) ∧
    (∀ s t, s.Ready q 4 t → 1 ≤ (t.q q).pl → t.l2Busy q = false → t.l2On q = false → (t.q q).plain ((t.q q).past 4) →
      exec (.cinv q 2) s = .next (t.retiredAs q (t.q q) ((t.q q).past 4))) ∧
    (∀ s t, s.Ready q 4 t → 1 ≤ (t.q q).pl → t.l2Busy q = false → t.l2On q = true → (t.q q).plain ((t.q q).past 4) →
      let u := t.drainAtomics q
      ∃ v, exec (.cinv q 2) s = .next v ∧ (v.q q).stall = .cinvL2 ∧ (v.q q).l2Cinv = true ∧ v.canIssue q = false ∧
        v.mem = u.mem ∧ (∀ r, (v.q q).gr r = (t.q q).gr r) ∧
        (v.q q).pc = ((t.q q).past 4).setWidth 56) ∧
    (∀ s, (s.q q).l2Cinv = true → s.l2Busy q = false → (∀ e ∈ (s.q q).l2, e.2.1 ≠ .modified) → (s.q q).evict = [] →
      (s.q q).action ≠ 1 →
      ∃ c, exec (.cinvL2Complete q) s = .next (s.setQ q c) ∧ c.l2 = [] ∧
        c = { s.q q with
          l1d := c.l1d, victim := c.victim, l2 := [], l2Cinv := false, isoWait := false,
          stall := if (s.q q).stall = .cinvL2 then .none else (s.q q).stall } ∧
        (∀ e ∈ c.l1d ++ c.victim, e ∈ (s.q q).l1d ++ (s.q q).victim ∧ ∀ x ∈ (s.q q).l2, x.1 ≠ e.1))

/-- A control register that neither counts cycles nor is computed from other state. -/
abbrev Sys2Proof.PlainCr (n : Nat) : Prop :=
  n ∉ [0x003, 0x004, 0x005, 0x041, 0x051, 0x053, 0x054, 0x055, 0x05A, 0x05C]

/-- R68 to R70, R72: a control-register instruction that passes the checks of R69 writes the old value to rd and changes the
writable bits of the register, the deferred ones keeping the old value in reach until CSYNC. -/
def Sys2Proof.ControlRegisterInstructions : Prop :=
  ∀ (q : QuireId) (rd rs1 : GReg) (cr : BitVec 12) (info : CrInfo), crInfo cr.toNat = some info → PlainCr cr.toNat →
    let n := cr.toNat
    let new (c : Quire) (x : W64) : W64 := (c.crGet n &&& ~~~info.mask) ||| (x &&& info.mask)
    let writes (f : W64 → W64 → W64) (c : Quire) : Quire :=
      (c.crWrite n info (f (c.crGet n) (c.gr rs1))).gw rd (c.crGet n)
    let fits (f : W64 → W64 → W64) (c : Quire) : Prop :=
      info.wl ≤ c.pl ∧ info.ro = false ∧ crValid n (new c (f (c.crGet n) (c.gr rs1))) = true
    RetiresWhen (fun c => (rd ≠ 0 → info.rl ≤ c.pl) ∧ fits (fun _ x => x) c) (.crw q rd cr rs1) q 4
      (writes (fun _ x => x)) (Quire.past 4) ∧
    (rs1 ≠ 0 → RetiresWhen (fun c => info.rl ≤ c.pl ∧ fits (fun o x => o ||| x) c) (.crs q rd cr rs1) q 4
      (writes (fun o x => o ||| x)) (Quire.past 4)) ∧
    (rs1 ≠ 0 → RetiresWhen (fun c => info.rl ≤ c.pl ∧ fits (fun o x => o &&& ~~~x) c) (.crc q rd cr rs1) q 4
      (writes (fun o x => o &&& ~~~x)) (Quire.past 4)) ∧
    (∀ (c : Quire) (x : W64) (m : Nat), sOk crReset 0 c.cr = true →
      (c.crWrite n info x).crGet m = if m = n then new c x else c.crGet m) ∧
    (∀ (c : Quire) (x : W64), (c.crWrite n info x).deferred =
      if info.deferred = true ∧ (∀ e ∈ c.deferred, e.1 ≠ n) then (n, c.crGet n) :: c.deferred else c.deferred)

/-- R69, R70: the outcomes of the checks, and the pure forms: CRW with rd = 0 is checked as a write only, CRS and CRC with
rs1 = 0 as a read only. -/
def Sys2Proof.ControlRegisterChecks : Prop :=
  ∀ (q : QuireId) (rd rs1 : GReg) (cr : BitVec 12) (info : CrInfo), crInfo cr.toNat = some info →
    PlainCr cr.toNat →
    TrapsWhen (fun c => c.pl < info.rl) (.crs q rd cr rs1) q 4 excPrivilege ∧
    TrapsWhen (fun c => c.pl < info.rl) (.crc q rd cr rs1) q 4 excPrivilege ∧
    (rd ≠ 0 → TrapsWhen (fun c => c.pl < info.rl) (.crw q rd cr rs1) q 4 excPrivilege) ∧
    TrapsWhen (fun c => c.pl < info.wl) (.crw q rd cr rs1) q 4 excPrivilege ∧
    (info.ro = true → info.rl = 0 → info.wl = 0 → TrapsWhen (fun _ => True) (.crw q rd cr rs1) q 4 excIllegal) ∧
    RetiresWhen (fun c => info.rl ≤ c.pl) (.crs q rd cr 0) q 4 (fun c => c.gw rd (c.crGet cr.toNat)) (Quire.past 4) ∧
    RetiresWhen (fun c => info.rl ≤ c.pl) (.crc q rd cr 0) q 4 (fun c => c.gw rd (c.crGet cr.toNat)) (Quire.past 4)

/-- R68 to R70, R72: the control-register instructions and their checks.
The model's choices that it rests on: log entries 165, 176. -/
def Obligations.ControlRegisters : Prop := ControlRegisterInstructions ∧ ControlRegisterChecks

/-! ## Exceptions (09) -/

/-- The control registers of a quire are in canonical form, so that equal registers are equal data. -/
abbrev Sys2Proof.CrCanon (c : Quire) : Prop := sOk crReset 0 c.cr = true

/-- TOP of a stack record (R239). -/
def Sys2Proof.topOf (x : W64) : W64 := x &&& 0x00FFFFFFFFFFFFF0#64

/-- What entry to exception `e` does to a quire (R243), `d` being its descriptor and `epc` its return address. -/
def Sys2Proof.Entered (old new : Quire) (e : Exc) (epc : W64) (d : BitVec 128) : Prop :=
  let tpl : Nat := (d.extractLsb' 76 2).toNat
  let sw : Bool := d.extractLsb' 72 2 = 1#2 || (d.extractLsb' 72 2 = 2#2 && tpl ≠ old.pl)
  let status : W64 := (old.crGet 0x000 &&& ~~~0x00000000000F3040#64) ||| ((d.extractLsb' 76 2).setWidth 64 <<< 12) |||
    ((d.extractLsb' 80 4).setWidth 64 <<< 16)
  (∀ n, new.crGet n =
    if n = 0x011 then epc &&& 0x00FFFFFFFFFFFFFC#64
    else if n = 0x012 then old.crGet 0x000
    else if n = 0x013 then BitVec.ofNat 64 ((if sw then 2 ^ 31 else 0) + (if e.async then 2 ^ 30 else 0) + e.acc * 2 ^ 16 + e.num)
    else if n = 0x014 then e.addr
    else if n = 0x015 then e.synd
    else if n = 0x016 ∧ sw = true then old.gr 63
    else if n = 0x000 then status
    else old.crGet n) ∧
  (∀ r, new.gr r = if r = 63 ∧ sw = true then topOf (old.crGet (0x017 + tpl)) else old.gr r) ∧
  new.pc = (d.extractLsb' 2 54 ++ 0#2 : BitVec 56) ∧
  new.f = old.f ∧ new.v = old.v ∧ new.m = old.m ∧ new.tile = old.tile ∧ new.acc = old.acc ∧ new.st = old.st ∧
  new.ctx = old.ctx ∧ new.irq = old.irq

/-- The state in which a synchronous exception reads its descriptor: deferred writes are complete (R72). -/
def Sys2Proof.beforeEntry (s : State) (q : QuireId) : State :=
  (s.modQ q (fun c => { c with deferred := [], useOld := [] })).countEvent (unitCode 1 q.val) 0x0112 1

/-- R235, R243: a synchronous exception above ML whose descriptor reads and is valid enters its handler: the return address,
the status and the report are saved, the level, the mask and SS change, the stack is switched as the descriptor says,
and the PC is the handler's. Memory does not change, where the eviction buffer has room for the lines of the descriptor. -/
def Obligations.ExceptionEntry : Prop :=
  ∀ (s u : State) (q : QuireId) (e : Exc) (epc : W64) (d : BitVec 128),
    (beforeEntry s q).readDescriptor q e.num = (some d, u) →
    (s.q q).escalated = false → (s.q q).ml < syncLevel e.num → descInvalid d (u.q q).pl = false →
    (descSwitch d (u.q q).pl = true → topOf ((u.q q).crGet (0x017 + (d.extractLsb' 76 2).toNat)) ≠ 0) →
    CrCanon (u.q q) →
    ∃ c, s.raiseAt q e epc = u.setQ q c ∧ Entered (u.q q) c e epc d ∧
      ((s.q q).evict.length + 2 ≤ 32 → u.mem = s.mem)

/-- What escalation does to a quire (R248). -/
def Sys2Proof.Escalated (old new : Quire) (e : Exc) (reason : Nat) (epc : W64) : Prop :=
  (∀ n, new.crGet n =
    if n = 0x01C then epc &&& 0x00FFFFFFFFFFFFFC#64
    else if n = 0x01D then BitVec.ofNat 64 (e.num * 2 ^ 32 + reason * 2 ^ 24 + (old.crGet 0x000).toNat % 2 ^ 20)
    else if n = 0x01E then old.gr 63
    else if n = 0x014 then e.addr
    else if n = 0x015 then e.synd
    else if n = 0x000 then (old.crGet 0x000 &&& ~~~0x0000000000003040#64) ||| 0x00000000000F2080#64
    else old.crGet n) ∧
  (∀ r, new.gr r = if r = 63 then topOf (old.crGet 0x01B) else old.gr r) ∧
  new.pc = (old.crGet 0x01A).setWidth 56 ∧
  new.f = old.f ∧ new.v = old.v ∧ new.m = old.m ∧ new.tile = old.tile ∧ new.acc = old.acc ∧ new.st = old.st ∧
  new.ctx = old.ctx ∧ new.irq = old.irq

/-- R248: escalation saves into XEPC, XINFO and XSP, reads no memory, and leaves the interrupted handler's registers. -/
def Sys2Proof.EscalationEntry : Prop :=
  ∀ (s : State) (q : QuireId) (e : Exc) (reason : Nat) (epc : W64), CrCanon (s.q q) →
    ∃ c, Escalated (s.q q) c e reason epc ∧
      s.escalate q e reason epc = (s.setQ q c).emit (unitCode 1 q.val) 0x0102 (some (s.q q).ctx) (c.crGet 0x01D) epc

/-- R235, R243, R248, R249: when a synchronous exception escalates instead of entering, with which REASON, and that one raised
during an escalation halts the quire. -/
def Sys2Proof.EscalationReasons : Prop :=
  ∀ (s u : State) (q : QuireId) (e : Exc) (epc : W64) (d : BitVec 128),
    let b := beforeEntry s q
    ((s.q q).escalated = true → s.raiseAt q e epc = b.haltQuire q 7 epc) ∧
    ((s.q q).escalated = false → syncLevel e.num ≤ (s.q q).ml → s.raiseAt q e epc = b.escalate q e 1 epc) ∧
    ((s.q q).escalated = false → (s.q q).ml < syncLevel e.num → b.readDescriptor q e.num = (none, u) →
      s.raiseAt q e epc = u.escalate q e 2 epc) ∧
    ((s.q q).escalated = false → (s.q q).ml < syncLevel e.num → b.readDescriptor q e.num = (some d, u) →
      descInvalid d (u.q q).pl = true → s.raiseAt q e epc = u.escalate q e 3 epc) ∧
    ((s.q q).escalated = false → (s.q q).ml < syncLevel e.num → b.readDescriptor q e.num = (some d, u) →
      descInvalid d (u.q q).pl = false → descSwitch d (u.q q).pl = true →
      topOf ((u.q q).crGet (0x017 + (d.extractLsb' 76 2).toNat)) = 0 → s.raiseAt q e epc = u.escalate q e 4 epc)

/-- R235, R243, R248, R249: what escalation does, and when a synchronous exception escalates or halts the quire. -/
def Obligations.Escalation : Prop := EscalationEntry ∧ EscalationReasons

/-- The STATUS that ERET restores: STATUS[19:0] of the saved value, ESC and the reserved bits 0 (R73, R244). -/
def Sys2Proof.restored (x : W64) : W64 := x &&& 0x00000000000F3140#64

/-- Where `p` holds of its quire, an instruction changes the quire by `f`, retires, and goes on at `next`, owing no
SINGLE_STEP (R73). -/
def Sys2Proof.ReturnsWhen (p : Quire → Prop) (i : Instr) (q : QuireId) (f : Quire → Quire) (next : Quire → W64) : Prop :=
  ∀ s t, s.Ready q 4 t → p (t.q q) → (next (t.q q)).toNat < 2 ^ 56 →
    exec i s = .next (t.retiredAs q (f (t.q q)) (next (t.q q)))

/-- R244: ERET needs PL1, and returns to EPC with ESTATUS, or from an escalation to XEPC with XINFO.STATUS, owing no
SINGLE_STEP of the STATUS it restores; it raises PRIVILEGE when it would restore a higher level than the quire runs at.
The model's choice that it rests on: log entry 157. -/
def Obligations.ExceptionReturn : Prop :=
  ∀ (q : QuireId),
    let clear (c : Quire) : Quire := { c with deferred := [], useOld := [] }
    let back (c : Quire) (saved : Nat) (g63 : W64) : Quire := ((clear c).gw 63 g63).crSet 0x000 (restored (c.crGet saved))
    let level (x : W64) : Nat := (x.extractLsb' 12 2).toNat
    ReturnsWhen (fun c => 1 ≤ c.pl ∧ c.escalated = true ∧ level (c.crGet 0x01D) ≤ c.pl) (.eret q) q
      (fun c => back c 0x01D (c.crGet 0x01E)) (fun c => c.crGet 0x01C) ∧
    ReturnsWhen (fun c => 1 ≤ c.pl ∧ c.escalated = false ∧ level (c.crGet 0x012) ≤ c.pl ∧
        (c.crGet 0x013).getLsbD 31 = true) (.eret q) q
      (fun c => back c 0x012 (c.crGet 0x016)) (fun c => c.crGet 0x011) ∧
    ReturnsWhen (fun c => 1 ≤ c.pl ∧ c.escalated = false ∧ level (c.crGet 0x012) ≤ c.pl ∧
        (c.crGet 0x013).getLsbD 31 = false) (.eret q) q
      (fun c => (clear c).crSet 0x000 (restored (c.crGet 0x012))) (fun c => c.crGet 0x011) ∧
    TrapsWhen (fun c => c.pl = 0) (.eret q) q 4 excPrivilege ∧
    TrapsWhen (fun c => 1 ≤ c.pl ∧ c.pl < level (c.crGet (if c.escalated then 0x01D else 0x012))) (.eret q) q 4 excPrivilege

/-- R243, R244: a SYSCALL that enters its handler, and an ERET that is the handler's first instruction, bring the quire back
to the SYSCALL with its status, its general and floating-point registers and, where no line is displaced from a full
eviction buffer on the way, memory as they were.
The model's choice that it rests on: log entry 157. -/
def Obligations.SystemCallRoundTrip : Prop :=
  ∀ (s t u v w : State) (q : QuireId) (d : BitVec 128),
    s.Ready q 4 t → CrCanon (t.q q) → (t.q q).escalated = false → (t.q q).ml < 8 →
    (beforeEntry (t.flushEvents q) q).readDescriptor q 13 = (some d, u) →
    descInvalid d (u.q q).pl = false →
    (descSwitch d (u.q q).pl = true → topOf ((u.q q).crGet (0x017 + (d.extractLsb' 76 2).toNat)) ≠ 0) →
    (t.q q).pc.extractLsb' 0 2 = 0 → restored ((t.q q).crGet 0) = (t.q q).crGet 0 →
    exec (.syscall q) s = .next v → v.Ready q 4 w →
    ∃ x, exec (.eret q) v = .next x ∧ (x.q q).pc = (s.q q).pc ∧ (x.q q).crGet 0x000 = (s.q q).crGet 0x000 ∧
      (∀ r, (x.q q).gr r = (s.q q).gr r) ∧ (x.q q).f = (s.q q).f ∧
      ((s.q q).evict.length + 4 ≤ 32 → s.pendingNums (s.q q) = [] → v.pendingNums (v.q q) = [] → x.mem = s.mem)

/-- R61 to R66, R107, R122, R139, R174, R175, R201, R220, R221: words that the spec gives, and the instruction that each
stands for; the reserved majors 0x00 and 0x7F; and a long bit where the major has no long form. -/
def Sys2Proof.Words : Prop :=
  ∀ q : QuireId,
    (∀ p ∈ [((0x60718501 : W32), (0 : W32), Instr.addo q 5 6 7), (0x00000989, 0x12345678, .li q 9 (.long 0x12345678)),
        (0x0000098A, 0xF00, .lih q 9 0xF00), (0x00300949, 0, .vsetvl q 9 0 3),
        (0x4021CA41, 0, .vfmadd q false true 10 7 2 none), (0x4021CAC1, 0x20000000, .vfmadd q false true 10 7 2 (some 1)),
        (0x0C02844A, 0, .vld q false 0 false 3 4 10 0), (0x00B28251, 0, .tld q 2 10 11), (0x04028051, 0, .tldP q 0 10),
        (0x00D30050, 0, .tcfg q 12 13), (0x0400C950, 0, .tdesc q 9 3),
        (0x80100058, 0, .mma q true false false false false 0 1 0 0 0 none),
        (0x003001D8, 0x20000000, .mma q false false false false false 0 3 0 0 1 (some 1)), (0x04000159, 0, .accz q 1 true),
        (0x4000115C, 0, .plough q (.vec 0) 2 0 1 none), (0x80B2805C, 0, .plough q (.mem 10 11) 0 0 0 none),
        (0x0002005D, 0, .ploughN q (.tile 8) 0 0 0 none), (0x01E0005E, 0, .slc q 0 30),
        (0x8410005E, 0, .mmaS q true 0 1 0 0), (0x0001005F, 0, .ploughS q (.tile 4) 0 0 none)],
      decodeTehus q p.1 p.2.1 = some p.2.2) ∧
    (∀ w w1 : W32, w.toNat % 128 = 0 ∨ w.toNat % 128 = 0x7F → decodeTehus q w w1 = none) ∧
    -- ADDO has no long form, and LIH no short one
    (∀ w1, decodeTehus q 0x60718581 w1 = none ∧ decodeTehus q 0x0000090A w1 = none)

/-- R61 to R66: words decode to the instructions they stand for, and a word that encodes no instruction of generation 1
raises ILLEGAL_INSTRUCTION at itself, once it is fetched.
The model's choice that it rests on: log entry 38. -/
def Obligations.IllegalWord : Prop :=
  Words ∧ ∀ (q : QuireId) (s t : State), s.ReadyFirst q 4 t →
    exec (.illegalInstruction q) s = .next (t.raise q ⟨0, 0, 0, 0, false⟩)

/-- R74, R235, R236, R241: at a boundary nothing is taken while nothing is pending, while the quire escalates or cannot be
interrupted; a lone interrupt is taken when its descriptor's level is above ML, and its latch cleared, and otherwise
stays pending. Where one is due, it is taken in place of the instruction that is next. -/
def Sys2Proof.InterruptEntry : Prop :=
  ∀ (q : QuireId) (s u : State) (n l : Nat) (d : Option (BitVec 128)),
    let settled (c : Quire) : Quire := { c with deferred := [], useOld := [] }
    ((s.q q).irq = 0 → (s.q q).storeErr = none → s.timerPending (s.q q) = false →
      exec (.interruptEntry q) s = .next s) ∧
    ((s.q q).escalated = true → exec (.interruptEntry q) s = .next s) ∧
    ((s.q q).st = .idle → exec (.interruptEntry q) s = .next s) ∧
    (s.pendingNums (s.q q) = [n] → 64 ≤ n → (s.q q).runs = true → ((s.q q).stall = .none ∨ (s.q q).stall = .wait) →
      (s.q q).escalated = false → (s.modQ q settled).irqLevel q n = (l, d, u) →
      ((s.q q).ml < l → ∃ v, v = ((u.modQ q settled).countEvent (unitCode 1 q.val) 0x0112 1).modQ q
          (fun c => { c with irq := c.irq &&& ~~~BitVec.ofNat 256 (2 ^ n) }) ∧
        exec (.interruptEntry q) s = .next (v.enterWith q ⟨n, 0, 0, 0, false⟩ (u.q q).pc64 d)) ∧
      (l ≤ (s.q q).ml →
        exec (.interruptEntry q) s = .next (u.modQ q (fun c => { c with deferred := (s.q q).deferred })))) ∧
    (∀ (i : Instr) (len : Nat) (ok : Bool) (body : State → Body), (∀ s, exec i s = s.tehus q len ok body) →
      s.canIssue q = true → (s.q q).pendingList = [] → s.dueIrq q = (some (n, d), u) →
      exec i s = .next (u.enterIrq q n d) ∧ exec (.interruptEntry q) s = .next (u.enterIrq q n d))

/-- R241, R253: TIMER brings GTIME to the COMPARE of an enabled TCMP, and its interrupt is then pending (log entry 8);
Q_IRQ_SET latches an interrupt from 64 on in the context that runs, and is rejected for a lower number. -/
def Sys2Proof.TimerAndRaisedInterrupts : Prop :=
  ∀ (q : QuireId) (s : State) (num : BitVec 8),
    let cmp : W64 := (s.q q).crGet 0x01F
    (cmp.getLsbD 63 = true → s.gtime.toNat < cmp.toNat % 2 ^ 63 →
      exec (.timer q) s = .next { s with gtime := cmp &&& 0x7FFFFFFFFFFFFFFF#64 } ∧
      ({ s with gtime := cmp &&& 0x7FFFFFFFFFFFFFFF#64 } : State).timerPending (s.q q) = true) ∧
    (cmp.getLsbD 63 = false ∨ cmp.toNat % 2 ^ 63 ≤ s.gtime.toNat → exec (.timer q) s = .next s) ∧
    (64 ≤ num.toNat → s.domState q.val = 0 → (s.q q).st = .running →
      exec (.qIrqSet q .quire num) s = .next (s.setQ q { s.q q with irq := (s.q q).irq ||| BitVec.ofNat 256 (2 ^ num.toNat) })) ∧
    (64 ≤ num.toNat → s.domState q.val = 0 → (s.q q).st = .idle → exec (.qIrqSet q .quire num) s = .next s) ∧
    (num.toNat < 64 → s.domState q.val = 0 →
      exec (.qIrqSet q .quire num) s = .next (s.reject .quire (0x100024 + q.val * 0x10000)))

/-- R235, R236, R241, R253: interrupts at a boundary, the timer, and Q_IRQ_SET.
The model's choices that it rests on: log entries 6, 8. -/
def Obligations.Interrupts : Prop := InterruptEntry ∧ TimerAndRaisedInterrupts

/-! ## Memory and the accesses of a quire (03, 10) -/

/-- R261: a write of bytes is read back, little-endian, and leaves every other byte alone; memory stays in its canonical
form.
The model's choice that it rests on: log entry 3. -/
def Obligations.WritesReadBack : Prop :=
  ∀ (s : State) (a n v x : Nat), Canon s.mem →
    Canon (s.writeN a n v).mem ∧
    (s.writeN a n v).byte x = (if a ≤ x ∧ x < a + n then BitVec.ofNat 8 (v / 256 ^ (x - a)) else s.byte x) ∧
    (s.writeN a n v).readN a n = v % 256 ^ n

/-- What the instruction set gives every quire is the same: its registers, its state and its context. Memory, caches,
records of errors and free values drawn may differ. -/
def Sys2Proof.KeepsRegisters (s t : State) : Prop :=
  ∀ p : QuireId, let a := s.q p; let b := t.q p
    b.pc = a.pc ∧ b.g = a.g ∧ b.f = a.f ∧ b.v = a.v ∧ b.m = a.m ∧ b.tile = a.tile ∧ b.acc = a.acc ∧ b.cr = a.cr ∧
    b.st = a.st ∧ b.ctx = a.ctx

/-- The eviction buffer has room for the lines that a scalar access or a fetch can displace (R271). -/
abbrev Sys2Proof.RoomToEvict (c : Quire) : Prop := c.evict.length + 2 ≤ 32

/-- A fetch, or a checked access, that goes on changes no register, nor any other quire's; nor memory, where no interrupt is
pending whose descriptor is read and the eviction buffer has room for the lines fetched.
The model's choices that it rests on: log entries 4, 5, 74, 166, 167, 168. -/
def Obligations.TranslationFrame : Prop :=
  (∀ (s t : State) (q : QuireId) (len : Nat), s.Ready q len t →
    KeepsRegisters s t ∧ (s.pendingNums (s.q q) = [] → RoomToEvict (s.q q) → t.mem = s.mem)) ∧
  (∀ (t u : State) (q : QuireId) (k : Acc') (acc index : Nat) (l1 : Bool) (va : W64) (n : Nat) (pas : List Nat),
    t.access q k acc index l1 va n = (.ok pas, u) → KeepsRegisters t u ∧ u.mem = t.mem)

/-- A scalar access of n bytes at `va` passes its checks in `t` (R86, R236, R239) and leaves `u`, its bytes at the physical
addresses `pas`. -/
def Sys2Proof.Passes (t : State) (q : QuireId) (k : Acc') (acc : Nat) (base : GReg) (va : W64) (n : Nat)
    (pas : List Nat) (u : State) : Prop :=
  (t.q q).stackLow base va = false ∧ (acc = 4 → va.toNat % n = 0) ∧ t.access q k acc 0 true va n = (.ok pas, u) ∧
    u.l2Waits q pas = false

/-- Every byte lies in memory of this block. -/
abbrev Sys2Proof.InMemory (s : State) (pas : List Nat) : Prop :=
  ∀ pa ∈ pas, s.remotePa pa = false ∧ (regionOf (localOf pa)).memory = true

/-- The eviction buffer has room for every line that an access to `pas`, in order, can displace (R271). -/
abbrev Sys2Proof.RoomFor (c : Quire) (pas : List Nat) : Prop :=
  c.evict.length + ((pas.map (fun pa => localOf pa / 64)).destutter (· ≠ ·)).length ≤ 32

/-- Only what caches hold, and free values drawn, differs. -/
def Sys2Proof.OnlyCaches (u w : State) : Prop :=
  ∃ (Q : Vector Quire 34) (k : Nat), w = { u with quires := Q, free := k } ∧
    ∀ j : QuireId, ∃ a b v e, Q[j] = { u.q j with l1d := a, l2 := b, victim := v, evict := e }

/-- A load from memory of the block: once the quire's stores and posted atomics in flight are performed, the value goes to
its register. It is what memory holds, unless L1D or its victim cache holds a copy of a line of the access (R268; log
entry 5). -/
def Sys2Proof.Loads (i : Instr) (q : QuireId) (rs1 : GReg) (imm : Imm) (n : Nat) (put : Quire → Nat → Quire) : Prop :=
  ∀ (s t u : State) (pas : List Nat), s.Ready q (immLen imm) t →
    let va := (t.q q).gr rs1 + immVal imm
    Passes t q .load 2 rs1 va n pas u →
    let d := u.drain q
    InMemory d pas → RoomToEvict (d.q q) → (d.q q).plain ((d.q q).past (immLen imm)) →
    ∃ (w : State) (v : W64), OnlyCaches d w ∧
      exec i s = .next (w.retiredAs q (put (w.q q) v.toNat) ((w.q q).past (immLen imm))) ∧
      ((∀ pa ∈ pas, ∀ e ∈ (d.q q).l1d ++ (d.q q).victim, e.1 ≠ localOf pa / 64) →
        v.toNat = leNat (pas.map (fun pa => d.byte (localOf pa))))

/-- R85: loads, which extend as their names say.
The model's choices that it rests on: log entries 5, 36. -/
def Obligations.ScalarLoads : Prop :=
  ∀ (q : QuireId) (rd rs1 : GReg) (fd : FReg) (imm : Imm),
    Loads (.lb q rd rs1 imm) q rs1 imm 1 (fun c v => c.gw rd ((BitVec.ofNat 8 v).signExtend 64)) ∧
    Loads (.lbu q rd rs1 imm) q rs1 imm 1 (fun c v => c.gw rd ((BitVec.ofNat 8 v).setWidth 64)) ∧
    Loads (.lh q rd rs1 imm) q rs1 imm 2 (fun c v => c.gw rd ((BitVec.ofNat 16 v).signExtend 64)) ∧
    Loads (.lhu q rd rs1 imm) q rs1 imm 2 (fun c v => c.gw rd ((BitVec.ofNat 16 v).setWidth 64)) ∧
    Loads (.lw q rd rs1 imm) q rs1 imm 4 (fun c v => c.gw rd ((BitVec.ofNat 32 v).signExtend 64)) ∧
    Loads (.lwu q rd rs1 imm) q rs1 imm 4 (fun c v => c.gw rd ((BitVec.ofNat 32 v).setWidth 64)) ∧
    Loads (.ld q rd rs1 imm) q rs1 imm 8 (fun c v => c.gw rd (BitVec.ofNat 64 v)) ∧
    Loads (.flw q fd rs1 imm) q rs1 imm 4 (fun c v => { c with f := c.f.set fd ((BitVec.ofNat 32 v).setWidth 64) }) ∧
    Loads (.fld q fd rs1 imm) q rs1 imm 8 (fun c v => { c with f := c.f.set fd (BitVec.ofNat 64 v) })

/-- Memory with the low bytes of v stored, lowest first, at the local addresses of `pas`. -/
def Sys2Proof.storedAt (m : List Host.Cell) (pas : List Nat) (v : W64) : List Host.Cell :=
  (pas.zip (leBytes pas.length v.toNat)).foldl (fun m e => sSet unlistedByte m (localOf e.1) e.2) m

/-- A store to memory of the block: its bytes go to the translated addresses, lowest first, and nothing else changes but
what caches hold. -/
def Sys2Proof.Stores (i : Instr) (q : QuireId) (rs1 : GReg) (imm : Imm) (n : Nat) (val : Quire → W64) : Prop :=
  ∀ (s t u : State) (pas : List Nat), s.Ready q (immLen imm) t →
    let va := (t.q q).gr rs1 + immVal imm
    Passes t q .store 3 rs1 va n pas u →
    let d := u.drain q
    InMemory d pas → RoomToEvict (d.q q) → (d.q q).plain ((d.q q).past (immLen imm)) →
    ∃ w : State, OnlyCaches { d with mem := storedAt d.mem pas (val (u.q q)) } w ∧
      exec i s = .next (w.retiredAs q (w.q q) ((w.q q).past (immLen imm))) ∧
      (Canon d.mem → ∀ a, (∀ pa ∈ pas, localOf pa ≠ a) → w.byte a = d.byte a)

/-- R85: stores write the low 1, 2, 4 or 8 bytes of their register.
The model's choice that it rests on: log entry 36. -/
def Obligations.ScalarStores : Prop :=
  ∀ (q : QuireId) (rs2 rs1 : GReg) (fs2 : FReg) (imm : Imm),
    Stores (.sb q rs2 rs1 imm) q rs1 imm 1 (fun c => c.gr rs2) ∧
    Stores (.sh q rs2 rs1 imm) q rs1 imm 2 (fun c => c.gr rs2) ∧
    Stores (.sw q rs2 rs1 imm) q rs1 imm 4 (fun c => c.gr rs2) ∧
    Stores (.sd q rs2 rs1 imm) q rs1 imm 8 (fun c => c.gr rs2) ∧
    Stores (.fsw q fs2 rs1 imm) q rs1 imm 4 (fun c => c.f[fs2]) ∧
    Stores (.fsd q fs2 rs1 imm) q rs1 imm 8 (fun c => c.f[fs2])

/-- R236, R239: LD or SD whose base is g63 and whose address lies below the stack in force raises
STACK_LIMIT, and one that its translation refuses the exception of that check, in either case with its own address. -/
def Obligations.AccessFaults : Prop :=
  ∀ (q : QuireId) (rd rs1 : GReg) (imm : Imm) (s t u : State) (e : Exc), s.Ready q (immLen imm) t →
    let va := (t.q q).gr rs1 + immVal imm
    ((t.q q).stackLow rs1 va = true →
      exec (.ld q rd rs1 imm) s = .next ((t.flushEvents q).raise q ⟨16, 2, va, 0, false⟩) ∧
      exec (.sd q rd rs1 imm) s = .next ((t.flushEvents q).raise q ⟨16, 3, va, 0, false⟩)) ∧
    ((t.q q).stackLow rs1 va = false → t.access q .load 2 0 true va 8 = (.error e, u) →
      exec (.ld q rd rs1 imm) s = .next ((u.flushEvents q).raise q e)) ∧
    ((t.q q).stackLow rs1 va = false → t.access q .store 3 0 true va 8 = (.error e, u) →
      exec (.sd q rd rs1 imm) s = .next ((u.flushEvents q).raise q e))

/-- An atomic at memory of the block (R87, R88, R285). With rd, in L2 that owns the line: the old value goes to rd and the
new one to memory, at once. Posted: it is queued. With rd, elsewhere: it is queued and the quire waits for its result. -/
def Sys2Proof.Atomics (i : GReg → Instr) (q : QuireId) (rd rs1 rs2 : GReg) (n code : Nat)
    (new : Nat → Nat → Nat → Nat) : Prop :=
  ∀ (s t u : State) (pas : List Nat), s.Ready q 4 t →
    let va := (t.q q).gr rs1
    Passes t q (.atomic (code = 0x0A)) 4 rs1 va n pas u →
    let a := localOf (pas.headD 0)
    let b := ((t.q q).gr rs2).toNat % 2 ^ (8 * n)
    let c := ((t.q q).gr rd).toNat % 2 ^ (8 * n)
    let d := (u.drain q).modQ q (fun c => c.l1dDrop a n)
    let e : FarAtomic := ⟨a, n, BitVec.ofNat 5 code, BitVec.ofNat 64 b, BitVec.ofNat 64 c, some q, rd = 0, va, none⟩
    (u.drain q).remotePa (pas.headD 0) = false → (regionOf a).memory = true → (d.q q).plain ((d.q q).past 4) →
    (rd ≠ 0 → (regionOf a).coherent = true → d.ownsLine q a = true →
      ∃ w, OnlyCaches { d with mem := (d.writeList a (leBytes n (new (d.readN a n) b c))).mem } w ∧
        exec (i rd) s = .next (w.retiredAs q ((w.q q).gw rd (BitVec.ofNat 64 (d.readN a n))) ((w.q q).past 4))) ∧
    (rd = 0 → exec (i rd) s = .next (({ d with atomics := d.atomics ++ [e] } : State).retiredAs q (d.q q) ((d.q q).past 4))) ∧
    (rd ≠ 0 → ((regionOf a).coherent && d.ownsLine q a) = false → exec (i rd) s =
      .next ((({ d with atomics := d.atomics ++ [e] } : State).modQ q
        (fun c => { c with stall := .atomic (.g rd n false) })).flushEvents q))

/-- The signed value of a code of n bytes. -/
def Sys2Proof.signedOf (n x : Nat) : Int := (BitVec.ofNat (8 * n) x).toInt

/-- R87: the atomic operations, on 4 or 8 bytes.
The model's choice that it rests on: log entry 37. -/
def Obligations.ScalarAtomics : Prop :=
  ∀ (q : QuireId) (rd rs1 rs2 : GReg) (dbl : Bool),
    let n := if dbl then 8 else 4
    Atomics (fun r => .swap q r rs1 rs2 dbl) q rd rs1 rs2 n 0 (fun _ b _ => b) ∧
    Atomics (fun r => .aadd q r rs1 rs2 dbl) q rd rs1 rs2 n 1 (fun o b _ => (o + b) % 2 ^ (8 * n)) ∧
    Atomics (fun r => .aand q r rs1 rs2 dbl) q rd rs1 rs2 n 2 (fun o b _ => o &&& b) ∧
    Atomics (fun r => .aor q r rs1 rs2 dbl) q rd rs1 rs2 n 3 (fun o b _ => o ||| b) ∧
    Atomics (fun r => .axor q r rs1 rs2 dbl) q rd rs1 rs2 n 4 (fun o b _ => o ^^^ b) ∧
    Atomics (fun r => .amin q r rs1 rs2 dbl) q rd rs1 rs2 n 5 (fun o b _ => if signedOf n b < signedOf n o then b else o) ∧
    Atomics (fun r => .amax q r rs1 rs2 dbl) q rd rs1 rs2 n 6 (fun o b _ => if signedOf n o < signedOf n b then b else o) ∧
    Atomics (fun r => .aminu q r rs1 rs2 dbl) q rd rs1 rs2 n 7 (fun o b _ => min o b) ∧
    Atomics (fun r => .amaxu q r rs1 rs2 dbl) q rd rs1 rs2 n 8 (fun o b _ => max o b) ∧
    (rd ≠ 0 → Atomics (fun r => .cas q r rs1 rs2 dbl) q rd rs1 rs2 n 9 (fun o b c => if o = c then b else o)) ∧
    Atomics (fun r => .atomicFadd q r rs1 rs2 dbl) q rd rs1 rs2 n 0x0A (fun o b _ =>
      (addVals (if dbl then fp64 else fp32) ⟨.rne, false, 0, false⟩ ((if dbl then fp64 else fp32).read false o)
        ((if dbl then fp64 else fp32).read false b)).1)

/-- R286, R570: the oldest atomic queued at a unit executes in memory; a posted one is gone, another keeps its old value,
which ATOMIC_RESULT delivers to the quire that waits.
The model's choice that it rests on: log entry 37. -/
def Obligations.FarAtomics : Prop :=
  (∀ (s : State) (unit : BitVec 16) (e : FarAtomic),
    s.atomics.find? (fun e => e.result.isNone && s.unitOf e.addr = unit.toNat) = some e →
    ∃ w, exec (.farAtomicExecute unit) s = .next w ∧
      w.mem = (s.writeList e.addr (leBytes e.bytes
        (atomicNew e.op.toNat e.bytes (s.readN e.addr e.bytes) e.b.toNat e.cmp.toNat))).mem ∧
      (e.posted = true → w.atomics = s.atomics.erase e) ∧
      (e.posted = false → w.atomics = s.atomics.replace e { e with result := some (BitVec.ofNat 64 (s.readN e.addr e.bytes)) }) ∧
      (∀ j, ∃ a b v, w.q j = { s.q j with l1d := a, l2 := b, victim := v }) ∧ w.win = s.win ∧ w.poison = s.poison) ∧
  (∀ (s : State) (q : QuireId) (rd : GReg) (n : Nat) (e : FarAtomic) (x : W64),
    (s.q q).stall = .atomic (.g rd n false) → (s.q q).st = .running →
    s.atomics.find? (fun e => e.quire = some q && !e.posted && e.result.isSome) = some e → e.result = some x →
    (s.q q).plain ((s.q q).past 4) →
    ∃ w, exec (.atomicResult q) s = .next w ∧ w.atomics = s.atomics.erase e ∧ w.mem = s.mem ∧
      (w.q q).stall = .none ∧ (w.q q).pc = ((s.q q).past 4).setWidth 56 ∧
      (∀ r, (w.q q).gr r = if r = rd ∧ rd ≠ 0 then BitVec.ofNat 64 (x.toNat % 2 ^ (8 * n)) else (s.q q).gr r) ∧
      (∀ j, j ≠ q → w.q j = s.q j))

/-! ## The block's step, its reset, and memory's form -/

/-- A step runs the command at the front of the queue on the state with the rest of the queue; on an empty queue the block
idles for a nanosecond, in which nothing else happens while no host request waits and no array error is drawn.
The model's choices that it rests on: log entries 18, 189. -/
def Obligations.StepRunsFront : Prop :=
  ∀ (s : State) (c : Instr) (r : List Instr),
    step { s with pending := c :: r } = exec c { s with pending := r } ∧
    (s.hostHeld = [] → s.down = true ∨ s.fresh.1.toNat % 256 = 0 →
      step { s with pending := [] } = .next { s with pending := [], gtime := s.gtime + 1, free := s.free + 1 })

/-- What reset leaves (R521 and the registers' own tables): no command waits, no memory, stream, queue, fault record,
outstanding request or error is held; every quire is OFFLINE at machine level with vectors and accumulators zero and no
tile configured; STATUS, VTYPE, PLCFG, PLNORM, SLCFG and Q_PREEMPT read as their tables say; and every engine holds
vector 0 in bank 8, its context banks free. The general and FP registers at zero are the model's choice.
The model's choices that it rests on: log entries 19, 20, 21. -/
def Obligations.ResetState : Prop :=
  State.reset.pending = [] ∧ State.reset.mem = [] ∧ State.reset.streams = [] ∧ State.reset.queues = [] ∧
  State.reset.xfqHeld = [] ∧ State.reset.tags = [] ∧ State.reset.hostReqs = [] ∧ State.reset.poison = [] ∧
  (∀ b : Fin 4, State.reset.errBanks[b] = []) ∧
  (∀ q : QuireId, let c := State.reset.q q
    c.st = .offline ∧ c.stall = .none ∧ c.irq = 0 ∧ c.pl = 2 ∧
    c.crGet 0x000 = 0x000F2000 ∧ c.crGet 0x020 = 0 ∧ c.crGet 0x021 = 0 ∧ c.crGet 0x023 = 0 ∧ c.crGet 0x031 = 3 ∧
    c.crGet 0x056 = 0x00FF8001 ∧ c.crGet 0x058 = 0x3FB8AA3B ∧ c.crGet 0x05B = 7 ∧ c.crGet 0x080 = 0 ∧
    (∀ r : VReg, c.v[r] = 0) ∧ (∀ r : MReg, c.m[r] = 0) ∧ (∀ a : Fin 2, c.acc[a].words = 0) ∧
    (∀ t : TReg, c.tile[t].cfg = false) ∧ (∀ r : GReg, c.gr r = 0) ∧ (∀ r : FReg, c.f[r] = 0) ∧
    State.reset.winRead false (0x100020 + 0x10000 * q.val) false = 20) ∧
  (∀ e : EngineId, (State.reset.engines[e].banks[8]).st = .ready ∧ (State.reset.engines[e].banks[8]).exc = true ∧
    ∀ b : Fin 8, (State.reset.engines[e].banks[b.castSucc]).st = .free) ∧
  (∀ p : Fin 24, State.reset.ports[p].st = 1)

/-- A state that lists memory in its canonical form still does after any step (log entry 3).
The model's choice that it rests on: log entry 3. -/
def Obligations.MemoryCanonicalKept : Prop :=
  ∀ s t : State, Canon s.mem → step s = .next t → Canon t.mem

/-- Reset memory is in its canonical form.
The model's choice that it rests on: log entry 3. -/
def Obligations.ResetMemoryCanonical : Prop := Canon State.reset.mem

/-! ## Vectors (04) -/

/-- The configuration that vector instructions outside VLD and VST need (R111). -/
abbrev Sys2Proof.VectorReady (c : Quire) : Prop := c.vl ≤ 32768 / c.sew ∧ c.vstart = 0

/-- Element n of a destination whose elements are w bits wide (R105). -/
def Sys2Proof.destElem (c : Quire) (masked : Bool) (w : Nat) (old : VWord) (f : Nat → Nat) (n : Nat) : Nat :=
  if n < c.vl then
    if !masked || c.mask.getLsbD n then f n % 2 ^ w else if (c.crGet 0x031).getLsbD 5 then 0 else elem old w n
  else if (c.crGet 0x031).getLsbD 4 then 0 else elem old w n

/-- A quire with a vector register replaced, its group dirty (R106). -/
def Sys2Proof.setV (c : Quire) (vd : VReg) (x : VWord) : Quire :=
  { c with v := c.v.set vd x, vdirty := setBit c.vdirty (vd.val / 4) true }

/-- A quire with a mask register replaced (R106). -/
def Sys2Proof.setM (c : Quire) (md : MReg) (x : MWord) : Quire :=
  { c with m := c.m.set md x, vdirty := setBit c.vdirty 8 true }

/-- A vector instruction: illegal where its form or mode is not accepted, VECTOR_CONFIG where the configuration or its own
requirement fails, and otherwise it changes its quire by `F` (R111). -/
def Sys2Proof.VectorRuns (i : Instr) (q : QuireId) (len : Nat) (legal ok : Quire → Prop) (F : Quire → Quire) : Prop :=
  TrapsWhen (fun c => ¬ legal c) i q len excIllegal ∧
  TrapsWhen (fun c => legal c ∧ ¬ (VectorReady c ∧ ok c)) i q len (exc 8) ∧
  RetiresWhen (fun c => legal c ∧ VectorReady c ∧ ok c) i q len F (Quire.past len)

/-- A form that the opcode map leaves undefined is illegal (R66). -/
def Sys2Proof.IllegalForm (i : Instr) (q : QuireId) : Prop :=
  ∀ s t, s.Ready q 4 t → exec i s = .next (t.raise q excIllegal)

/-- R102, R103, R105, R110, R111: VSETVL, and the element rule of every destination. -/
def Obligations.VectorConfiguration : Prop :=
  (∀ (q : QuireId) (rd rs1 : GReg) (imm : BitVec 12),
    (imm.toNat < 512 ∧ imm.toNat % 8 ≤ 3 → Retires (.vsetvl q rd rs1 imm) q 4 (fun c =>
      let vlmax : Nat := 32768 / (8 * 2 ^ (imm.toNat % 8))
      let vl : W64 := BitVec.ofNat 64 (if rs1 = 0 then vlmax else min (c.gr rs1).toNat vlmax)
      (((c.crSet 0x031 (imm.setWidth 64)).crSet 0x030 vl).crSet 0x032 0).gw rd vl) (Quire.past 4)) ∧
    (¬ (imm.toNat < 512 ∧ imm.toNat % 8 ≤ 3) → IllegalForm (.vsetvl q rd rs1 imm) q)) ∧
  (∀ (c : Quire) (m : Bool) (w : Nat) (old : VWord) (skip : Nat → Bool) (f : Nat → Nat) (n : Nat),
    (w = 8 ∨ w = 16 ∨ w = 32 ∨ w = 64) → n < 32768 / w →
    elem (c.dest m w old skip f) w n =
      (if skip n = true then elem old w n else destElem c m w old f n)) ∧
  (∀ (c : Quire) (r : VReg) (x : VWord), (setV c r x).v[r] = x ∧ ∀ p : VReg, p ≠ r → (setV c r x).v[p] = c.v[p])

/-- A floating-point vector instruction that rounds (R42, R46, R51, R105, R109, R112). -/
def Sys2Proof.VRounds (i : Instr) (q : QuireId) (m : Bool) (vd : VReg) (rm : Ext)
    (f : Quire → Fmt → Rnd → Nat → Nat × Flags) : Prop :=
  ∃ F, VectorRuns i q (extLen rm) (fun c => ModeLegal c .vec rm) (fun c => c.vfmt ≠ none) F ∧
    ∀ c ft, ModeLegal c .vec rm → c.vfmt = some ft →
      let md := modeIn c .vec rm
      let g (n : Nat) : Nat × Flags := f c ft (c.rnd .vec md false n 0) n
      let d := c.setFlags .vec ((c.active m).foldl (fun a n => a ||| (g n).2) 0)
      ∃ x : VWord, F c = (if c.active m = [] then setV d vd x else (setV d vd x).countSr md) ∧
        ∀ n < 32768 / ft.width, elem x ft.width n = destElem c m ft.width c.v[vd] (fun n => (g n).1) n

/-- A floating-point vector instruction that does not round (R51, R105, R109, R112). -/
def Sys2Proof.VKeeps (i : Instr) (q : QuireId) (m : Bool) (vd : VReg) (rm : Ext) (f : Quire → Fmt → Nat → Nat × Flags) :
    Prop :=
  ∃ F, VectorRuns i q (extLen rm) (fun _ => rm = none ∨ rm = some 0) (fun c => c.vfmt ≠ none) F ∧
    ∀ c ft, c.vfmt = some ft →
      let d := c.setFlags .vec ((c.active m).foldl (fun a n => a ||| (f c ft n).2) 0)
      ∃ x : VWord, F c = setV d vd x ∧
        ∀ n < 32768 / ft.width, elem x ft.width n = destElem c m ft.width c.v[vd] (fun n => (f c ft n).1) n

/-- R112, R113: the floating-point functions of VF and VFS, whose second operand is vs2 or the scalar register, and VFEXP2,
within whose error bound the value is free (log entry 9).
The model's choices that it rests on: log entries 9, 162. -/
def Obligations.VectorFloat : Prop :=
  ∀ (q : QuireId) (m sc : Bool) (vd vs1 : VReg) (rs2 : Fin 32) (rm : Ext),
    let a (c : Quire) (F : Fmt) (n : Nat) : Nat := elem c.v[vs1] F.width n
    let b (c : Quire) (F : Fmt) (n : Nat) : Nat :=
      if sc then c.f[rs2].toNat % 2 ^ F.width else elem c.v[rs2] F.width n
    let x (c : Quire) (F : Fmt) (n : Nat) : FVal := F.read c.strict (a c F n)
    let y (c : Quire) (F : Fmt) (n : Nat) : FVal := F.read c.strict (b c F n)
    let z (c : Quire) (F : Fmt) (n : Nat) : FVal := F.read c.strict (elem c.v[vd] F.width n)
    let sign (c : Quire) (F : Fmt) (n : Nat) (g : Bool → Bool → Bool) : Nat × Flags :=
      (a c F n % 2 ^ (F.width - 1) +
        (if g (decide (2 ^ (F.width - 1) ≤ a c F n)) (decide (2 ^ (F.width - 1) ≤ b c F n)) then 2 ^ (F.width - 1) else 0), 0)
    VRounds (.vfadd q m sc vd vs1 rs2 rm) q m vd rm (fun c F r n => addVals F r (x c F n) (y c F n)) ∧
    VRounds (.vfsub q m sc vd vs1 rs2 rm) q m vd rm (fun c F r n => addVals F r (x c F n) (y c F n).negate) ∧
    VRounds (.vfmul q m sc vd vs1 rs2 rm) q m vd rm (fun c F r n => mulVals F r (x c F n) (y c F n)) ∧
    VRounds (.vfdiv q m sc vd vs1 rs2 rm) q m vd rm (fun c F r n => divVals F r (x c F n) (y c F n)) ∧
    VRounds (.vfsqrt q m vd vs1 rm) q m vd rm (fun c F r n => sqrtVal F r (x c F n)) ∧
    VRounds (.vfmadd q m sc vd vs1 rs2 rm) q m vd rm (fun c F r n => fmaVals F r (x c F n) (y c F n) (z c F n)) ∧
    VRounds (.vfmsub q m sc vd vs1 rs2 rm) q m vd rm (fun c F r n => fmaVals F r (x c F n) (y c F n) (z c F n).negate) ∧
    VRounds (.vfnmadd q m sc vd vs1 rs2 rm) q m vd rm
      (fun c F r n => fmaVals F r (x c F n).negate (y c F n) (z c F n).negate) ∧
    VRounds (.vfnmsub q m sc vd vs1 rs2 rm) q m vd rm (fun c F r n => fmaVals F r (x c F n).negate (y c F n) (z c F n)) ∧
    VKeeps (.vfmin q m sc vd vs1 rs2 rm) q m vd rm (fun c F n => minMaxVals F false (x c F n) (y c F n)) ∧
    VKeeps (.vfmax q m sc vd vs1 rs2 rm) q m vd rm (fun c F n => minMaxVals F true (x c F n) (y c F n)) ∧
    VKeeps (.vfsgn q m sc vd vs1 rs2 rm) q m vd rm (fun c F n => sign c F n (fun _ b => b)) ∧
    VKeeps (.vfsgnn q m sc vd vs1 rs2 rm) q m vd rm (fun c F n => sign c F n (fun _ b => !b)) ∧
    VKeeps (.vfsgnx q m sc vd vs1 rs2 rm) q m vd rm (fun c F n => sign c F n (fun a b => a ^^ b)) ∧
    (∀ (s t : State) (F : Fmt), s.Ready q (extLen rm) t → rm = none ∨ rm = some 0 → VectorReady (t.q q) →
      (t.q q).sew ≠ 64 → (t.q q).vfmt = some F → (t.q q).plain ((t.q q).past (extLen rm)) →
      ∃ (u : Nat → Nat) (w : VWord),
        let c := t.q q
        let g (n : Nat) : Nat × Flags := exp2Val F c.strict (u n) (x c F n)
        exec (.vfexp2 q m vd vs1 rm) s = .next (({ t with free := t.free + c.vl } : State).retiredAs q
          (setV (c.setFlags .vec ((c.active m).foldl (fun a n => a ||| (g n).2) 0)) vd w) (c.past (extLen rm))) ∧
        ∀ n < 32768 / F.width, elem w F.width n = destElem c m F.width c.v[vd] (fun n => (g n).1) n)

/-- An integer vector instruction: the codes of its results are their values modulo 2^SEW (R105, R114). -/
def Sys2Proof.VInteger (i : Instr) (q : QuireId) (m sc : Bool) (vd vs1 : VReg) (rs2 : BitVec 6)
    (f : (w a b d : Nat) → Int × Flags) : Prop :=
  (sc = false → 32 ≤ rs2.toNat → IllegalForm i q) ∧
  (sc = true ∨ rs2.toNat < 32 →
    ∃ F, VectorRuns i q 4 (fun _ => True) (fun _ => True) F ∧
      ∀ c, let w := c.sew
        let g (n : Nat) : Int × Flags := f w (elem c.v[vs1] w n)
          (if sc then (c.gr rs2.toFin).toNat % 2 ^ w else elem (c.v.getD rs2.toNat 0) w n) (elem c.v[vd] w n)
        let d := c.setFlags .vec ((c.active m).foldl (fun a n => a ||| (g n).2) 0)
        ∃ x : VWord, F c = setV d vd x ∧
          ∀ n < 32768 / w, elem x w n = destElem c m w c.v[vd] (fun n => ((g n).1 % 2 ^ w).toNat) n)

/-- R35, R114: the integer functions of VI and VIS. -/
def Obligations.VectorInteger : Prop :=
  ∀ (q : QuireId) (m sc : Bool) (vd vs1 : VReg) (rs2 : BitVec 6),
    let S (w a : Nat) : Int := (BitVec.ofNat w a).toInt
    let I (i : Instr) (f : Nat → Nat → Nat → Int) : Prop := VInteger i q m sc vd vs1 rs2 (fun w a b _ => (f w a b, 0))
    let sat (lo hi x : Int) : Int × Flags := if x < lo then (lo, fIOV) else if hi < x then (hi, fIOV) else (x, 0)
    let div (signed quot : Bool) (w a b : Nat) : Int × Flags :=
      if b = 0 then (if quot then -1 else a, fIDZ)
      else if signed ∧ a = 2 ^ (w - 1) ∧ b = 2 ^ w - 1 then (if quot then (a, fIOV) else (0, 0))
      else if signed then (if quot then (S w a).tdiv (S w b) else (S w a).tmod (S w b), 0)
      else (((if quot then a / b else a % b : Nat) : Int), 0)
    I (.vadd q m sc vd vs1 rs2) (fun _ a b => a + b) ∧
    I (.vsub q m sc vd vs1 rs2) (fun _ a b => a - b) ∧
    I (.vand q m sc vd vs1 rs2) (fun _ a b => ((a &&& b : Nat) : Int)) ∧
    I (.vor q m sc vd vs1 rs2) (fun _ a b => ((a ||| b : Nat) : Int)) ∧
    I (.vxor q m sc vd vs1 rs2) (fun _ a b => ((a ^^^ b : Nat) : Int)) ∧
    I (.vsll q m sc vd vs1 rs2) (fun w a b => a * 2 ^ (b % w)) ∧
    I (.vsrl q m sc vd vs1 rs2) (fun w a b => ((a / 2 ^ (b % w) : Nat) : Int)) ∧
    I (.vsra q m sc vd vs1 rs2) (fun w a b => S w a / 2 ^ (b % w)) ∧
    I (.vmin q m sc vd vs1 rs2) (fun w a b => min (S w a) (S w b)) ∧
    I (.vmax q m sc vd vs1 rs2) (fun w a b => max (S w a) (S w b)) ∧
    I (.vminu q m sc vd vs1 rs2) (fun _ a b => min a b) ∧
    I (.vmaxu q m sc vd vs1 rs2) (fun _ a b => max a b) ∧
    I (.vmul q m sc vd vs1 rs2) (fun _ a b => a * b) ∧
    I (.vmulh q m sc vd vs1 rs2) (fun w a b => S w a * S w b / 2 ^ w) ∧
    I (.vmulhu q m sc vd vs1 rs2) (fun w a b => ((a * b / 2 ^ w : Nat) : Int)) ∧
    VInteger (.vdiv q m sc vd vs1 rs2) q m sc vd vs1 rs2 (fun w a b _ => div true true w a b) ∧
    VInteger (.vdivu q m sc vd vs1 rs2) q m sc vd vs1 rs2 (fun w a b _ => div false true w a b) ∧
    VInteger (.vrem q m sc vd vs1 rs2) q m sc vd vs1 rs2 (fun w a b _ => div true false w a b) ∧
    VInteger (.vremu q m sc vd vs1 rs2) q m sc vd vs1 rs2 (fun w a b _ => div false false w a b) ∧
    VInteger (.vsadd q m sc vd vs1 rs2) q m sc vd vs1 rs2
      (fun w a b _ => sat (-2 ^ (w - 1)) (2 ^ (w - 1) - 1) (S w a + S w b)) ∧
    VInteger (.vsaddu q m sc vd vs1 rs2) q m sc vd vs1 rs2 (fun w a b _ => sat 0 (2 ^ w - 1) (a + b)) ∧
    VInteger (.vssub q m sc vd vs1 rs2) q m sc vd vs1 rs2
      (fun w a b _ => sat (-2 ^ (w - 1)) (2 ^ (w - 1) - 1) (S w a - S w b)) ∧
    VInteger (.vssubu q m sc vd vs1 rs2) q m sc vd vs1 rs2 (fun w a b _ => sat 0 (2 ^ w - 1) (a - b)) ∧
    VInteger (.vmacc q m sc vd vs1 rs2) q m sc vd vs1 rs2 (fun _ a b d => (a * b + d, 0))

/-- Bit n of a destination mask (R105). -/
def Sys2Proof.destBit (c : Quire) (masked : Bool) (old : MWord) (f : Nat → Bool) (n : Nat) : Bool :=
  if n < c.vl then
    if !masked || c.mask.getLsbD n then f n else !(c.crGet 0x031).getLsbD 5 && old.getLsbD n
  else !(c.crGet 0x031).getLsbD 4 && old.getLsbD n

/-- A logical mask function (R116). -/
def Sys2Proof.MaskOp (i : Instr) (q : QuireId) (md : MReg) (f : Quire → Nat → Bool) : Prop :=
  ∃ F, VectorRuns i q 4 (fun _ => True) (fun _ => True) F ∧
    ∀ c, ∃ x, F c = setM c md x ∧ ∀ n < 4096, x.getLsbD n = destBit c false c.m[md] (f c) n

/-- R115, R116: comparisons to a mask, with the flags of their active elements; the logical mask functions; and the count
and the first of a mask's 1 bits below VL. -/
def Sys2Proof.VectorMasks : Prop :=
  ∀ (q : QuireId) (m sc : Bool) (cond : BitVec 4) (rd : GReg) (md ms1 ms2 : MReg) (vs1 : VReg) (rs2 : BitVec 6),
    let k := cond.toNat
    let fp : Prop := k < 8
    let ok : Prop := k ≠ 6 ∧ k ≠ 7 ∧ ((sc = true ∧ ¬ fp) ∨ rs2.toNat < 32)
    (¬ ok → IllegalForm (.vcmp q m sc cond md vs1 rs2) q) ∧
    (ok → ∃ F, VectorRuns (.vcmp q m sc cond md vs1 rs2) q 4 (fun _ => True) (fun c => fp → c.vfmt ≠ none) F ∧
      ∀ c, (fp → c.vfmt ≠ none) →
        let w := c.sew
        let a (n : Nat) : Nat := elem c.v[vs1] w n
        let b (n : Nat) : Nat :=
          if sc then (if k < 8 then (c.f.getD rs2.toNat 0).toNat % 2 ^ w else (c.gr rs2.toFin).toNat % 2 ^ w)
          else elem (c.v.getD rs2.toNat 0) w n
        let S (x : Nat) : Int := (BitVec.ofNat w x).toInt
        let g (n : Nat) : Bool × Flags :=
          if k < 8 then cmpFp k ((c.vfmt.getD fp64).read c.strict (a n)) ((c.vfmt.getD fp64).read c.strict (b n))
          else (decide (if k = 8 then a n = b n else if k = 9 then a n ≠ b n else if k = 10 then S (a n) < S (b n)
            else if k = 11 then a n < b n else if k = 12 then S (a n) ≤ S (b n) else if k = 13 then a n ≤ b n
            else if k = 14 then S (b n) < S (a n) else b n < a n), 0)
        ∃ x, F c = setM (c.setFlags .vec ((c.active m).foldl (fun f n => f ||| (g n).2) 0)) md x ∧
          ∀ n < 4096, x.getLsbD n = destBit c m c.m[md] (fun n => (g n).1) n) ∧
    MaskOp (.mand q md ms1 ms2) q md (fun c n => c.m[ms1].getLsbD n && c.m[ms2].getLsbD n) ∧
    MaskOp (.mor q md ms1 ms2) q md (fun c n => c.m[ms1].getLsbD n || c.m[ms2].getLsbD n) ∧
    MaskOp (.mxor q md ms1 ms2) q md (fun c n => c.m[ms1].getLsbD n ^^ c.m[ms2].getLsbD n) ∧
    MaskOp (.mandn q md ms1 ms2) q md (fun c n => c.m[ms1].getLsbD n && !c.m[ms2].getLsbD n) ∧
    MaskOp (.mnot q md ms1) q md (fun c n => !c.m[ms1].getLsbD n) ∧
    MaskOp (.mmv q md ms1) q md (fun c n => c.m[ms1].getLsbD n) ∧
    MaskOp (.mset q md) q md (fun _ _ => true) ∧
    MaskOp (.mclr q md) q md (fun _ _ => false) ∧
    VectorRuns (.mpopc q rd ms1) q 4 (fun _ => True) (fun _ => True) (fun c =>
      c.gw rd (BitVec.ofNat 64 ((List.range c.vl).filter (fun n => c.m[ms1].getLsbD n)).length)) ∧
    VectorRuns (.mfirst q rd ms1) q 4 (fun _ => True) (fun _ => True) (fun c =>
      c.gw rd (((List.range c.vl).find? (fun n => c.m[ms1].getLsbD n)).elim (BitVec.allOnes 64) (BitVec.ofNat 64)))

/-- A permutation that writes vd: element n is `f n`, or, where `skip n`, keeps its value (R105, R118). -/
def Sys2Proof.Permutes (i : Instr) (q : QuireId) (m : Bool) (vd : VReg) (skip : Quire → Nat → Prop)
    (f : Quire → Nat → Nat → Nat) : Prop :=
  ∃ F, VectorRuns i q 4 (fun _ => True) (fun _ => True) F ∧
    ∀ c, ∃ x, F c = setV c vd x ∧ ∀ n < 32768 / c.sew,
      (skip c n → elem x c.sew n = elem c.v[vd] c.sew n) ∧
      (¬ skip c n → elem x c.sew n = destElem c m c.sew c.v[vd] (f c c.sew) n)

/-- R108, R117, R118: permutations, whose destination, for a slide up, a gather or VCOMPRESS, is no source, and VCVT. -/
def Sys2Proof.VectorPermutations : Prop :=
  ∀ (q : QuireId) (m sat : Bool) (rd rs1 rs2 : GReg) (fd fs1 fs2 : FReg) (vd vs1 vs2 : VReg) (dst src : BitVec 4)
    (rm : BitVec 3),
    let never (_ : Quire) (_ : Nat) : Prop := False
    let E (c : Quire) (r : VReg) (w n : Nat) : Nat := elem c.v[r] w n
    let G (c : Quire) (r : GReg) : Nat := (c.gr r).toNat
    let X (c : Quire) : Nat := if 32768 / c.sew ≤ G c rs2 then 0 else E c vs1 c.sew (G c rs2)
    Permutes (.vmv q m vd vs1) q m vd never (fun c w n => E c vs1 w n) ∧
    Permutes (.vmerge q vd vs1 vs2) q false vd never
      (fun c w n => if c.mask.getLsbD n then E c vs1 w n else E c vs2 w n) ∧
    (vd = vs1 → IllegalForm (.vslideup q m vd vs1 rs2) q ∧ IllegalForm (.vslide1upF q m vd vs1 fs2) q ∧
      IllegalForm (.vslide1upG q m vd vs1 rs2) q ∧ IllegalForm (.vcompress q vd vs1) q) ∧
    (vd = vs1 ∨ vd = vs2 → IllegalForm (.vgather q m vd vs1 vs2) q) ∧
    (vd ≠ vs1 →
      Permutes (.vslideup q m vd vs1 rs2) q m vd (fun c n => n < G c rs2) (fun c w n => E c vs1 w (n - G c rs2)) ∧
      Permutes (.vslide1upF q m vd vs1 fs2) q m vd never
        (fun c w n => if n = 0 then c.f[fs2].toNat else E c vs1 w (n - 1)) ∧
      Permutes (.vslide1upG q m vd vs1 rs2) q m vd never
        (fun c w n => if n = 0 then G c rs2 else E c vs1 w (n - 1))) ∧
    Permutes (.vslidedown q m vd vs1 rs2) q m vd never
      (fun c w n => if 32768 / w ≤ n + G c rs2 then 0 else E c vs1 w (n + G c rs2)) ∧
    Permutes (.vslide1downF q m vd vs1 fs2) q m vd never
      (fun c w n => if n + 1 = c.vl then c.f[fs2].toNat else E c vs1 w (n + 1)) ∧
    Permutes (.vslide1downG q m vd vs1 rs2) q m vd never
      (fun c w n => if n + 1 = c.vl then G c rs2 else E c vs1 w (n + 1)) ∧
    (vd ≠ vs1 → vd ≠ vs2 → Permutes (.vgather q m vd vs1 vs2) q m vd never
      (fun c w n => if 32768 / w ≤ E c vs2 w n then 0 else E c vs1 w (E c vs2 w n))) ∧
    (vd ≠ vs1 → ∃ F, VectorRuns (.vcompress q vd vs1) q 4 (fun _ => True) (fun _ => True) F ∧
      ∀ c, ∃ x, F c = setV c vd x ∧ ∀ n < 32768 / c.sew, elem x c.sew n =
        (((List.range c.vl).filter (fun n => c.mask.getLsbD n && decide (c.vstart ≤ n)))[n]?).elim
          (if (c.crGet 0x031).getLsbD 4 then 0 else E c vd c.sew n) (E c vs1 c.sew)) ∧
    Permutes (.vbcastF q m vd fs1) q m vd never (fun c _ _ => c.f[fs1].toNat) ∧
    Permutes (.vbcastG q m vd rs1) q m vd never (fun c _ _ => G c rs1) ∧
    VectorRuns (.vextrG q rd vs1 rs2) q 4 (fun _ => True) (fun _ => True) (fun c => c.gw rd (BitVec.ofNat 64 (X c))) ∧
    VectorRuns (.vextrF q fd vs1 rs2) q 4 (fun _ => True) (fun _ => True)
      (fun c => { c with f := c.f.set fd (BitVec.ofNat 64 (X c)) }) ∧
    (∃ F, VectorRuns (.vinsG q vd rs1 rs2) q 4 (fun _ => True) (fun _ => True) F ∧
      ∀ c, ∃ x, F c = setV c vd x ∧ ∀ n < 32768 / c.sew, elem x c.sew n =
        (if n = G c rs2 ∧ n < c.vl then G c rs1 % 2 ^ c.sew else E c vd c.sew n)) ∧
    (let D := vtypeOf dst.toNat
     let T := vtypeOf src.toNat
     let ok : Prop := vcvtDefined D T = true ∧ (vcvtExact D T = true → rm = 0)
     (¬ ok → IllegalForm (.vcvt q dst src sat rm vd vs1) q) ∧
     (ok → ∃ F, VectorRuns (.vcvt q dst src sat rm vd vs1) q 4 (fun c => ModeLegal c .vec (some rm))
         (fun c => max D.width T.width = c.sew) F ∧
       ∀ c, ModeLegal c .vec (some rm) →
         let md := modeIn c .vec (some rm)
         let g (n : Nat) : Nat × Flags := vcvtVal D T (c.rnd .vec md sat n 0) (E c vs1 T.width n)
         ∃ x, F c = (let d := setV (c.setFlags .vec ((List.range c.vl).foldl (fun f n => f ||| (g n).2) 0)) vd x
             if vcvtRounds D T = true ∧ c.vl ≠ 0 then d.countSr md else d) ∧
           ∀ n < 32768 / D.width, elem x D.width n = destElem c false D.width c.v[vd] (fun n => (g n).1) n))

/-- The quire with a reduction's result: element 0 of vd, and the rest is tail (R119). -/
def Sys2Proof.PutsReduction (c d e : Quire) (vd : VReg) (r : Nat) : Prop :=
  ∃ x, e = setV d vd x ∧ ∀ n < 32768 / c.sew, elem x c.sew n =
    (if n = 0 then r % 2 ^ c.sew else if (c.crGet 0x031).getLsbD 4 then 0 else elem c.v[vd] c.sew n)

/-- An integer reduction over the active elements of vs1, from element 0 of vs2 (R119). -/
def Sys2Proof.Reduces (i : Instr) (q : QuireId) (m : Bool) (vd vs1 vs2 : VReg) (rm : Ext) (f : (w a b : Nat) → Nat) : Prop :=
  ∃ F, VectorRuns i q (extLen rm) (fun _ => rm = none ∨ rm = some 0) (fun _ => True) F ∧
    ∀ c, PutsReduction c c (F c) vd
      ((c.active m).foldl (fun a n => f c.sew a (elem c.v[vs1] c.sew n)) (elem c.v[vs2] c.sew 0))

/-- A floating-point reduction with flags (R119, R120). -/
def Sys2Proof.FloatReduces (i : Instr) (q : QuireId) (vd : VReg) (rm : Ext) (legal : Quire → Prop)
    (f : Quire → Fmt → Nat × Flags) : Prop :=
  ∃ F, VectorRuns i q (extLen rm) legal (fun c => c.vfmt ≠ none) F ∧
    ∀ c ft, legal c → c.vfmt = some ft → PutsReduction c (c.setFlags .vec (f c ft).2) (F c) vd (f c ft).1

/-- The value and flags of a run of steps, in order. -/
def Sys2Proof.inOrder (f : Nat → Nat → Nat × Flags) (a : Nat) (l : List Nat) : Nat × Flags :=
  l.foldl (fun p x => ((f p.1 x).1, p.2 ||| (f p.1 x).2)) (a, 0)

/-- R119, R120: reductions. VFREDSUM.O adds in element order, VFREDSUM.T by the tree of R120; SR is illegal for both. -/
def Sys2Proof.VectorReductions : Prop :=
  ∀ (q : QuireId) (m : Bool) (vd vs1 vs2 : VReg) (rm : Ext),
    let S (w a : Nat) : Int := (BitVec.ofNat w a).toInt
    let R (i : Instr) (f : Nat → Nat → Nat → Nat) : Prop := Reduces i q m vd vs1 vs2 rm f
    let es (c : Quire) : List Nat := (c.active m).map (elem c.v[vs1] c.sew)
    let sums (c : Quire) : Prop := ModeLegal c .vec rm ∧ modeIn c .vec rm ≠ .sr
    let plus (c : Quire) (F : Fmt) (a b : Nat) : Nat × Flags :=
      addVals F ⟨modeIn c .vec rm, c.strict, 0, false⟩ (F.read c.strict a) (F.read c.strict b)
    let pick (big : Bool) (c : Quire) (F : Fmt) (a b : Nat) : Nat × Flags :=
      minMaxVals F big (F.read c.strict a) (F.read c.strict b)
    R (.vredsum q m vd vs1 vs2 rm) (fun w a b => (a + b) % 2 ^ w) ∧
    R (.vredand q m vd vs1 vs2 rm) (fun _ a b => a &&& b) ∧
    R (.vredor q m vd vs1 vs2 rm) (fun _ a b => a ||| b) ∧
    R (.vredxor q m vd vs1 vs2 rm) (fun _ a b => a ^^^ b) ∧
    R (.vredmax q m vd vs1 vs2 rm) (fun w a b => if S w a < S w b then b else a) ∧
    R (.vredmin q m vd vs1 vs2 rm) (fun w a b => if S w b < S w a then b else a) ∧
    R (.vredmaxu q m vd vs1 vs2 rm) (fun _ a b => max a b) ∧
    R (.vredminu q m vd vs1 vs2 rm) (fun _ a b => min a b) ∧
    FloatReduces (.vfredmax q m vd vs1 vs2 rm) q vd rm (fun _ => rm = none ∨ rm = some 0)
      (fun c F => inOrder (pick true c F) (elem c.v[vs2] c.sew 0) (es c)) ∧
    FloatReduces (.vfredmin q m vd vs1 vs2 rm) q vd rm (fun _ => rm = none ∨ rm = some 0)
      (fun c F => inOrder (pick false c F) (elem c.v[vs2] c.sew 0) (es c)) ∧
    FloatReduces (.vfredsumO q m vd vs1 vs2 rm) q vd rm sums
      (fun c F => inOrder (plus c F) (elem c.v[vs2] c.sew 0) (es c)) ∧
    FloatReduces (.vfredsumT q m vd vs1 vs2 rm) q vd rm sums (fun c F =>
      let p := ((List.range 14).find? (fun p => decide (c.vl ≤ 2 ^ p))).getD 0
      let leaves := (List.range (2 ^ p)).map (fun n =>
        if n < c.vl && (!m || c.mask.getLsbD n) then some (elem c.v[vs1] c.sew n) else none)
      let t := redTree (plus c F) p leaves 0
      match t.1.headD none with
      | some x => ((plus c F (elem c.v[vs2] c.sew 0) x).1, t.2 ||| (plus c F (elem c.v[vs2] c.sew 0) x).2)
      | none => (elem c.v[vs2] c.sew 0, t.2))

/-- R108, R115 to R120: comparisons, masks, permutations, conversions and reductions.
The model's choices that it rests on: log entries 162, 173, 174. -/
def Obligations.VectorMasksAndReductions : Prop := VectorMasks ∧ VectorPermutations ∧ VectorReductions

/-! ## Vector memory (04) -/

/-- Memory with the low bytes of a number stored, lowest first, at the local addresses of `pas`. -/
def Sys2Proof.storedNat (m : List Host.Cell) (pas : List Nat) (v : Nat) : List Host.Cell :=
  (pas.zip (leBytes pas.length v)).foldl (fun m e => sSet unlistedByte m (localOf e.1) e.2) m

/-- The quire `d` that a VLD leaves of `c` (R104 to R106, R123, R538): elements VSTART to hi − 1 of each of its registers
take the values loaded, those from hi up are tail or stay as they were, every other register stays, and VSTART is `vs`. -/
def Sys2Proof.PutsLoaded (c d : Quire) (x : VMem) (vals : List (Nat × List Nat)) (hi : Nat) (tail : Bool) (vs : Nat) : Prop :=
  ∃ (V : Vector VWord 32) (b : BitVec 9),
    d = { c.crSet 0x032 (BitVec.ofNat 64 vs) with
      v := V
      vdirty := b
      events := c.events ++ [(0x0107, vals.length * x.nf * (x.bits / 8))] } ∧
    (∀ r : VReg, (∀ f < x.nf, x.reg f ≠ r) → V[r] = c.v[r]) ∧
    (∀ f < x.nf, ∀ n < 32768 / x.bits,
      let old := elem c.v[x.reg f] x.bits n
      elem V[x.reg f] x.bits n =
        if n < c.vstart then old
        else if n < hi then
          if !x.m || c.mask.getLsbD n then ((vals.find? (fun v => v.1 = n)).elim 0 (fun v => v.2.getD f 0)) % 2 ^ x.bits
          else if (c.crGet 0x031).getLsbD 5 then 0 else old
        else if tail && (c.crGet 0x031).getLsbD 4 then 0 else old)

/-- The physical addresses that a VST writes, element by element, in the states that its checks meet. -/
def Sys2Proof.vstTargets (q : QuireId) (x : VMem) (c : Quire) : List Nat → State → List Nat
  | [], _ => []
  | e :: r, s =>
    match s.checkElem q x c e 0 x.nf with
    | (.ok l, u) => l.flatten ++ vstTargets q x c r (u.storeElem q x c e 0 l).2
    | (.error _, _) => []

/-- The accesses of a VLD can begin, and every active element passes its checks and is read: its values, and the state
that the reads leave. -/
def Sys2Proof.ElemsRead (t : State) (q : QuireId) (x : VMem) (vals : List (Nat × List Nat)) (u : State) : Prop :=
  t.elemsWait q .load x = false ∧ (t.drain q).loadElems q x (t.q q) ((t.q q).active x.m) = ((vals, none), u)

/-- The accesses of a VST can begin, and every active element passes its checks and is written: what it stored in the
register window, and the state that the writes leave. -/
def Sys2Proof.ElemsWritten (t : State) (q : QuireId) (x : VMem) (posts : WinPosts) (u : State) : Prop :=
  t.elemsWait q .store x = false ∧ (t.drain q).storeElems q x (t.q q) ((t.q q).active x.m) = ((posts, none), u)

/-- R104, R108, R111, R116, R121 to R124: vector loads and stores. The addresses of an element; what the memory of this
block gives and takes; VLD and VST with no fault, with a fault at an element, and fault-first; and the mask forms.
The model's choices that it rests on: log entries 5, 147, 148, 167, 168. -/
def Obligations.VectorMemory : Prop :=
  (∀ (m : Bool) (mode w : Nat) (vd : VReg) (rs1 : GReg) (rs2 : BitVec 6) (c : Quire) (n f : Nat), mode < 4 →
    let x : VMem := ⟨m, mode, w, vd, rs1, rs2⟩
    let e : W64 := BitVec.ofNat 64 (2 ^ w)
    let i : W64 := BitVec.ofNat 64 n
    x.addr c n f = c.gr rs1 +
      (if mode = 0 then i * e else if mode = 1 then i * c.gr rs2.toFin
       else if mode = 2 then BitVec.ofNat 64 (elem (c.v.getD (rs2.toNat % 32) 0) (8 * 2 ^ w) n) * e
       else (i * BitVec.ofNat 64 (rs2.toNat + 1) + BitVec.ofNat 64 f) * e)) ∧
  (∀ (s : State) (q : QuireId) (va : W64) (pas : List Nat) (v : Nat), pas ≠ [] → InMemory s pas →
    RoomFor (s.q q) pas →
    (∃ w, s.readVec q pas = (leNat (pas.map (fun pa => s.byte (localOf pa))), w) ∧ OnlyCaches s w) ∧
    ∃ p w, s.writeVec q va pas v = ([], w) ∧ p ⊆ s.poison ∧
      OnlyCaches { s with mem := storedNat s.mem pas v, poison := p } w) ∧
  (∀ (q : QuireId) (m ff : Bool) (mode w : BitVec 2) (vd : VReg) (rs1 : GReg) (rs2 : BitVec 6),
    let x : VMem := ⟨m, mode.toNat, w.toNat, vd, rs1, rs2⟩
    let ok : Prop := (mode = 0 → rs2 = 0) ∧ (mode = 2 → rs2.toNat < 32) ∧
      (mode = 3 → 1 ≤ rs2.toNat ∧ rs2.toNat ≤ 7 ∧ vd.val + rs2.toNat ≤ 31)
    let fits (c : Quire) : Prop := c.vl ≤ 32768 / c.sew ∧ 8 * 2 ^ w.toNat = c.sew
    let ld := Instr.vld q m mode ff w vd rs1 rs2
    let st := Instr.vst q m mode ff w vd rs1 rs2
    (¬ (ok ∧ (ff = true → mode.toNat < 2)) → IllegalForm ld q) ∧
    (¬ (ok ∧ ff = false) → IllegalForm st q) ∧
    (ok → (ff = true → mode.toNat < 2) → TrapsWhen (fun c => ¬ fits c) ld q 4 (exc 8)) ∧
    (ok → ff = false → TrapsWhen (fun c => ¬ fits c) st q 4 (exc 8)) ∧
    (∀ (s t u : State) (vals : List (Nat × List Nat)), s.Ready q 4 t → ok → (ff = true → mode.toNat < 2) → fits (t.q q) →
      ElemsRead t q x vals u → (u.q q).plain ((u.q q).past 4) →
      ∃ d, PutsLoaded (u.q q) d x vals (u.q q).vl true 0 ∧ exec ld s = .next (u.retiredAs q d ((u.q q).past 4))) ∧
    (∀ (s t u v : State) (vals : List (Nat × List Nat)) (e : Nat) (y : Exc), s.Ready q 4 t → ok →
      (ff = true → mode.toNat < 2) → fits (t.q q) → t.elemsWait q .load x = false →
      (t.drain q).loadElems q x (t.q q) ((t.q q).active m) = ((vals, some (e, y, v)), u) →
      (u.q q).plain ((u.q q).past 4) →
        (ff = true → ((t.q q).active m).head? ≠ some e →
          ∃ d, PutsLoaded ((u.q q).crSet 0x030 (BitVec.ofNat 64 e)) d x vals e true 0 ∧
            exec ld s = .next (u.retiredAs q d ((u.q q).past 4))) ∧
        (ff = false ∨ ((t.q q).active m).head? = some e →
          ∃ d, PutsLoaded (v.q q) d x vals e false e ∧
            exec ld s = .next (((v.setQ q d).flushEvents q).raise q y))) ∧
    (∀ (s t u : State) (posts : WinPosts), s.Ready q 4 t → ok → ff = false → fits (t.q q) → ElemsWritten t q x posts u →
      (u.q q).plain ((u.q q).past 4) →
      exec st s = .next ((u.retiredAs q ((u.q q).crSet 0x032 0) ((u.q q).past 4)).winPosts q posts)) ∧
    (∀ (s t u : State) (posts : WinPosts) (stop : Option (Nat × Exc)), s.Ready q 4 t → ok → ff = false → fits (t.q q) →
      t.elemsWait q .store x = false →
      (t.drain q).storeElems q x (t.q q) ((t.q q).active m) = ((posts, stop), u) →
      (∀ e y, stop = some (e, y) → (u.q q).plain ((u.q q).past 4) → exec st s =
        .next ((((u.modQ q (fun c => c.crSet 0x032 (BitVec.ofNat 64 e))).flushEvents q).raise q y).winPosts q posts)) ∧
      (Canon t.mem → RoomFor ((t.drain q).q q) (vstTargets q x (t.q q) ((t.q q).active m) (t.drain q)) →
        ∀ a, (∀ pa ∈ vstTargets q x (t.q q) ((t.q q).active m) (t.drain q), localOf pa ≠ a) →
        u.byte a = (t.drain q).byte a))) ∧
  (∀ (q : QuireId) (mr : MReg) (rs1 : GReg) (s t u : State), s.Ready q 4 t →
    let c := t.q q
    let va := c.gr rs1
    let n := (c.vl + 7) / 8
    (¬ VectorReady c → exec (.mld q mr rs1) s = .next ((t.flushEvents q).raise q (exc 8)) ∧
      exec (.mst q mr rs1) s = .next ((t.flushEvents q).raise q (exc 8))) ∧
    (VectorReady c → t.l2WaitsSpan q .load va n = false →
      (∀ e, (t.drain q).access q .load 0xA 0 false va n = (.error e, u) →
        exec (.mld q mr rs1) s = .next ((u.flushEvents q).raise q e)) ∧
      (∀ pas v w, (t.drain q).access q .load 0xA 0 false va n = (.ok pas, u) → u.readVec q pas = (v, w) →
        (w.q q).plain ((w.q q).past 4) →
        ∃ y, exec (.mld q mr rs1) s = .next (w.retiredAs q (setM (w.q q) mr y) ((w.q q).past 4)) ∧
          ∀ i < 4096, y.getLsbD i = destBit (w.q q) false (w.q q).m[mr] (fun i => v.testBit i) i)) ∧
    (VectorReady c → t.l2WaitsSpan q .store va n = false →
      (∀ e, (t.drain q).access q .store 0xB 0 false va n = (.error e, u) →
        exec (.mst q mr rs1) s = .next ((u.flushEvents q).raise q e)) ∧
      (∀ pas posts w, (t.drain q).access q .store 0xB 0 false va n = (.ok pas, u) →
        u.writeVec q va pas (c.m[mr].toNat % 2 ^ (8 * n)) = (posts, w) → (w.q q).plain ((w.q q).past 4) →
        exec (.mst q mr rs1) s = .next ((w.retiredAs q (w.q q) ((w.q q).past 4)).winPosts q posts))))

/-! ## Tiles, press and plough (05 to 08) -/

/-- A PRESS domain that the hardware gated returns to ON before a tile, press or plough instruction (R508). -/
def Sys2Proof.woken (q : QuireId) (t : State) : State :=
  if t.domState (34 + q.val) = 1 then t.setFld (pwrDom (34 + q.val)) 19 18 0 else t

/-- As `RetiresWhen`, for a tile, press or plough instruction. -/
def Sys2Proof.PressRetires (p : Quire → Prop) (i : Instr) (q : QuireId) (len : Nat) (F : Quire → Quire) : Prop :=
  ∀ s t, s.Ready q len t → p (t.q q) → (F (t.q q)).plain ((t.q q).past len) →
    exec i s = .next ((woken q t).retiredAs q (F (t.q q)) ((t.q q).past len))

/-- The state after a tile, press or plough instruction that takes exception `code` with its cause in register `cr`. -/
def Sys2Proof.pressTrap (q : QuireId) (t : State) (code cr : Nat) (x : Nat × Nat) : State :=
  ((((woken q t).setQ q ((t.q q).crSet cr (BitVec.ofNat 64 (x.2 * 256 + x.1)))).flushEvents q)).raise q (exc code)

/-- As `TrapsWhen`, for a tile, press or plough instruction that records its cause: the register, and what it takes. -/
def Sys2Proof.PressTraps (i : Instr) (q : QuireId) (len : Nat) (code cr : Nat) (cause : Quire → Option (Nat × Nat)) : Prop :=
  ∀ s t x, s.Ready q len t → cause (t.q q) = some x → exec i s = .next (pressTrap q t code cr x)

/-- The counters that time moves (R185, R200), after an instruction that reaches the array: those of frozen, held and
waiting PRESSCLK are among them. -/
def Sys2Proof.pressCounters (c : Quire) : List Nat := [0x053, 0x054, 0x055] ++ c.timed.filter (fun n => 0x056 ≤ n)

/-- What TILE_STATE reports (R140): TSTART not zero, an unconfigured tile, a TSTART beyond the rows of a load or store. -/
def Sys2Proof.tileBad (row : Bool) (ts : List TReg) (c : Quire) : Option (Nat × Nat) :=
  if row = false ∧ (c.crGet 0x040).toNat % 256 ≠ 0 then some (0x10, 0)
  else match ts.find? (fun n => !c.tile[n].cfg) with
    | some n => some (0x11, n.val)
    | none => match row, ts with
      | true, n :: _ =>
        if c.tile[n].desc.toNat % 256 + 1 ≤ (c.crGet 0x040).toNat % 256 then some (0x12, n.val) else none
      | _, _ => none

/-- The first of a list of causes that holds. -/
def Sys2Proof.firstCause (l : List (Nat × Nat × Bool)) : Option (Nat × Nat) :=
  (l.find? (fun e => e.2.2)).map (fun e => (e.1, e.2.1))

/-- A TLD at this base and stride can begin, and every row from TSTART on passes its checks and is read into the tile; the
state that the reads leave. -/
def Sys2Proof.RowsRead (t : State) (q : QuireId) (td : TReg) (base stride : W64) (u : State) : Prop :=
  t.rowsWait q .load td base stride = false ∧
  (t.drain q).loadRows q td base stride (t.q q).tstart ((t.q q).tile[td].rows - (t.q q).tstart) = (none, u)

/-- A TST at this base and stride can begin, and every row from TSTART on passes its checks and is written; the state that
the writes leave. -/
def Sys2Proof.RowsWritten (t : State) (q : QuireId) (td : TReg) (base stride : W64) (u : State) : Prop :=
  t.rowsWait q .store td base stride = false ∧
  (t.drain q).storeRows q td base stride (t.q q).tstart ((t.q q).tile[td].rows - (t.q q).tstart) = .done u

/-- R134 to R144, R157: the tile instructions. TILE_STATE, TILE_CONFIG and their causes; TCFG, TDESC, TRELALL and TZERO;
and a row of TLD or TST at a time, from TSTART, with the row that faults in TSTART; and the scales.
The model's choices that it rests on: log entries 163, 167, 168. -/
def Obligations.TileInstructions : Prop :=
  ∀ (q : QuireId) (rd rs1 rs2 : GReg) (td : TReg),
    (∀ i ∈ [Instr.tcfg q rs1 rs2, .tdesc q rd td, .trelall q], PressTraps i q 4 11 0x042 (tileBad false [])) ∧
    (∀ i ∈ [Instr.tzero q td, .tlds q td rs1, .tsts q td rs1], PressTraps i q 4 11 0x042 (tileBad false [td])) ∧
    (∀ i ∈ [Instr.tld q td rs1 rs2, .tldP q td rs1, .tst q td rs1 rs2, .tstP q td rs1],
      PressTraps i q 4 11 0x042 (tileBad true [td])) ∧
    (∀ d mask : W64,
      let D := d.toNat
      let code := D / 2 ^ 20 % 16
      let rows := D % 256 + 1
      let rb := 64 * (D / 2 ^ 16 % 16 + 1)
      let blk := if D / 2 ^ 27 % 4 = 1 then 16 else if D / 2 ^ 27 % 4 = 2 then 32 else 0
      let E := rb * 8 / (vtypeOf code).width
      let action := D / 2 ^ 30 % 4
      let shape (b : Bool) : Bool := action ≠ 2 && b
      tcfgCause d mask = ((firstCause
        [(0x01, 0, action = 0 || action = 3), (0x02, 0, D / 2 ^ 32 ≠ 0 || D / 2 ^ 24 % 8 ≠ 0 || D / 2 ^ 8 % 256 ≠ 0),
         (0x03, 0, action = 2 && D % 2 ^ 30 ≠ 0), (0x04, 0, shape (128 < rows)),
         (0x05, 0, shape ((7 ≤ code && code ≤ 9) || (0xB ≤ code && code ≤ 0xD))), (0x06, 0, shape (16384 < rows * rb)),
         (0x07, 0, shape (D / 2 ^ 27 % 4 = 3)), (0x08, 0, shape (blk ≠ 0 && !([4, 5, 6, 0xE, 0xF].contains code))),
         (0x09, 0, shape (code = 6 && blk = 0)),
         (0x0A, 0, shape (blk ≠ 0 && (if d.getLsbD 29 then rows else E) % blk ≠ 0)),
         (0x0B, 0, shape (blk ≠ 0 && 1024 < (if d.getLsbD 29 then rows / blk * E else rows * (E / blk)))),
         (0x0D, 0, mask.toNat = 0 || 2 ^ 16 ≤ mask.toNat)]).map (·.1))) ∧
    (PressTraps (.tcfg q rs1 rs2) q 4 9 0x042 (fun c =>
      if tileBad false [] c = none then (tcfgCause (c.gr rs2) (c.gr rs1)).map (fun k =>
        (k, ((List.range 16).find? (fun n => (c.gr rs1).getLsbD n)).getD 0)) else none)) ∧
    (∃ F, PressRetires (fun c => tileBad false [] c = none ∧ tcfgCause (c.gr rs2) (c.gr rs1) = none)
        (.tcfg q rs1 rs2) q 4 F ∧
      ∀ c, ∃ T : Vector Tile 16, F c = { c with tile := T } ∧ ∀ n : TReg, T[n] =
        if (c.gr rs1).getLsbD n.val then
          (if (c.gr rs2).toNat / 2 ^ 30 % 4 = 2 then { dirty := true } else { cfg := true, desc := c.gr rs2, dirty := true })
        else c.tile[n]) ∧
    PressRetires (fun c => tileBad false [] c = none) (.tdesc q rd td) q 4
      (fun c => c.gw rd (if c.tile[td].cfg then c.tile[td].desc else 0x80000000)) ∧
    PressRetires (fun c => tileBad false [] c = none) (.trelall q) q 4
      (fun c => { c with tile := Vector.replicate 16 { dirty := true } }) ∧
    PressRetires (fun c => tileBad false [td] c = none) (.tzero q td) q 4 (fun c => { c with
      tile := c.tile.set td { cfg := c.tile[td].cfg, desc := c.tile[td].desc, dirty := true } }) ∧
    (∀ s t u : State, s.Ready q 4 t → tileBad true [td] (t.q q) = none → (u.q q).plain ((u.q q).past 4) →
      let base := (t.q q).gr rs1
      let ends := .next (u.retiredAs q (u.q q) ((u.q q).past 4))
      (RowsRead (woken q t) q td base ((t.q q).gr rs2) u → exec (.tld q td rs1 rs2) s = ends) ∧
      (RowsRead (woken q t) q td base (BitVec.ofNat 64 (t.q q).tile[td].rb) u → exec (.tldP q td rs1) s = ends) ∧
      (RowsWritten (woken q t) q td base ((t.q q).gr rs2) u → exec (.tst q td rs1 rs2) s = ends) ∧
      (RowsWritten (woken q t) q td base (BitVec.ofNat 64 (t.q q).tile[td].rb) u → exec (.tstP q td rs1) s = ends)) ∧
    (∀ (s t u : State) (x : Exc) (i : Instr) (stride : W64), s.Ready q 4 t → tileBad true [td] (t.q q) = none →
      (i = .tld q td rs1 rs2 ∧ stride = (t.q q).gr rs2 ∨
        i = .tldP q td rs1 ∧ stride = BitVec.ofNat 64 (t.q q).tile[td].rb) →
      (woken q t).rowsWait q .load td ((t.q q).gr rs1) stride = false →
      ((woken q t).drain q).loadRows q td ((t.q q).gr rs1) stride (t.q q).tstart
        ((t.q q).tile[td].rows - (t.q q).tstart) = (some x, u) →
      exec i s = .next ((u.flushEvents q).raise q x)) ∧
    (∀ (s u : State) (base stride : W64) (r n : Nat),
      s.loadRows q td base stride r 0 = (none, s.setQ q ((s.q q).crSet 0x040 0)) ∧
      (∀ x, s.wideAccess q .load 7 r (base + BitVec.ofNat 64 r * stride) (s.q q).tile[td].rb = (.error x, u) →
        s.loadRows q td base stride r (n + 1) = (some x, u.setQ q ((u.q q).crSet 0x040 (BitVec.ofNat 64 r)))) ∧
      (∀ pas, s.wideAccess q .load 7 r (base + BitVec.ofNat 64 r * stride) (s.q q).tile[td].rb = (.ok pas, u) →
        InMemory u pas → RoomFor (u.q q) pas → ∃ w T, OnlyCaches u w ∧
          s.loadRows q td base stride r (n + 1) =
            (w.setQ q { w.q q with tile := (w.q q).tile.set td T }).loadRows q td base stride (r + 1) n ∧
          (let o := (w.q q).tile[td]
           T.cfg = o.cfg ∧ T.desc = o.desc ∧ T.scales = o.scales ∧ T.rowPoison.getLsbD r = false ∧ T.dirty = true ∧
           T.zero = false ∧ T.sliced = false ∧
           (pas.length = o.rb → r < o.rows → o.rows * o.rb ≤ 16384 → ∀ n < 16384, elem T.data 8 n =
             if r * o.rb ≤ n ∧ n < (r + 1) * o.rb then (u.byte (localOf (pas.getD (n - r * o.rb) 0))).toNat
             else elem o.data 8 n)))) ∧
    (∀ (s t u : State) (x : Exc) (i : Instr) (stride : W64), s.Ready q 4 t → tileBad true [td] (t.q q) = none →
      (i = .tst q td rs1 rs2 ∧ stride = (t.q q).gr rs2 ∨
        i = .tstP q td rs1 ∧ stride = BitVec.ofNat 64 (t.q q).tile[td].rb) →
      (woken q t).rowsWait q .store td ((t.q q).gr rs1) stride = false →
      ((woken q t).drain q).storeRows q td ((t.q q).gr rs1) stride (t.q q).tstart
        ((t.q q).tile[td].rows - (t.q q).tstart) = .trap u x →
      exec i s = .next ((u.flushEvents q).raise q x)) ∧
    (∀ (s u : State) (base stride : W64) (r n : Nat),
      let T := (s.q q).tile[td]
      s.storeRows q td base stride r 0 = .done (s.setQ q ((s.q q).crSet 0x040 0)) ∧
      (∀ x, s.wideAccess q .store 8 r (base + BitVec.ofNat 64 r * stride) T.rb = (.error x, u) →
        s.storeRows q td base stride r (n + 1) = .trap (u.setQ q ((u.q q).crSet 0x040 (BitVec.ofNat 64 r))) x) ∧
      (∀ pas, s.wideAccess q .store 8 r (base + BitVec.ofNat 64 r * stride) T.rb = (.ok pas, u) →
        InMemory u pas → RoomFor (u.q q) pas → T.rowPoison.getLsbD r = false → ∃ p w, p ⊆ u.poison ∧
          OnlyCaches { u with
            mem := storedNat u.mem pas (T.data.toNat / 2 ^ (8 * (r * T.rb)) % 2 ^ (8 * T.rb))
            poison := p } w ∧
          s.storeRows q td base stride r (n + 1) = w.storeRows q td base stride (r + 1) n)) ∧
    (∀ (s t u : State), s.Ready q 4 t → tileBad false [td] (t.q q) = none →
      let T := (t.q q).tile[td]
      let va := (t.q q).gr rs1
      let n := descScales T.desc
      (T.desc.toNat / 2 ^ 27 % 4 ≠ 1 → T.desc.toNat / 2 ^ 27 % 4 ≠ 2 →
        ∀ i ∈ [Instr.tlds q td rs1, .tsts q td rs1], exec i s = .next (((((woken q t).setQ q
          ((t.q q).crSet 0x042 (BitVec.ofNat 64 (td.val * 256 + 0x13)))).flushEvents q)).raise q (exc 11))) ∧
      (T.desc.toNat / 2 ^ 27 % 4 = 1 ∨ T.desc.toNat / 2 ^ 27 % 4 = 2 → 0 < n → n ≤ 1024 →
        (∀ pas, (woken q t).l2WaitsSpan q .load va n = false →
          ((woken q t).drain q).wideAccess q .load 7 0 va n = (.ok pas, u) → InMemory u pas → RoomFor (u.q q) pas →
          (u.q q).plain ((u.q q).past 4) → pas.length = n →
          ∃ w S, OnlyCaches u w ∧ exec (.tlds q td rs1) s = .next (w.retiredAs q { w.q q with
              tile := (w.q q).tile.set td { (w.q q).tile[td] with
                scales := S
                scalePoison := false
                dirty := true
                zero := false
                sliced := false
                slices := 0 } } ((w.q q).past 4)) ∧
            ∀ i < 1024, elem S 8 i = if i < n then (u.byte (localOf (pas.getD i 0))).toNat
              else elem (w.q q).tile[td].scales 8 i) ∧
        (∀ pas, (woken q t).l2WaitsSpan q .store va n = false →
          ((woken q t).drain q).wideAccess q .store 8 0 va n = (.ok pas, u) → InMemory u pas → RoomFor (u.q q) pas → T.scalePoison = false →
          (u.q q).plain ((u.q q).past 4) → ∃ p w, p ⊆ u.poison ∧
          OnlyCaches { u with
            mem := storedNat u.mem pas (T.scales.toNat % 2 ^ (8 * n))
            poison := p } w ∧
          exec (.tsts q td rs1) s = .next (w.retiredAs q (w.q q) ((w.q q).past 4)))))

/-- What an MMA multiplies: kinds, group size and window, and how it accumulates (R159, R161, R166). -/
def Sys2Proof.mmaCfgOf (c : Quire) (ovw fine sat sgna sgnb : Bool) (ta tb : TReg) (co ro : Nat) (md : RMode) : MmaCfg :=
  let a := c.tile[ta]
  let b := c.tile[tb]
  let cl : Nat × Nat := (popOf a.fmt).elim (16, 26) (fun x => (popOf b.fmt).elim (16, 26) (fun y =>
    (pairClass x y fine).getD (16, 26)))
  let int : Bool := popOf a.fmt = some .int
  ⟨ovw, sat, sgna, sgnb, cl.1, cl.2, int, int && scaleBlock a.desc = 0 && scaleBlock b.desc = 0, md, b.rows, ro, co⟩

/-- R166 to R176, R209 to R223: MMA and ACCZ, and in slice mode SLC and MMA.S: when they stop, and what they write.
The model's choices that it rests on: log entries 25, 177. -/
def Obligations.PressAndSlices : Prop :=
  ∀ (q : QuireId) (ovw fine sat sgna sgnb int32 : Bool) (ta tb : TReg) (co ro : BitVec 2) (acc : Fin 2) (rm : Ext)
    (vb : VReg),
    let mma := Instr.mma q ovw fine sat sgna sgnb ta tb co ro acc rm
    let len := extLen rm
    let mmaBad (c : Quire) : Option (Nat × Nat) :=
      mmaShape ovw fine sat sgna sgnb ta tb c.tile[ta] c.tile[tb] co.toNat ro.toNat acc c.acc[acc].tag
    -- MMA
    (∀ s t, s.Ready q len t → ¬ ModeLegal (t.q q) .prs rm →
      exec mma s = .next (((woken q t).flushEvents q).raise q excIllegal)) ∧
    (∀ s t x, s.Ready q len t → ModeLegal (t.q q) .prs rm → tileBad false [ta, tb] (t.q q) = some x →
      exec mma s = .next (pressTrap q t 11 0x042 x)) ∧
    (∀ s t x, s.Ready q len t → ModeLegal (t.q q) .prs rm → tileBad false [ta, tb] (t.q q) = none → mmaBad (t.q q) = some x →
      exec mma s = .next (pressTrap q t 10 0x050 x)) ∧
    (∃ F, PressRetires (fun c => ModeLegal c .prs rm ∧ tileBad false [ta, tb] c = none ∧ mmaBad c = none) mma q len F ∧
      ∀ c, ModeLegal c .prs rm →
        let md := modeIn c .prs rm
        let k := mmaCfgOf c ovw fine sat sgna sgnb ta tb co.toNat ro.toNat md
        let A := c.tile[ta]
        let B := c.tile[tb]
        let old := c.acc[acc]
        let inside (i j : Nat) : Bool :=
          32 * ro.toNat ≤ i && i < 32 * ro.toNat + A.rows && 32 * co.toNat ≤ j && j < 32 * co.toNat + B.elems
        let g (i j : Nat) : Nat × Flags := mmaElem c k A B (elem old.words 32 (128 * i + j)) (i - 32 * ro.toNat) (j - 32 * co.toNat)
        let fl : Flags := (List.range 16384).foldl (fun fl x =>
          if inside (x / 128) (x % 128) then fl ||| (g (x / 128) (x % 128)).2 else fl) 0
        let cycles := (A.rows + 31) / 32 * (B.elems / 32) * (k.k / (4 * k.g))
        ∃ (W : BitVec 524288) (P : BitVec 16),
          F c = (let d := (c.setFlags .prs fl).crSet 0x052 ((c.setFlags .prs fl).crGet 0x052 + BitVec.ofNat 64 cycles)
            let d := if k.int32 then d else d.countSr md
            { d.crSet 0x05D (d.crGet 0x05D &&& 1) with
              acc := c.acc.set acc ⟨W, if ovw then (if k.int32 then 1 else 0) else old.tag, P, true⟩
              timed := pressCounters c
              events := c.events ++ [(0x0108, cycles)] }) ∧
          ∀ i j, i < 128 → j < 128 → elem W 32 (128 * i + j) =
            if inside i j then (g i j).1 % 2 ^ 32 else elem old.words 32 (128 * i + j)) ∧
    -- an integer MMA without scales, which wraps: the sum of the products, whatever their grouping
    (∀ (c : Quire) (k : MmaCfg) (a b : Tile) (old i j n : Nat), k.int = true → k.int32 = true → k.sat = false →
      0 < k.g → k.k = k.g * n → old < 2 ^ 32 →
      (mmaElem c k a b old i j).1 = (BitVec.ofInt 32 ((List.range k.k).foldl (fun x m =>
        x + int8Of (a.elemAt i m) k.sgna * int8Of (b.elemAt m j) k.sgnb)
        (if k.ovw then 0 else (BitVec.ofNat 32 old).toInt))).toNat) ∧
    -- ACCZ
    PressTraps (.accz q acc int32) q 4 11 0x042 (tileBad false []) ∧
    PressRetires (fun c => tileBad false [] c = none) (.accz q acc int32) q 4 (fun c =>
      { c.crSet 0x05D (c.crGet 0x05D &&& 1) with
        acc := c.acc.set acc ⟨0, if int32 then 1 else 0, 0, true⟩
        timed := pressCounters c }) ∧
    -- SLC
    PressTraps (.slc q ta vb) q 4 11 0x042 (tileBad false [ta]) ∧
    PressTraps (.slc q ta vb) q 4 10 0x050 (fun c =>
      let t := c.tile[ta]
      if tileBad false [ta] c ≠ none then none
      else firstCause [(0x30, ta.val, t.fmt ≠ 0 && t.fmt ≠ 1), (0x31, ta.val, t.fmt = 1 && 4 < (c.crGet 0x05B).toNat % 16),
        (0x32, ta.val, t.sliced)]) ∧
    (∃ F, PressRetires (fun c => tileBad false [ta] c = none ∧ (c.tile[ta].fmt = 0 ∨
          c.tile[ta].fmt = 1 ∧ (c.crGet 0x05B).toNat % 16 ≤ 4) ∧ c.tile[ta].sliced = false) (.slc q ta vb) q 4 F ∧
      ∀ c, let t := c.tile[ta]
        let n := (c.crGet 0x05B).toNat % 16
        let f : Fmt := if t.fmt = 0 then fp64 else fp32
        let x (r e : Nat) : SliceOut := sliceElem n
          (f.decode false (elem c.v[vb] f.width (if t.desc.getLsbD 29 then e else r))) (f.decode false (t.elemAt r e))
        let sum (g : SliceOut → Nat) : Nat :=
          (List.range (t.rows * t.elems)).foldl (fun a m => a + g (x (m / t.elems) (m % t.elems))) 0
        let fl : Flags := (List.range (t.rows * t.elems)).foldl (fun a m => a ||| (x (m / t.elems) (m % t.elems)).fl) 0
        (t.fmt = 0 ∨ t.fmt = 1) → ∃ D, F c =
            (let d := { c with tile := c.tile.set ta { t with
                data := D
                dirty := true
                zero := false
                sliced := true
                slices := BitVec.ofNat 4 n } }.setFlags .prs fl
             let d := d.crSet 0x05E (d.crGet 0x05E + BitVec.ofNat 64 (sum (·.trunc)))
             { d.crSet 0x05F (d.crGet 0x05F + BitVec.ofNat 64 (sum (·.ovr))) with
               events := c.events ++ [(0x0110, sum (·.trunc)), (0x0111, sum (·.ovr))] }) ∧
          ∀ r e i, r < t.rows → e < t.elems → i < n → (i + 1) * t.elems ≤ t.rb → t.rows * t.rb ≤ 16384 →
            elem D 8 (r * t.rb + i * t.elems + e) = sliceByte n (x r e).q (i + 1)) ∧
    (∀ (n : Nat) (v : Int), 0 < n → -(2 : Int) ^ (8 * n - 1) ≤ v → v < 2 ^ (8 * n - 1) →
      (BitVec.ofNat 8 (sliceByte n v 1)).toInt * 256 ^ (n - 1) +
        ((List.range (n - 1)).map (fun i => (sliceByte n v (i + 2) : Int) * 256 ^ (n - 2 - i))).sum = v) ∧
    -- MMA.S
    PressTraps (.mmaS q ovw ta tb co ro) q 4 11 0x042 (tileBad false [ta, tb]) ∧
    PressTraps (.mmaS q ovw ta tb co ro) q 4 10 0x050 (fun c =>
      if tileBad false [ta, tb] c ≠ none then none else c.mmaSShape ovw ta tb co.toNat ro.toNat) ∧
    (∃ F, PressRetires (fun c => tileBad false [ta, tb] c = none ∧ c.mmaSShape ovw ta tb co.toNat ro.toNat = none)
        (.mmaS q ovw ta tb co ro) q 4 F ∧
      ∀ c, let A := c.tile[ta]
        let B := c.tile[tb]
        let n := A.slices.toNat
        let wd : Nat := if n ≤ 2 then 2 else if n ≤ 4 then 4 else 8
        let cap : Nat := if n ≤ 2 then 128 else 64
        let word (d : Quire) (x : Nat) : Nat := elem (d.acc[x / 16384]?.getD {}).words 32 (x % 16384)
        let inside (r l : Nat) : Bool :=
          32 * ro.toNat ≤ r && r < 32 * ro.toNat + A.rows && 32 * co.toNat ≤ l && l < 32 * co.toNat + B.elems
        CrCanon c → (F c).acc[0].tag = 2 ∧ (F c).acc[1].tag = 2 ∧ (F c).tile = c.tile ∧ (F c).g = c.g ∧ (F c).v = c.v ∧
        (ovw = true → (F c).crGet 0x05D = BitVec.ofNat 64 (0x100 + 16 * n + A.fmt)) ∧
        (ovw = false → (F c).crGet 0x05D = c.crGet 0x05D) ∧
        (F c).crGet 0x052 = c.crGet 0x052 +
          BitVec.ofNat 64 ((A.rows + 31) / 32 * (B.elems / 32) * ((A.elems / 16 * (n * (n + 1) / 2) + 3) / 4)) ∧
        ∀ x < 32768,
          let r := x / wd / cap
          let l := x / wd % cap
          word (F c) x = if inside r l then
              sliceWordOf n (sliceOutput n A B (if ovw then 0 else c.sliceValue n r l) (r - 32 * ro.toNat)
                (l - 32 * co.toNat)).1 (x % wd) % 2 ^ 32
            else word c x)

/-- R186 to R188, R194, R195, R200: where the plough's outputs stand in a tile or vector destination, and what PLOUGH
changes beside it: the statistics it is asked for, SR_SEQ unless the integer path is taken, and PLCYC. -/
def Obligations.PloughOutputs : Prop :=
  (∀ (c : Quire) (g : PlGeom) (o : PlOut) (td : TReg) (n r e : Nat),
    let t := c.tile[td]
    (∀ m < tileSpan g t, (c.tile.getD (td.val + m) {}).desc = t.desc) → td.val + tileSpan g t ≤ 16 → t.fmt = g.dfmt →
    0 < g.w → g.w * t.elems = 8 * t.rb → g.nrows * t.rb ≤ 16384 →
    n < tileSpan g t → r < g.nrows → e < t.elems →
    ((c.plTile g o td).tile.getD (td.val + n) {}).elemAt r e = o.code r (n * t.elems + e) % 2 ^ g.w) ∧
  (∀ (c : Quire) (g : PlGeom) (o : PlOut) (vd : VReg) (x : Nat), 0 < g.w → 32768 % g.w = 0 → vd.val + g.vregs ≤ 32 →
    x < g.nrows * g.nc →
    elem ((c.plVec g o vd).v.getD (vd.val + x / (32768 / g.w)) 0) g.w (x % (32768 / g.w)) =
      o.code (x % g.nrows) (x / g.nrows) % 2 ^ g.w) ∧
  (∀ (c : Quire) (g : PlGeom) (o : PlOut) (td : TReg) (vd : VReg),
    (c.plTile g o td).g = c.g ∧ (c.plTile g o td).v = c.v ∧ (c.plTile g o td).acc = c.acc ∧ (c.plTile g o td).cr = c.cr ∧
    (c.plVec g o vd).g = c.g ∧ (c.plVec g o vd).tile = c.tile ∧ (c.plVec g o vd).acc = c.acc ∧ (c.plVec g o vd).cr = c.cr) ∧
  (∀ (c : Quire) (a : Acc) (g : PlGeom) (dst : PlDst) (md : RMode), CrCanon c →
    let d := c.plEffects a g dst md
    let opt (b : Nat) : Prop := (c.crGet 0x056).getLsbD b = true
    let mx : VReg := Fin.ofNat 32 ((c.crGet 0x057).toNat / 2 ^ 15 % 32)
    let sm : VReg := Fin.ofNat 32 ((c.crGet 0x057).toNat / 2 ^ 20 % 32)
    d.g = c.g ∧ d.f = c.f ∧ d.m = c.m ∧ d.tile = c.tile ∧ d.acc = c.acc ∧ d.pc = c.pc ∧
    d.timed = 0x05A :: c.timed.filter (fun n => n ≠ 0x05A) ∧
    d.crGet 0x059 = c.crGet 0x059 + BitVec.ofNat 64
      ((g.nrows + (if g.dfmt = 0 then 4 else 8) / g.nb - 1) / ((if g.dfmt = 0 then 4 else 8) / g.nb)) ∧
    d.crGet 0x023 = (if md = .sr ∧ c.plInt a g = false then (c.crGet 0x023 + 1) &&& (2 ^ 47 - 1) else c.crGet 0x023) ∧
    (∀ r : VReg, ¬ (opt 10 ∧ r = mx) → ¬ (opt 11 ∧ r = sm) → d.v[r] = c.v[r]) ∧
    (opt 10 → ¬ (opt 11 ∧ sm = mx) → ∀ i < 1024, elem d.v[mx] 32 i =
      if i < g.nrows then c.plMax a g dst md i % 2 ^ 32 else elem c.v[mx] 32 i) ∧
    (opt 11 → ¬ (opt 10 ∧ sm = mx) → ∀ i < 1024, elem d.v[sm] 32 i =
      if i < g.nrows then (c.plSum a g dst md i).1 % 2 ^ 32 else elem c.v[sm] 32 i))

/-- How a plough instruction ends (R189, R196): the outputs `o` go to the destination, once a memory destination's rows are
all translated, and `f` tells what else its quire changes; an output of a poisoned block raises DATA_POISON behind the
instruction. -/
def Sys2Proof.PloughEnds (i : Instr) (q : QuireId) (len : Nat) (dst : PlDst) (p : Quire → Prop) (g : Quire → PlGeom)
    (o : Quire → PlOut) (f : Quire → Quire) : Prop :=
  ∀ s t, s.Ready q len t → p (t.q q) →
    let c := t.q q
    let w := woken q t
    (∀ td, dst = .tile td → (o c).any (g c) = false → ((f c).plTile (g c) (o c) td).plain (c.past len) →
      exec i s = .next (w.retiredAs q ((f c).plTile (g c) (o c) td) (c.past len))) ∧
    (∀ vd, dst = .vec vd → (o c).any (g c) = false → ((f c).plVec (g c) (o c) vd).plain (c.past len) →
      exec i s = .next (w.retiredAs q ((f c).plVec (g c) (o c) vd) (c.past len))) ∧
    (∀ b st, dst = .mem b st →
      (∀ e u, w.plRows q (g c) (c.gr b) (c.gr st) 0 (g c).nrows = (.error e, u) →
        exec i s = .next ((u.flushEvents q).raise q e)) ∧
      (∀ l u v, w.plRows q (g c) (c.gr b) (c.gr st) 0 (g c).nrows = (.ok l, u) → u.l2Waits q l.flatten = false →
        (u.setQ q (f (u.q q))).plStore q (g c) (o c) ((f (u.q q)).gr b) ((f (u.q q)).gr st) l 0 = (true, v) →
        (o c).any (g c) = false → (v.q q).plain ((v.q q).past len) →
        exec i s = .next (v.retiredAs q (v.q q) ((v.q q).past len)))) ∧
    (∀ td, dst = .tile td → (o c).any (g c) = true →
      exec i s = .next (((w.setQ q ((f c).plTile (g c) (o c) td)).plPoisoned q len).flushEvents q))

/-- R186 to R206, R221 to R225: the three plough instructions: the modes they accept, TILE_STATE and TILE_SHAPE, their
outputs, element by element, and their effects on flags, statistics, SR_SEQ and PLCYC.
The model's choices that it rests on: log entries 24, 156, 162, 175, 178. -/
def Obligations.PloughInstructions : Prop :=
  ∀ (q : QuireId) (dst : PlDst) (co ro : BitVec 2) (acc : Fin 2) (rm : Ext),
    let len := extLen rm
    let g (c : Quire) : PlGeom :=
      let p := (c.crGet 0x056).toNat
      ⟨p / 2 ^ 17 % 128 + 1, p / 2 ^ 15 % 4 + 1, p % 16, ro.toNat, co.toNat⟩
    let state (c : Quire) : Option (Nat × Nat) := tileBad false (c.plTiles (g c) dst) c
    let md (c : Quire) : RMode := modeIn c .plg rm
    let pN (c : Quire) : Prop := ModeLegal c .plg rm ∧ state c = none
    -- TILE_STATE, and behind it TILE_SHAPE
    let traps (i : Instr) (f : Quire → Option (Nat × Nat)) : Prop :=
      (∀ s t x, s.Ready q len t → ModeLegal (t.q q) .plg rm → state (t.q q) = some x →
        exec i s = .next (pressTrap q t 11 0x042 x)) ∧
      (∀ s t x, s.Ready q len t → pN (t.q q) → f (t.q q) = some x → exec i s = .next (pressTrap q t 10 0x050 x))
    let marked (a : Acc) (i j : Nat) : Bool := a.poison.getLsbD (4 * (ro.toNat + i / 32) + (co.toNat + j / 32))
    let normOk : Prop := ∀ b s, dst ≠ .mem b s
    (∀ i ∈ [Instr.plough q dst co ro acc rm, .ploughS q dst co ro rm], ∀ s t, s.Ready q len t → ¬ ModeLegal (t.q q) .plg rm →
      exec i s = .next (((woken q t).flushEvents q).raise q excIllegal)) ∧
    (normOk → ∀ s t, s.Ready q len t → ¬ ModeLegal (t.q q) .plg rm →
      exec (.ploughN q dst co ro acc rm) s = .next (((woken q t).flushEvents q).raise q excIllegal)) ∧
    (¬ normOk → IllegalForm (.ploughN q dst co ro acc rm) q) ∧
    traps (.plough q dst co ro acc rm) (fun c => c.plShape (g c) dst acc false) ∧
    (normOk → traps (.ploughN q dst co ro acc rm) (fun c => c.plShape (g c) dst acc true)) ∧
    traps (.ploughS q dst co ro rm) (fun c => c.plSShape (g c) dst) ∧
    PloughEnds (.plough q dst co ro acc rm) q len dst (fun c => pN c ∧ c.plShape (g c) dst acc false = none) g
      (fun c => ⟨fun i j => (c.plElem c.acc[acc] (g c) dst (md c) i j).1, fun i j => marked c.acc[acc] i j, 32⟩)
      (fun c => c.plEffects c.acc[acc] (g c) dst (md c)) ∧
    (normOk → PloughEnds (.ploughN q dst co ro acc rm) q len dst (fun c => pN c ∧ c.plShape (g c) dst acc true = none) g
      (fun c => ⟨fun i j => (convScaled (g c).dfmt (c.plRnd (g c) (md c) i j) (c.plScale dst i j)
        (fp32.read false ((c.plNormRow c.acc[acc] (g c) i).p.getD j 0))).1, fun i j => marked c.acc[acc] i j, 32⟩)
      (fun c => c.plNormEffects c.acc[acc] (g c) dst (md c))) ∧
    PloughEnds (.ploughS q dst co ro rm) q len dst (fun c => pN c ∧ c.plSShape (g c) dst = none) g
      (fun c => ⟨fun i j => (c.plSElem (g c) (md c) i j).1,
        fun i j => c.slicePoison ((c.crGet 0x05D).toNat / 16 % 16) (32 * ro.toNat + i) (32 * co.toNat + j), c.plSChunk (g c)⟩)
      (fun c => c.plSEffects (g c) (md c))

/-! ## Caches, responses and refresh (10) -/

/-- The register window is in canonical form, so that equal registers are equal data. -/
abbrev Sys2Proof.WinCanon (s : State) : Prop := sOk winReset 0 s.win = true

/-- A write by `src` reaches the register at `off` and is performed at once: the host's where nothing keeps it from that
register (R12, R514, R525, R558) and none of its earlier requests waits (R376), the debug network's where R548 lets it. -/
abbrev Sys2Proof.Reaches (s : State) (src : Source) (off : Nat) : Prop :=
  (src = .host → s.present = true ∧ s.hostBlocked = false ∧ (s.asleep = true → sleepReg off = true) ∧
    ¬ (s.spineOut = true ∧ spineWindow off = true) ∧ (s.booted = true ∨ s.asleep = true ∨ earlyReg off = true)) ∧
  (src = .debug → debugReaches off = true)

/-- A write by `src` reaches a quire's window. -/
abbrev Sys2Proof.ReachesQuire (s : State) (src : Source) (q : QuireId) (off : Nat) : Prop :=
  Reaches s src (0x100000 + q.val * 0x10000 + off) ∧ s.domState q.val = 0

/-- R265, R267 to R278: lines entering L1D and L2, the eviction buffer, Q_CACHE_CTL with its busy, refused and powered-down
cases, and what ends an access that gets no response. -/
def Sys2Proof.CacheEvents : Prop :=
  ∀ (s : State) (q : QuireId),
    (∀ addr : W64, let a := addr.toNat % 2 ^ 46
      ((s.poisonOf a).isSome = true ∨ s.backed a = false → exec (.l1dLineFill q addr) s = .next s) ∧
      (s.poisonOf a = none → s.backed a = true →
        (let n := a / 64
         let x := BitVec.ofNat 512 (s.readN (n * 64) 64)
         let held : Prop := ∃ e ∈ (s.q q).l1d ++ (s.q q).victim, e.1 = n
         let full : Prop := 8 ≤ (s.q q).l1d.countP (fun e => l1dSet e.1 = l1dSet n)
         regionOf a = .folio →
          (held → exec (.l1dLineFill q addr) s = .next s) ∧
          (¬ held → ¬ full → exec (.l1dLineFill q addr) s = .next (s.setQ q { s.q q with l1d := (n, x) :: (s.q q).l1d })) ∧
          (¬ held → full → ∃ t e k, exec (.l1dLineFill q addr) s = .next t ∧ (s.q q).l1d[k]? = some e ∧
            l1dSet e.1 = l1dSet n ∧ (t.q q).l1d = (n, x) :: (s.q q).l1d.eraseIdx k ∧ e ∈ (t.q q).victim ∧ t.mem = s.mem)) ∧
        ((regionOf a).coherent = true → exec (.l1dLineFill q addr) s = .next (s.l1dTouch q (a / 64)))) ∧
      (s.tierOff (64 * (a / 64)) = false →
        let kept := (s.q q).evict.erase (a / 64)
        (s.dirtyLines q = [] → exec (.l2WritebackAck q addr) s = .next (s.setQ q { s.q q with evict := kept })) ∧
        ∃ t, exec (.l2WritebackAck q addr) s = .next t ∧ t.mem = s.mem ∧
          (t.q q).evict = kept ++ (s.dirtyLines q).take (32 - kept.length))) ∧
    (∀ (src : Source) (v : W32), ReachesQuire s src q 0x100 →
      let ctl := 0x100100 + 0x10000 * q.val
      let stat := 0x100108 + 0x10000 * q.val
      let on := v.getLsbD 0
      let was := (s.reg stat).getLsbD 0
      let ways := v.toNat / 16 % 16
      (s.l2Busy q = true → exec (.qCacheCtl q src v) s = .next (s.setFld stat 8 8 1)) ∧
      (s.l2Busy q = false → on = true → ways = 0 → exec (.qCacheCtl q src v) s = .next (s.reject src ctl)) ∧
      (s.l2Busy q = false → (on = true → ways ≠ 0) →
        let t := s.setReg ctl (v.setWidth 64 &&& 0xF1)
        (on = was ∧ (was = false ∨ ways = t.fld stat 19 16) → exec (.qCacheCtl q src v) s = .next t) ∧
        (¬ (on = was ∧ (was = false ∨ ways = t.fld stat 19 16)) → ∃ u, exec (.qCacheCtl q src v) s = .next u ∧
          u.win = (t.setFld stat 1 1 1).win ∧ u.mem = s.mem ∧ (was = false → (s.q q).l2Cinv = false → u.quires = s.quires)))) ∧
    (s.l2Busy q = false → exec (.cacheCfgComplete q) s = .next s) ∧
    (let ctl := s.reg (0x100100 + 0x10000 * q.val)
     let clean : Prop := s.dirtyLines q = [] ∧ (ctl.getLsbD 0 = false → (s.q q).evict = [])
     s.l2Busy q = true → (¬ clean → exec (.cacheCfgComplete q) s = .next s) ∧
      (clean → ∃ u, exec (.cacheCfgComplete q) s = .next u ∧ u.mem = s.mem ∧
        (WinCanon s → u.l2Busy q = false ∧ u.l2On q = ctl.getLsbD 0) ∧
        (s.l2On q = true → ∀ e ∈ (u.q q).l2, ctl.getLsbD 0 = true ∧ ctl.getLsbD (4 + e.2.2.val / 4) = true))) ∧
    (∀ tag dst len va acc, (s.q q).stall = .host tag dst len va acc → (s.q q).runs = true →
      let t := ({ s with hostReqs := s.hostReqs.filter (fun r => r.tag ≠ tag) } : State).modQ q
        (fun c => { c with stall := .none })
      let l := t.logErr (unitCode 0x0A 0) 0x0A 0 va 0 (some (s.q q).ctx)
      exec (.responseTimeout q) s = .next (l.2.raise q ⟨15, acc, va, syndOf 0 l.1, false⟩)) ∧
    (∀ tag dst len va acc, (s.q q).stall = .remote tag dst len va acc → (s.q q).runs = true →
      let l := (s.modQ q (fun c => { c with stall := .none })).logErr (unitCode 0x0A 0) 0x0A 0 va 0 (some (s.q q).ctx)
      exec (.responseTimeout q) s = .next (l.2.raise q ⟨15, acc, va, syndOf 0 l.1, false⟩)) ∧
    (∀ va pa n d r, (s.q q).stores = (va, pa, n, d) :: r → s.remotePa pa = false →
      let l := s.logErr (unitCode 0x0C 0) 0x09 0 (BitVec.ofNat 64 (pa % 2 ^ 46)) 0 (some (s.q q).ctx)
      exec (.storeErrorLatch q false) s = .next ((l.2.modQ q (fun c => { c with stores := r })).latchStoreErr q va l.1))

/-- R247: latching a failed store keeps the oldest failure and marks an overflow. -/
def Sys2Proof.StoreErrorKept (s : State) (q : QuireId) (va : W64) (ref : W32) : Prop :=
  ((s.latchStoreErr q va ref).q q).storeErr =
    match (s.q q).storeErr with
    | none => some ⟨va, ref, false⟩
    | some e => some { e with ovf := true }

/-- R16, R247, R282, R283: the text block's refresh, a refresh forced once eight are owed, and the latch of STORE_ERROR. -/
def Sys2Proof.RefreshAndStoreErrors : Prop :=
  (∀ (s : State) (ch : Fin 32), WinCanon s →
    let r := 0xA00000 + 0x1000 * ch.val
    let pend := (s.reg r).toNat % 16
    let temp := (s.reg r).toNat / 2 ^ 16 % 256
    let rate (t : State) : Prop := (t.reg r).getLsbD 8 =
      (if 85 < temp then true else if temp < 85 then false else (s.reg r).getLsbD 8)
    (∀ p, 8 ≤ pend → ∃ t, exec (.refreshInterval ch p) s = .next t ∧ rate t ∧ (t.reg r).toNat % 16 = pend ∧
      (t.reg (r + 8)).toNat % 2 ^ 32 = ((s.reg (r + 8)).toNat + 1) % 2 ^ 32 ∧ t.mem = s.mem) ∧
    (pend < 8 → ∃ t, exec (.refreshInterval ch true) s = .next t ∧ rate t ∧ (t.reg r).toNat % 16 = pend + 1 ∧ t.mem = s.mem) ∧
    (pend < 8 → ∃ t, exec (.refreshInterval ch false) s = .next t ∧ rate t ∧ (t.reg r).toNat % 16 = pend ∧ t.mem = s.mem) ∧
    (pend = 0 → exec (.refreshCatchUp ch) s = .next s) ∧
    (0 < pend → ∃ t, exec (.refreshCatchUp ch) s = .next t ∧ (t.reg r).toNat % 16 = pend - 1 ∧ t.mem = s.mem) ∧
    (∀ c : BitVec 8, ∃ t, exec (.refreshRateChange ch c) s = .next t ∧ (t.reg r).toNat / 2 ^ 16 % 256 = c.toNat ∧
      (t.reg r).toNat % 2 ^ 16 = (s.reg r).toNat % 2 ^ 16 ∧ (∀ o, o ≠ r → t.reg o = s.reg o))) ∧
  (∀ (s : State) (q : QuireId) (va : W64) (ref : W32), StoreErrorKept s q va ref)

/-- R16, R247, R265, R267 to R278, R282, R283: cache events, Q_CACHE_CTL, response timeouts, refresh, store errors.
The model's choices that it rests on: log entries 5, 6, 166, 167, 170. -/
def Obligations.CachesAndRefresh : Prop := CacheEvents ∧ RefreshAndStoreErrors

/-! ## Context engines (09) -/

/-- The seven action commands of Q_CTX_CTL, by their codes. -/
def Sys2Proof.ctxCommand (act : Nat) (q : QuireId) (src : Source) (ctx : CtxId) (full : Bool) : Instr :=
  match act with
  | 1 => .ctxCreate q src ctx full
  | 2 => .ctxRestore q src ctx full
  | 3 => .ctxStopSave q src ctx full
  | 4 => .ctxStopDiscard q src ctx full
  | 5 => .ctxPreempt q src ctx full
  | 6 => .ctxCheckpoint q src ctx full
  | _ => .ctxResume q src ctx full

/-- The states that the table of R252 gives each action. -/
def Sys2Proof.ctxAllowed (act : Nat) (st : QState) : Bool :=
  match act with
  | 1 | 2 => st = .idle
  | 3 => st = .running || st = .grace
  | 4 => st = .running || st = .held || st = .halted
  | 5 | 6 => st = .running
  | _ => st = .held

/-- No management command waits for the end of an action of this quire (R397). -/
abbrev Sys2Proof.NoneWaits (s : State) (q : QuireId) : Prop :=
  ∀ n, s.logicalOf q = some n → ∀ k ∈ (s.queue 0).cmds, k.started = true → k.waiting.getLsbD n.val = false

/-- R250 to R252, R255, R309: who may command a context engine, which actions a state refuses with RESULT 0x02, and what
each of the others begins or does at once. -/
def Sys2Proof.ContextActions : Prop :=
  ∀ (s : State) (q : QuireId) (src : Source) (ctx : CtxId) (full : Bool),
    let c := s.q q
    let r (act : Nat) := exec (ctxCommand act q src ctx full) s
    let stops (act : Nat) (b : Bool) : Quire := { c with
      st := .quiesce
      action := BitVec.ofNat 4 act
      full := b }
    ReachesQuire s src q 0 →
    (∀ act, 1 ≤ act → act ≤ 7 →
      (src = .host ∨ src = .stitcher → r act = .next (s.reject src (0x100000 + 0x10000 * q.val))) ∧
      (src = .quire ∨ src = .headband →
        (c.action ≠ 0 ∨ ctxAllowed act c.st = false) → ¬ (act = 3 ∧ c.st = .grace) →
        r act = .next (s.setQ q { c with result := 2 }))) ∧
    (src = .quire ∨ src = .headband →
      (c.st = .grace ∨ c.st = .running ∧ c.action = 0 → r 3 = .next (s.setQ q (stops 3 full))) ∧
      (c.action = 0 → c.st = .running ∨ c.st = .held ∨ c.st = .halted → r 4 = .next (s.setQ q (stops 4 full))) ∧
      (c.action = 0 → c.st = .running → r 6 = .next (s.setQ q (stops 6 full))) ∧
      (c.action = 0 → c.st = .running → s.fld (0x100020 + 0x10000 * q.val) 7 0 = 0 →
        r 5 = .next (s.setQ q (stops 5 full))) ∧
      (c.action = 0 → c.st = .running → s.fld (0x100020 + 0x10000 * q.val) 7 0 ≠ 0 →
        let l := s.irqLevel q 35
        (l.1 = 0 → ∃ t, r 5 = .next t ∧ (t.q q).st = .quiesce ∧ (t.q q).action = 5 ∧ (t.q q).full = full) ∧
        (l.1 ≠ 0 → ∃ t, r 5 = .next t ∧ (t.q q).st = .grace ∧ (t.q q).action = 5 ∧ (t.q q).full = full ∧
          (t.q q).irq.getLsbD 35 = true ∧ (∀ n < 256, c.irq.getLsbD n = true → (t.q q).irq.getLsbD n = true) ∧
          (t.q q).graceEnd = s.gtime + BitVec.ofNat 64 (100 * s.fld (0x100020 + 0x10000 * q.val) 7 0) ∧
          (c.evict.length + 2 ≤ 32 → t.mem = s.mem))) ∧
      (c.action = 0 → c.st = .held → ∃ t, r 7 = .next t ∧ (t.q q).st = .running ∧ (t.q q).result = 1 ∧ (t.q q).action = 0 ∧
        (∀ g, (t.q q).gr g = c.gr g) ∧ (t.q q).pc = c.pc ∧ (t.q q).cr = c.cr ∧ (NoneWaits s q → ∀ j, j ≠ q → t.q j = s.q j)) ∧
      (c.action = 0 → c.st = .idle → c.lastCtx = none ∨ c.lastCtx = some ctx → c.isoWait = false →
        ∃ t, r 1 = .next t ∧ (t.q q).st = .running ∧ (t.q q).ctx = ctx ∧ (t.q q).result = 1 ∧ (t.q q).action = 0 ∧
          (t.q q).pc = (s.reg (0x100010 + 0x10000 * q.val) &&& ~~~3#64).setWidth 56 ∧
          (∀ g, (t.q q).gr g = 0) ∧ (∀ f : FReg, (t.q q).f[f] = 0) ∧ (∀ v : VReg, (t.q q).v[v] = 0) ∧
          (∀ m : MReg, (t.q q).m[m] = 0) ∧ (∀ n : TReg, (t.q q).tile[n].cfg = false) ∧ (t.q q).stores = [] ∧
          (t.q q).pendingList = [] ∧ (t.q q).crGet 0 = 0xF1000 ∧ (t.q q).crGet 0x031 = 3 ∧ (t.q q).crGet 0x020 = 0 ∧
          (CrCanon c → ∀ n, 0x0C0 ≤ n → n ≤ 0x0CB → (t.q q).crGet n = c.crGet n) ∧
          (NoneWaits s q → (t.q q).irq = 0 ∧ ∀ j, j ≠ q → t.q j = s.q j)) ∧
      (c.action = 0 → c.st = .idle →
        let base := s.fld (0x100018 + 0x10000 * q.val) 45 12 * 4096
        let b := s.setQ q { c with action := 2 }
        (s.areaOk base 0 512 = false ∨ (s.poisonedIn base 512).isSome = true → r 2 = .next (b.actionEnd q ctx 5)) ∧
        (s.areaOk base 0 512 = true → s.poisonedIn base 512 = none → s.newerHeader base = none →
          r 2 = .next (b.actionEnd q ctx 3)) ∧
        (∀ n, s.areaOk base 0 512 = true → s.poisonedIn base 512 = none → s.newerHeader base = some n →
          (s.readN (base + 0x100 * n + 0x18) 2 % 4096 ≠ ctx.toNat → r 2 = .next (b.actionEnd q ctx 4)) ∧
          (s.readN (base + 0x100 * n + 0x18) 2 % 4096 = ctx.toNat → ∃ t, r 2 = .next t ∧ (t.q q).st = .restoring ∧
            (t.q q).ctx = ctx ∧ t.mem = s.mem ∧ (∀ g, (t.q q).gr g = c.gr g) ∧
            (∀ j, j ≠ q → (t.q j).st = (s.q j).st ∧ (t.q j).g = (s.q j).g ∧ (t.q j).pc = (s.q j).pc)))))

/-- R245, R252, R254 to R256, R258: the events that carry an action on: the end of the grace, the boundary at which a quire
has stopped, the commit of a save, and the end of a restore. -/
def Sys2Proof.ContextEvents : Prop :=
  ∀ (s : State) (q : QuireId),
    let c := s.q q
    (c.st ≠ .grace → exec (.graceExpiry q) s = .next s) ∧
    (c.st = .grace → exec (.graceExpiry q) s = .next (({ s with
        gtime := if s.gtime.toNat < c.graceEnd.toNat then c.graceEnd else s.gtime } : State).setQ q
      { c with st := .quiesce, action := 5 })) ∧
    (c.st = .quiesce → c.atomicAway = false → (s.drain q).storesOut q = false →
      let t := s.quiesced q
      (c.action ≠ 4 → exec (.quiesceComplete q) s = .next (t.setQ q { t.q q with st := .saving })) ∧
      (c.action = 4 → ∃ u, exec (.quiesceComplete q) s = .next u ∧ (u.q q).st = .idle ∧ (u.q q).ctx = 0 ∧
        (NoneWaits t q → (u.q q).irq = 0) ∧ (u.q q).stores = [] ∧ (u.q q).storeErr = none ∧ (u.q q).result = 1 ∧ (u.q q).action = 0)) ∧
    (c.st = .saving → ∀ t, s.saveCommit q c.full false = some t →
      (c.action = 6 → ∃ u, exec (.saveCommit q) s = .next u ∧ (u.q q).st = .running ∧ (u.q q).result = 1 ∧
        (u.q q).action = 0 ∧ (u.q q).g = c.g ∧ (u.q q).pc = c.pc) ∧
      (c.action ≠ 6 → ∃ u, exec (.saveCommit q) s = .next u ∧ (u.q q).st = .idle ∧ (u.q q).ctx = 0 ∧ (u.q q).result = 1 ∧
        (u.q q).action = 0)) ∧
    (c.st = .saving → s.saveCommit q c.full false = none → s.releasing q = false → ∃ u,
      exec (.saveCommit q) s = .next u ∧ (u.q q).st = .held ∧ (u.q q).result = 5 ∧ (u.q q).ctx = c.ctx ∧ (u.q q).g = c.g) ∧
    (c.st = .restoring → c.isoWait = false →
      let base := s.fld (0x100018 + 0x10000 * q.val) 45 12 * 4096
      (∀ n t, s.newerHeader base = some n → s.restoreImage q base (base + 0x100 * n) = some t →
        ∃ u, exec (.restoreComplete q) s = .next u ∧ (u.q q).st = .running ∧ (u.q q).result = 1 ∧
          (u.q q).g = (t.q q).g ∧ (u.q q).pc = (t.q q).pc ∧ (u.q q).cr = (t.q q).cr ∧
          (u.q q).pendingList = (t.q q).pendingList ∧ (u.q q).restored = true ∧ (u.q q).area = some base) ∧
      ((∀ n, s.newerHeader base = some n → s.restoreImage q base (base + 0x100 * n) = none) →
        ∃ u, exec (.restoreComplete q) s = .next u ∧ (u.q q).st = .idle ∧ (u.q q).ctx = 0 ∧ (u.q q).result = 5))

/-- R245, R250 to R252, R254 to R256, R258, R309: Q_CTX_CTL, and the events that carry an action on.
The model's choices that it rests on: log entries 29, 31. -/
def Obligations.ContextCommands : Prop := ContextActions ∧ ContextEvents

/-- R256 to R258: a committed save can be restored from its area: its header is valid and names the context, and the image
gives back the general and FP registers and the PC, a multiple of 4.
The model's choices that it rests on: log entries 12, 13. -/
def Obligations.SaveRestores : Prop :=
  ∀ (s t : State) (q p : QuireId) (full tip : Bool), Canon s.mem → (s.q q).pc.toNat % 4 = 0 →
    s.saveCommit q full tip = some t →
    let base := s.fld (0x100018 + 0x10000 * q.val) 45 12 * 4096
    ∃ n, (n = 0 ∨ n = 1) ∧ t.headerOk (base + 0x100 * n) = true ∧
      t.readN (base + 0x100 * n + 0x18) 2 % 4096 = (s.q q).ctx.toNat ∧ (t.q q).area = some base ∧
      ∀ u, t.restoreImage p base (base + 0x100 * n) = some u →
        (u.q p).pc = (s.q q).pc ∧ (u.q p).f = (s.q q).f ∧ ∀ r, (u.q p).gr r = (s.q q).gr r

/-- R19, R21, R259, R260: tip-in: its start, its commit in one colophon update, and its failures, which leave a healthy
source with its own context: running on, or restored from its image once that is committed.
The model's choices that it rests on: log entries 26, 27, 109, 171, 172. -/
def Obligations.TipIns : Prop :=
  ∀ (s : State) (logical : Fin 32) (src spare : QuireId) (k : TipIn),
    (s.physOf logical.val = none → exec (.tipIn logical spare) s = .next s) ∧
    (s.physOf logical.val = some src → s.tipin.isSome = true ∨ (s.q src).st ≠ .running ∨ (s.q spare).st ≠ .idle ∨
        s.quireUp spare = false → exec (.tipIn logical spare) s = .next s) ∧
    (s.physOf logical.val = some src → src ≠ spare → s.tipin = none → (s.q src).st = .running → (s.q spare).st = .idle →
      (s.q spare).action = 0 → s.logicalOf spare = none → s.quireUp spare = true →
      ∃ t, exec (.tipIn logical spare) s = .next t ∧
        t.tipin = some ⟨logical, src, spare, false, false, false, false⟩ ∧
        (∃ l, t.q src = { s.q src with
          st := .tipinSource
          l2 := l }) ∧ (t.q spare).st = .tipinTarget ∧ (t.q spare).ctx = (s.q src).ctx ∧
        t.mem = s.mem ∧
        (∀ j, j ≠ src → j ≠ spare → (t.q j).st = (s.q j).st ∧ (t.q j).g = (s.q j).g ∧ (t.q j).pc = (s.q j).pc)) ∧
    (s.tipin = some k → k.logical = logical → k.restored = true → k.source ≠ k.spare →
      ∃ t, exec (.tipInCommit logical) s = .next t ∧ t.tipin = none ∧ (t.q k.spare).st = .running ∧
        (t.q k.spare).result = 1 ∧ (t.q k.spare).g = (s.q k.spare).g ∧ (t.q k.source).ctx = 0 ∧
        (t.q k.source).st = (if s.quireUp k.source then .idle else .offline)) ∧
    (s.tipin = some k → k.logical ≠ logical ∨ k.restored = false → exec (.tipInCommit logical) s = .next s) ∧
    (∀ what, s.tipin = none → exec (.tipInFailure logical what) s = .next s) ∧
    (∀ what, s.tipin = some k → k.logical = logical → k.source ≠ k.spare → s.quireUp k.source = true → what ≠ .source →
      let base := s.fld (0x100018 + 0x10000 * k.source.val) 45 12 * 4096
      (k.saved = true → ∀ n u, s.newerHeader base = some n →
        (s.tipDiscard k).restoreImage k.source base (base + 0x100 * n) = some u →
        exec (.tipInFailure logical what) s = .next (u.setQ k.source { u.q k.source with st := .running })) ∧
      (k.saved = true → (∀ n, s.newerHeader base = some n →
          (s.tipDiscard k).restoreImage k.source base (base + 0x100 * n) = none) →
        ∃ t, exec (.tipInFailure logical what) s = .next t ∧ t.tipin = none ∧ (t.q k.source).st = .held ∧
          (t.q k.source).result = 5 ∧ (t.q k.source).g = (s.q k.source).g) ∧
      (k.saved = false → ∃ t, exec (.tipInFailure logical what) s = .next t ∧ t.tipin = none ∧ (t.q k.source).st = .running ∧
        (t.q k.source).g = (s.q k.source).g ∧ (t.q k.source).ctx = (s.q k.source).ctx ∧ (t.q k.spare).st = .idle ∧
        (t.q k.spare).ctx = 0)) ∧
    (s.tipin = some k → k.logical = logical → k.saved = true → exec (.tipInFailure logical .source) s = .next s)

/-! ## Tehus-S instructions (12) -/

/-- The engine issues from this bank, and nothing comes before its next instruction (R364, R367). -/
def Sys2Proof.StitchReady (s : State) (e : EngineId) (b : Fin 9) : Prop :=
  s.issues e b = true ∧ s.boundary e b = none

/-- The READY banks of an engine in the order in which they became so, once bank b is as `k` (R364). -/
def Sys2Proof.readyList (l : List (Fin 9)) (b : Fin 9) (k : Bank) : List (Fin 9) :=
  if k.st = .ready then (if b ∈ l then l else l ++ [b]) else l.filter (· ≠ b)

/-- The bank that issues is RUNNING, and one that ran before it READY, behind those that were (R364). -/
def Sys2Proof.started (s : State) (e : EngineId) (b : Fin 9) : State :=
  let g := s.eng e
  let ran := (List.finRange 9).filter (fun c => c ≠ b && g.banks[c].st = .running)
  s.setEng e { g with
    order := (ran.foldl (fun l c => if c ∈ l then l else l ++ [c]) g.order).filter (· ≠ b)
    banks := Vector.ofFn (fun c =>
      let k := g.banks[c]
      { k with st := if c = b then .running else if k.st = .running then .ready else k.st }) }

/-- Replace a bank of an engine and its STICKY. -/
def Sys2Proof.withBank (t : State) (e : EngineId) (b : Fin 9) (k : Bank) (sticky : W32) : State :=
  t.setEng e { t.eng e with
    sticky := sticky
    banks := (t.eng e).banks.set b k
    order := readyList (t.eng e).order b k }

/-- Bit i of FLAGS becomes `g i`, where that is given, and stays otherwise. -/
def Sys2Proof.FlagsBecome (old new : W32) (g : Nat → Option Bool) : Prop :=
  ∀ i < 32, new.getLsbD i = (g i).getD (old.getLsbD i)

/-- What an instruction on the operand stack is to do, as a function of the bank, STICKY and TRAPEN it finds. -/
structure Sys2Proof.StackEffect where
  /-- words popped and pushed, for the check of R314 -/
  pops : Nat
  pushes : Nat
  /-- the modifier is not reserved -/
  ok : Prop
  /-- the vector of an exception -/
  trap : Core → Option Nat
  /-- the words pushed, top first -/
  out : Core → List W32
  /-- bits of FLAGS written -/
  flags : Core → Nat → Option Bool
  /-- bits of STICKY set -/
  stick : Core → W32
  /-- what else of the bank changes -/
  more : Core → Bank → Bank

/-- An instruction of `len` bytes has such an effect (R314, R318, R320, R321, R366): the modifier, then the stack, then the
instruction's own exception, each with the bank as it was; otherwise only its bank and STICKY change. -/
def Sys2Proof.StackRuns (i : Instr) (e : EngineId) (b : Fin 9) (len : Nat) (x : StackEffect) : Prop :=
  ∀ s, StitchReady s e b →
    let t := started s e b
    let k := t.bank e b
    let c : Core := ⟨k, (t.eng e).sticky, (t.eng e).trapen⟩
    let n := k.stack.length
    let full : Prop := 0 < x.pops + x.pushes ∧ 16 < n - x.pops + x.pushes
    let raise (v : Nat) : Prop := exec i s = .next (t.raiseS e b v 0 k.pc none)
    (¬ x.ok → raise 1) ∧
    (x.ok → n < x.pops → raise 3) ∧
    (x.ok → x.pops ≤ n → full → raise 2) ∧
    (x.ok → x.pops ≤ n → ¬ full →
      (∀ v, x.trap c = some v → raise v) ∧
      (x.trap c = none → ∃ F, FlagsBecome k.flags F (x.flags c) ∧
        exec i s = .next (withBank t e b { x.more c k with
          stack := x.out c ++ k.stack.drop x.pops
          flags := F
          pc := k.pc + BitVec.ofNat 18 len } (c.sticky ||| x.stick c))))

/-- An instruction that only moves words of the stack. -/
def Sys2Proof.moves (pops pushes : Nat) (ok : Prop) (out : List W32 → List W32) : StackEffect :=
  ⟨pops, pushes, ok, fun _ => none, fun c => out c.bank.stack, fun _ _ => none, fun _ => 0, fun _ k => k⟩

/-- N and Z of a result, V and C. -/
def Sys2Proof.nzvc (r : W32) (v c : Option Bool) (i : Nat) : Option Bool :=
  if i = 0 then v else if i = 1 then c else if i = 2 then some (r = 0) else if i = 3 then some r.msb else none

/-- A sum or a difference with its flags, NC among them, and, checked, its overflow (R323, R324). -/
def Sys2Proof.adds (pops pushes : Nat) (ok : Prop) (sub chk : Bool) (a b : Core → W32) (x : Core → Nat) : StackEffect :=
  let r (c : Core) : W32 :=
    if sub then a c - b c - BitVec.ofNat 32 (x c) else a c + b c + BitVec.ofNat 32 (x c)
  let exact (c : Core) : Int := if sub then (a c).toInt - (b c).toInt - x c else (a c).toInt + (b c).toInt + x c
  let v (c : Core) : Bool := (r c).toInt ≠ exact c
  let cf (c : Core) : Bool :=
    if sub then (b c).toNat + x c ≤ (a c).toNat else 2 ^ 32 ≤ (a c).toNat + (b c).toNat + x c
  let nib (c : Core) (j : Nat) : Bool :=
    let m := 2 ^ (4 * j + 4)
    if sub then (a c).toNat % m < (b c).toNat % m + x c else m ≤ (a c).toNat % m + (b c).toNat % m + x c
  ⟨pops, pushes, ok, fun c => if chk && v c && c.trapen.getLsbD 1 then some 6 else none,
    fun c => if pushes = 0 then [] else [r c],
    fun c i => if 8 ≤ i ∧ i < 16 then some (nib c (i - 8)) else nzvc (r c) (some (v c)) (some (cf c)) i,
    fun c => if chk && v c then 0x40 else 0, fun _ k => k⟩

/-- A result with its flags. -/
def Sys2Proof.gives (pops pushes : Nat) (ok : Prop) (r : Core → W32) (fl : Core → Nat → Option Bool) : StackEffect :=
  ⟨pops, pushes, ok, fun _ => none, fun c => if pushes = 0 then [] else [r c], fl, fun _ => 0, fun _ k => k⟩

/-- A division with its traps (R326). -/
def Sys2Proof.divides (m : Byte) (rem : Bool) : StackEffect :=
  let ovf (c : Core) : Bool := m = 0 && c.at 1 = 0x80000000 && c.at 0 = 0xFFFFFFFF
  ⟨2, 1, m.toNat < 2,
    fun c => if c.at 0 = 0 then (if c.trapen.getLsbD 0 then some 5 else none)
      else if ovf c && !rem && c.trapen.getLsbD 1 then some 6 else none,
    fun c => [if c.at 0 = 0 then (if rem then c.at 1 else 0xFFFFFFFF)
      else if ovf c then (if rem then 0 else 0x80000000)
      else if m = 0 then BitVec.ofInt 32 (if rem then (c.at 1).toInt.tmod (c.at 0).toInt else (c.at 1).toInt.tdiv (c.at 0).toInt)
      else BitVec.ofNat 32 (if rem then (c.at 1).toNat % (c.at 0).toNat else (c.at 1).toNat / (c.at 0).toNat)],
    fun _ _ => none,
    fun c => if c.at 0 = 0 then 0x20 else if ovf c && !rem then 0x40 else 0, fun _ k => k⟩

/-- R313, R314, R316, R321 to R326: the stack, arithmetic, logic, shifts, products and divisions of Tehus-S.
The model's choices that it rests on: log entries 6, 193. -/
def Obligations.StitchInteger : Prop :=
  ∀ (e : EngineId) (b : Fin 9) (m : Byte) (w16 : W16) (w32 : W32),
    let R (i : Instr) (x : StackEffect) : Prop := StackRuns i e b 2 x
    let n := m.toNat
    let one (c : Core) : W32 := c.at 1
    let top (c : Core) : W32 := c.at 0
    let carry (c : Core) : Nat := if c.bank.flags.getLsbD 1 then 1 else 0
    let sx : W32 := m.signExtend 32
    let logic (f : W32 → W32 → W32) : StackEffect :=
      gives 2 1 (m = 0) (fun c => f (one c) (top c)) (fun c => nzvc (f (one c) (top c)) (some false) none)
    let shOk : Prop := n / 32 % 4 = 0 ∧ (m.getLsbD 7 = true ∨ m = 0)
    let shift (i : Instr) (f : W32 → Nat → W32) (g : W32 → Nat → Option Bool) : Prop :=
      (m.getLsbD 7 = true → R i (gives 1 1 shOk (fun c => f (top c) (n % 32))
        (fun c => nzvc (f (top c) (n % 32)) (some false) (g (top c) (n % 32))))) ∧
      (m.getLsbD 7 = false → R i (gives 2 1 shOk (fun c => f (one c) ((top c).toNat % 64))
        (fun c => nzvc (f (one c) ((top c).toNat % 64)) (some false) (g (one c) ((top c).toNat % 64)))))
    R (.pushi8 e b m) (moves 0 1 True (fun _ => [sx])) ∧
    StackRuns (.pushi16 e b m w16) e b 4 (moves 0 1 (m = 0) (fun _ => [w16.signExtend 32])) ∧
    StackRuns (.pushi32 e b m w32) e b 6 (moves 0 1 (m = 0) (fun _ => [w32])) ∧
    R (.pick e b m) (moves (n + 1) (n + 2) (n < 16) (fun l => l.getD n 0 :: l.take (n + 1))) ∧
    R (.drop e b m) (moves (n + 1) 0 (n < 16) (fun _ => [])) ∧
    R (.sSwap e b m) (moves 2 2 (m = 0) (fun l => [l.getD 1 0, l.getD 0 0])) ∧
    R (.roll e b m) (moves (n + 1) (n + 1) (n < 16) (fun l => l.getD n 0 :: l.take n)) ∧
    R (.depth e b m) (moves 0 1 (m = 0) (fun l => [BitVec.ofNat 32 l.length])) ∧
    R (.sAdd e b m) (adds 2 1 (n < 2) false (m = 1) one top (fun _ => 0)) ∧
    R (.adc e b m) (adds 2 1 (n < 2) false (m = 1) one top carry) ∧
    R (.sSub e b m) (adds 2 1 (n < 2) true (m = 1) one top (fun _ => 0)) ∧
    R (.sbc e b m) (adds 2 1 (n < 2) true (m = 1) one top (fun c => 1 - carry c)) ∧
    R (.cmp e b m) (adds 2 0 (m = 0) true false one top (fun _ => 0)) ∧
    R (.sAddi e b m) (adds 1 1 True false false top (fun _ => sx) (fun _ => 0)) ∧
    R (.neg e b m) (adds 1 1 (n < 2) true (m = 1) (fun _ => 0) top (fun _ => 0)) ∧
    R (.sAnd e b m) (logic (fun a b => a &&& b)) ∧
    R (.sOr e b m) (logic (fun a b => a ||| b)) ∧
    R (.sXor e b m) (logic (fun a b => a ^^^ b)) ∧
    R (.sAndn e b m) (logic (fun a b => a &&& ~~~b)) ∧
    R (.not e b m) (gives 1 1 (m = 0) (fun c => ~~~(top c)) (fun c => nzvc (~~~(top c)) (some false) none)) ∧
    R (.sTst e b m) (gives 2 0 (m = 0) (fun _ => 0) (fun c => nzvc (one c &&& top c) (some false) none)) ∧
    shift (.shl e b m) (fun a c => a <<< c) (fun a c => if c = 0 then none else some (c ≤ 32 && a.getLsbD (32 - c))) ∧
    shift (.shr e b m) (fun a c => a >>> c) (fun a c => if c = 0 then none else some (a.getLsbD (c - 1))) ∧
    shift (.sar e b m) (fun a c => BitVec.ofInt 32 (a.toInt / 2 ^ c))
      (fun a c => if c = 0 then none else some (if c ≤ 32 then a.getLsbD (c - 1) else a.msb)) ∧
    shift (.sRor e b m) (fun a c => a.rotateRight (c % 32))
      (fun a c => if c % 32 = 0 then none else some (a.getLsbD (c % 32 - 1))) ∧
    R (.sMul e b m) { moves 2 0 (n < 4) (fun _ => []) with more := fun c k => { k with
      muls := k.muls ++ [
        let a := (one c).toInt
        let d := (top c).toInt
        if n = 0 then (BitVec.ofInt 64 (a * d), false)
        else if n = 1 then (BitVec.ofNat 64 ((one c).toNat * (top c).toNat), false)
        else if n = 2 then (BitVec.ofInt 64 (a * (top c).toNat), false)
        else if one c = 0x80000000 ∧ top c = 0x80000000 then (0x7FFFFFFFFFFFFFFF, true)
        else (BitVec.ofInt 64 (2 * (a * d)), false)] } } ∧
    R (.sDiv e b m) (divides m false) ∧
    R (.sRem e b m) (divides m true) ∧
    (∀ s : State, exec (.mulProductLand e b) s = .next (withBank s e b
      (match (s.bank e b).muls with
       | [] => s.bank e b
       | (p, sat) :: r => { s.bank e b with
           muls := r
           mph := p.extractLsb' 32 32
           mpl := p.setWidth 32
           flags := if sat then setBit (s.bank e b).flags 4 true else (s.bank e b).flags }) (s.eng e).sticky))

/-- A value clamped to n signed bits (R332). -/
def Sys2Proof.clamp (n : Nat) (x : Int) : Int := max (-2 ^ (n - 1)) (min x (2 ^ (n - 1) - 1))

/-- A value divided by 2^k and rounded: down, half up, or half to even (R332). -/
def Sys2Proof.halved (k m : Nat) (x : Int) : Int :=
  if k = 0 then x
  else
    let f := x / 2 ^ k
    let r := x % 2 ^ k
    if m = 0 ∨ r < 2 ^ (k - 1) then f else if r > 2 ^ (k - 1) ∨ m = 1 ∨ f % 2 = 1 then f + 1 else f

/-- The number that eight decimal digits spell. -/
def Sys2Proof.decimal (x : W32) : Nat := ((List.range 8).map (fun i => x.toNat / 16 ^ i % 16 * 10 ^ i)).sum

/-- Every digit of a word is decimal. -/
def Sys2Proof.IsDecimal (x : W32) : Prop := ∀ i < 8, x.toNat / 16 ^ i % 16 ≤ 9

/-- R315, R332 to R336: fractions and ACC, CRC, bit operations and decimal arithmetic.
The model's choices that it rests on: log entries 6, 47, 48. -/
def Obligations.StitchFractions : Prop :=
  ∀ (e : EngineId) (b : Fin 9) (m : Byte),
    let R (i : Instr) (x : StackEffect) : Prop := StackRuns i e b 2 x
    let n := m.toNat
    let one (c : Core) : Int := (c.at 1).toInt
    let top (c : Core) : Int := (c.at 0).toInt
    let acc (c : Core) : Int := c.bank.acc.toInt
    let frac (ok : Prop) (f : Core → Int) : StackEffect :=
      let r (c : Core) : W32 := BitVec.ofInt 32 (clamp 32 (f c))
      let s (c : Core) : Bool := clamp 32 (f c) ≠ f c
      gives 2 1 ok r (fun c i => if i = 4 then (if s c then some true else none) else nzvc (r c) (some (s c)) none i)
    let into (pops : Nat) (ok : Prop) (f : Core → Int) : StackEffect :=
      { moves pops 0 ok (fun _ => []) with
        flags := fun c i => if i = 4 ∧ clamp 40 (f c) ≠ f c then some true else none
        more := fun c k => { k with acc := BitVec.ofInt 40 (clamp 40 (f c)) } }
    let bitop (ok : Prop) (f : W32 → W32) : StackEffect :=
      gives 1 1 ok (fun c => f (c.at 0)) (fun c i => if i = 2 then some (f (c.at 0) = 0) else none)
    let dec (r : Core → W32) (cf : Core → Option Bool) (c : Core) (i : Nat) : Option Bool :=
      if i = 1 then cf c else if i = 2 then some (r c = 0) else if i = 0 ∨ i = 3 then some false else none
    R (.fadds e b m) (frac (m = 0) (fun c => one c + top c)) ∧
    R (.fsubs e b m) (frac (m = 0) (fun c => one c - top c)) ∧
    R (.fmulr e b m) (frac (n < 3) (fun c => halved 31 n (one c * top c))) ∧
    R (.accld e b m) (into 1 (m = 0) top) ∧
    R (.accadd e b m) (into 1 (m = 0) (fun c => acc c + top c)) ∧
    R (.mac e b m) (into 2 (n < 3) (fun c => acc c + halved 31 n (one c * top c))) ∧
    R (.msu e b m) (into 2 (n < 3) (fun c => acc c - halved 31 n (one c * top c))) ∧
    R (.accst e b m) { gives 0 1 (n < 2)
        (fun c => if m = 1 then BitVec.ofInt 32 (clamp 32 (acc c)) else c.bank.acc.setWidth 32) (fun _ _ => none) with
      flags := fun c i => if i = 4 ∧ m = 1 ∧ clamp 32 (acc c) ≠ acc c then some true else none } ∧
    R (.accshr e b m) { moves 0 0 (n < 128 ∧ n / 32 % 4 < 3) (fun _ => []) with
      more := fun c k => { k with acc := BitVec.ofInt 40 (halved (n % 32) (n / 32 % 4) (acc c)) } } ∧
    R (.accclr e b m) { moves 0 0 (m = 0) (fun _ => []) with more := fun _ k => { k with acc := 0 } } ∧
    R (.accget e b m) (gives 0 1 (n < 2)
      (fun c => if m = 0 then c.bank.acc.setWidth 32 else (c.bank.acc.extractLsb' 32 8).signExtend 32) (fun _ _ => none)) ∧
    R (.accput e b m) { moves 1 0 (n < 2) (fun _ => []) with more := fun c k => { k with
      acc := if m = 0 then k.acc.extractLsb' 32 8 ++ c.at 0 else (c.at 0).setWidth 8 ++ k.acc.setWidth 32 } } ∧
    (∀ s, StitchReady s e b → ((started s e b).eng e).syncPend = [] →
      let t := started s e b
      let k := t.bank e b
      let g := t.eng e
      let w := 8 * 2 ^ (g.crcCfg.toNat % 4)
      let step (x d : Nat) : Nat := crcBytes w (g.crcLo.toNat + g.crcHi.toNat * 2 ^ 32) (g.crcCfg.getLsbD 7) (x % 2 ^ w)
        (leBytes (2 ^ n) d)
      let done (l : List W32) : State := withBank t e b { k with stack := l, pc := k.pc + 2 } g.sticky
      (¬ n < 3 → exec (.sCrc e b m) s = .next (t.raiseS e b 1 0 k.pc none)) ∧
      (∀ d x r, n < 3 → w ≠ 64 → k.stack = d :: x :: r → r.length < 16 →
        exec (.sCrc e b m) s = .next (done (BitVec.ofNat 32 (step x.toNat d.toNat) :: r))) ∧
      (∀ d x y r, n < 3 → w = 64 → k.stack = d :: x :: y :: r → r.length + 2 ≤ 16 →
        let z := step (y.toNat * 2 ^ 32 + x.toNat) d.toNat
        exec (.sCrc e b m) s = .next (done (BitVec.ofNat 32 z :: BitVec.ofNat 32 (z / 2 ^ 32) :: r)))) ∧
    R (.par e b m) (bitop (n < 3) (fun a =>
      BitVec.ofNat 32 (((List.range (8 * 2 ^ n)).filter (fun i => a.getLsbD i)).length % 2))) ∧
    (∃ f : W32 → W32, R (.sBrev e b m) (bitop (1 ≤ n ∧ n ≤ 32) f) ∧
      ∀ a i, 1 ≤ n → n ≤ 32 → i < 32 → (f a).getLsbD i = (decide (i < n) && a.getLsbD (n - 1 - i))) ∧
    R (.sPopc e b m) (bitop (m = 0) (fun a => BitVec.ofNat 32 ((List.range 32).filter (fun i => a.getLsbD i)).length)) ∧
    R (.sClz e b m) (bitop (m = 0) (fun a =>
      BitVec.ofNat 32 (((List.range 32).find? (fun i => a.getMsbD i)).getD 32))) ∧
    R (.sBswap e b m) (bitop (m = 0) (fun a =>
      a.extractLsb' 0 8 ++ a.extractLsb' 8 8 ++ a.extractLsb' 16 8 ++ a.extractLsb' 24 8)) ∧
    (∀ sub : Bool, ∃ (f : Core → W32) (g : Core → Bool),
      let cin (c : Core) : Nat := if m = 0 then 0 else if c.bank.flags.getLsbD 1 = sub then 0 else 1
      R (if sub then .dsub e b m else .dadd e b m)
        { gives 2 1 (n < 2) f (dec f (fun c => some (g c))) with
          stick := fun c => if (∃ i, i < 8 ∧ 9 < (c.at 1).toNat / 16 ^ i % 16) ∨ (∃ i, i < 8 ∧ 9 < (c.at 0).toNat / 16 ^ i % 16)
            then 0x08 else 0 } ∧
      ∀ c, IsDecimal (c.at 1) → IsDecimal (c.at 0) → IsDecimal (f c) ∧
        (sub = false → decimal (f c) = (decimal (c.at 1) + decimal (c.at 0) + cin c) % 10 ^ 8 ∧
          (g c = true ↔ 10 ^ 8 ≤ decimal (c.at 1) + decimal (c.at 0) + cin c)) ∧
        (sub = true → decimal (f c) = (decimal (c.at 1) + 10 ^ 8 - decimal (c.at 0) - cin c) % 10 ^ 8 ∧
          (g c = true ↔ decimal (c.at 0) + cin c ≤ decimal (c.at 1)))) ∧
    (∃ t : Core → Nat → Nat,
      (∀ c, t c 0 = (c.at 0).toNat ∧ ∀ i < 8, t c (i + 1) = t c i +
        (if c.bank.flags.getLsbD (8 + i) = true ∨ 9 < t c i / 16 ^ i % 16 then 6 * 16 ^ i else 0)) ∧
      let f (c : Core) : W32 := if m = 0 then BitVec.ofNat 32 (t c 8)
        else c.at 0 - BitVec.ofNat 32 (((List.range 8).map (fun i =>
          if c.bank.flags.getLsbD (8 + i) then 6 * 16 ^ i else 0)).sum)
      R (.dadj e b m) (gives 1 1 (n < 2) f
        (dec f (fun c => if m = 0 then some (c.bank.flags.getLsbD 1 || (t c 8).testBit 32) else none))))

/-- A step of a bank's engine that leaves its other banks as they are. -/
def Sys2Proof.withEngine (t : State) (e : EngineId) (b : Fin 9) (g : Engine) (k : Bank) : State :=
  t.setEng e { g with
    banks := g.banks.set b k
    order := readyList g.order b k }

/-- R317, R318, R327, R366: branches, jumps, calls and returns, with the checks of their targets and of the return stack, and
the return from an exception.
The model's choices that it rests on: log entries 6, 46. -/
def Obligations.StitchControl : Prop :=
  ∀ (s : State) (e : EngineId) (b : Fin 9) (m : Byte) (w : W16) (c : BitVec 4), StitchReady s e b →
    let t := started s e b
    let g := t.eng e
    let k := t.bank e b
    let raise (i : Instr) (v : Nat) (a : Option W32) : Prop := exec i s = .next (t.raiseS e b v 0 k.pc a)
    let goes (i : Instr) (k' : Bank) : Prop := exec i s = .next (withEngine t e b g k')
    let near : BitVec 18 := k.pc + BitVec.ofInt 18 (2 * m.toInt)
    let far : BitVec 18 := k.pc + BitVec.ofInt 18 (2 * w.toInt)
    let good (x : W32) : Prop := x.toNat < 2 ^ 18 ∧ x.toNat % 2 = 0
    let low := k.rslimit.toNat % 2 ^ 16
    let high := k.rslimit.toNat / 2 ^ 16
    let room : Prop := k.rslimit ≠ 0 ∧ low + 4 ≤ k.rsp.toNat
    -- a call whose bank, but for the return stack and the PC, becomes k', to x, returning to r
    let call (i : Instr) (k' : Bank) (x : W32) (r : BitVec 18) : Prop :=
      (¬ room → raise i 4 none) ∧
      (room → ¬ good x → raise i 7 (some x)) ∧
      (room → good x → 0x8000 ≤ k.rsp.toNat - 4 → raise i 7 (some (k.rsp - 4))) ∧
      (room → good x → k.rsp.toNat - 4 < 0x8000 → exec i s = .next
        (withEngine t e b (g.ramWrite (k.rsp.toNat - 4) 4 r.toNat) { k' with rsp := k.rsp - 4, pc := x.setWidth 18 }))
    let n := k.flags.getLsbD 3
    let z := k.flags.getLsbD 2
    let cy := k.flags.getLsbD 1
    let v := k.flags.getLsbD 0
    let sf := k.flags.getLsbD 4
    let holds : Bool := [z, !z, cy, !cy, n, !n, v, !v, cy && !z, !(cy && !z), n == v, n != v, !z && (n == v), z || (n != v),
      sf, !sf].getD c.toNat false
    goes (.br e b m) { k with pc := near } ∧
    goes (.bcc e b c m) { k with pc := if holds then near else k.pc + 2 } ∧
    (m ≠ 0 → raise (.brl e b m w) 1 none ∧ raise (.call e b m w) 1 none ∧ raise (.calli e b m) 1 none ∧
      raise (.jmpi e b m) 1 none ∧ raise (.ret e b m) 1 none ∧ raise (.reti e b m) 1 none) ∧
    (m = 0 → goes (.brl e b m w) { k with pc := far }) ∧
    (m = 0 → call (.call e b m w) k (far.setWidth 32) (k.pc + 4)) ∧
    (m = 0 → k.stack = [] → raise (.calli e b m) 3 none ∧ raise (.jmpi e b m) 3 none) ∧
    (∀ x l, m = 0 → k.stack = x :: l → l.length ≤ 16 →
      call (.calli e b m) { k with stack := l } x (k.pc + 2) ∧
      (good x → goes (.jmpi e b m) { k with stack := l, pc := x.setWidth 18 }) ∧
      (¬ good x → raise (.jmpi e b m) 7 (some x))) ∧
    (m = 0 → high ≤ k.rsp.toNat → raise (.ret e b m) 4 none) ∧
    (m = 0 → k.rsp.toNat < high →
      let x : W32 := BitVec.ofNat 32 (g.ramRead k.rsp.toNat 4)
      (good x → goes (.ret e b m) { k with rsp := k.rsp + 4, pc := x.setWidth 18 }) ∧
      (¬ good x → raise (.ret e b m) 7 (some x))) ∧
    (k.exc = false → raise (.reti e b m) 1 none) ∧
    (m = 0 → k.exc = true →
      let k' : Bank := { k with flags := k.eflags, exc := false, pc := k.epc.setWidth 18 }
      (b ≠ 8 → goes (.reti e b m) k') ∧
      (b = 8 →
        let u := withEngine t e b { g with open_ := true } { k' with st := .free }
        exec (.reti e b m) s = .next ((u.fastEntry e).getD u)))

/-- R331, R337 to R344: reading and writing the special registers. -/
def Sys2Proof.SpecialRegisters : Prop :=
  ∀ (s : State) (e : EngineId) (b : Fin 9) (m : Byte), StitchReady s e b →
    let t := started s e b
    let g := t.eng e
    let k := t.bank e b
    let raise (i : Instr) (v : Nat) : Prop := exec i s = .next (t.raiseS e b v 0 k.pc none)
    let goes (i : Instr) (g' : Engine) (k' : Bank) : Prop := exec i s = .next (withEngine t e b g' { k' with pc := k.pc + 2 })
    let n := m.toNat
    let free (l : List W32) : Prop := l.length < 16
    let reads (p : Nat × W32) : Prop :=
      n = p.1 → free k.stack → goes (.rdsr e b m) g { k with stack := p.2 :: k.stack }
    (∀ p ∈ [(0x00, k.flags), (0x01, g.sticky), (0x04, k.rsp), (0x05, k.rslimit), (0x06, g.trapen),
        (0x07, BitVec.ofNat 32 (if e.val < 64 then e.val else 2 ^ 31 + e.val - 64)), (0x0C, g.dwin), (0x11, k.epc),
        (0x12, k.eflags), (0x13, k.ecause), (0x14, k.eaddr),
        (0x15, BitVec.ofNat 32 (b.val + (if k.exc then 0x4000 else 0) + (if b = 8 then 0x8000 else 0) +
          (k.stream.getD 0).toNat * 65536)),
        (0x16, k.evpend.setWidth 32), (0x17, k.evirq.setWidth 32)], reads p) ∧
    -- a SYNC-class register while no write of one is outstanding
    (g.syncPend = [] → ∀ p ∈ [(0x08, g.crcCfg), (0x09, g.crcLo), (0x0A, g.crcHi), (0x0B, g.decen), (0x10, g.vbase),
        (0x19, g.detctl), (0x1A, g.stwin)], reads p) ∧
    -- MPH and MPL, early or not
    (∀ p ∈ [(2, k.mph), (3, k.mpl)], n = p.1 → free k.stack → goes (.rdsr e b m) g
      { k with stack := p.2 :: k.stack, flags := if k.muls = [] then k.flags else k.flags ||| 0x20 }) ∧
    (n = 0x18 → free k.stack → k.timer = 0 → goes (.rdsr e b m) g { k with stack := 0 :: k.stack }) ∧
    (n = 0x18 → free k.stack → k.timer ≠ 0 → ∃ v : W32, v ≠ 0 ∧ v.toNat ≤ k.timer.toNat ∧
      exec (.rdsr e b m) s = .next { withEngine t e b g { k with stack := v :: k.stack, timer := v, pc := k.pc + 2 } with
        free := t.free + 1 }) ∧
    ((0x0D ≤ n ∧ n < 0x10) ∨ 0x1A < n → raise (.rdsr e b m) 1 ∧ raise (.wrsr e b m) 1) ∧
    (n = 2 ∨ n = 3 ∨ n = 7 ∨ n = 0x15 → raise (.wrsr e b m) 1) ∧
    (∀ v l, k.stack = v :: l → l.length ≤ 16 →
      let d : Bank := { k with stack := l }
      (∀ p ∈ [(0x00, { d with flags := v &&& 0xFF3F }), (0x04, { d with rsp := v &&& 0xFFFC }),
          (0x11, { d with epc := v &&& 0x3FFFE }), (0x12, { d with eflags := v &&& 0xFF3F }),
          (0x13, { d with ecause := v &&& 0xFFFFFF0F }), (0x14, { d with eaddr := v }),
          (0x16, { d with evpend := k.evpend &&& ~~~(v.setWidth 6) }), (0x17, { d with evirq := v.setWidth 6 }),
          (0x18, { d with timer := v })], n = p.1 → goes (.wrsr e b m) g p.2) ∧
      (∀ p ∈ [(0x01, { g with sticky := v &&& 0x6F }), (0x06, { g with trapen := v &&& 3 }),
          (0x0C, { g with dwin := v &&& 0x80007FFF, dcache := [] })], n = p.1 → goes (.wrsr e b m) p.2 d) ∧
      (∀ p ∈ [(0x08, 0x83#32), (0x09, 0xFFFFFFFF), (0x0A, 0xFFFFFFFF), (0x0B, 0xFFFF), (0x10, 0x3FF00), (0x19, 1), (0x1A, 0x3F)],
        n = p.1 → goes (.wrsr e b m) { g with syncPend := g.syncPend ++ [(m, v &&& p.2)] } d) ∧
      (n = 5 → let ok : Prop := v.toNat / 2 ^ 16 ≤ 0x8000 ∧ v.toNat % 2 ^ 16 ≤ v.toNat / 2 ^ 16 ∧ v.toNat % 4 = 0 ∧
          v.toNat / 2 ^ 16 % 4 = 0
        (ok → goes (.wrsr e b m) g { d with rslimit := v }) ∧ (¬ ok → raise (.wrsr e b m) 1)))

/-- R320, R328 to R331, R365 to R368: NOP, SYNC, WAIT, SWI, DCINV and the words of no opcode; words of the local RAM; the events,
the timer and the exceptions taken at a boundary. -/
def Sys2Proof.StitchSystem : Prop :=
  ∀ (s : State) (e : EngineId) (b : Fin 9),
    (∀ (m : Byte) (w : W16), StitchReady s e b →
      let t := started s e b
      let g := t.eng e
      let k := t.bank e b
      let raise (i : Instr) (v : Nat) : Prop := exec i s = .next (t.raiseS e b v 0 k.pc none)
      let goes (i : Instr) (g' : Engine) (k' : Bank) : Prop :=
        exec i s = .next (withEngine t e b g' { k' with pc := k.pc + 2 })
      let last (n : Nat) (old : W32) : W32 :=
        (((g.syncPend.filter (fun p => p.1.toNat = n)).getLast?).map (·.2)).getD old
      let det := last 0x19 g.detctl
      (m ≠ 0 → raise (.sNop e b m) 1 ∧ raise (.sync e b m) 1 ∧ raise (.dcinv e b m) 1) ∧
      (m = 0 → goes (.sNop e b m) g k) ∧
      (m = 0 → goes (.dcinv e b m) { g with dcache := [] } k) ∧
      (m = 0 → goes (.sync e b m) { g with
        crcCfg := last 0x08 g.crcCfg, crcLo := last 0x09 g.crcLo, crcHi := last 0x0A g.crcHi, decen := last 0x0B g.decen,
        vbase := last 0x10 g.vbase, detctl := det, stwin := last 0x1A g.stwin, syncPend := [], oldImage := false,
        synced := true, det := det.getLsbD 0, dcache := if det.getLsbD 0 then [] else g.dcache } k) ∧
      (m = 0 ∨ 64 ≤ m.toNat → raise (.sWait e b m) 1) ∧
      (m ≠ 0 → m.toNat < 64 → goes (.sWait e b m) g (if k.evpend &&& m.setWidth 6 ≠ 0 then k
        else { k with st := .waiting, waitMask := m.setWidth 6 })) ∧
      exec (.swi e b m) s = .next (t.raiseS e b 12 m.toNat (k.pc + 2) none) ∧
      (assignedOpcode (w.toNat / 256) = false → raise (.illegal e b w) 1) ∧
      (k.stack.length < 16 → goes (.ldl e b m) g { k with stack := BitVec.ofNat 32 (g.ramRead (4 * m.toNat) 4) :: k.stack }) ∧
      (k.stack.length = 16 → raise (.ldl e b m) 2) ∧ (k.stack = [] → raise (.stl e b m) 3) ∧
      (∀ v l, k.stack = v :: l → l.length ≤ 16 →
        goes (.stl e b m) (g.ramWrite (4 * m.toNat) 4 v.toNat) { k with stack := l })) ∧
    -- entry to an exception in a context bank, and what an exception does while one is being handled
    (∀ (v code : Nat) (pc : BitVec 18) (a : W32), b ≠ 8 →
      let g := s.eng e
      let k := s.bank e b
      let u := s.raiseS e b v code pc (some a)
      (k.exc = false → g.syncPend = [] → u.mem = s.mem ∧ u.quires = s.quires ∧
        u.engines = (withEngine s e b g { k with
          epc := pc.setWidth 32, eflags := k.flags, ecause := BitVec.ofNat 32 (v + code * 256), eaddr := a, exc := true,
          pc := BitVec.ofNat 18 (g.vbase.toNat + 16 * v), waitMask := 0 }).engines) ∧
      (k.exc = true → (u.bank e b).st = .frozen)) ∧
    (∀ (v code : Nat) (pc : BitVec 18) (a : Option W32), ((s.raiseS e 8 v code pc a).eng e).halted = true) ∧
    -- events, faults and requests at a boundary
    (let k := s.bank e b
     (s.issues e b = false ∨ k.exc = true ∨ k.evpend &&& k.evirq = 0 → exec (.event e b) s = .next s) ∧
     (s.issues e b = true → k.exc = false → k.evpend &&& k.evirq ≠ 0 → s.fastEntry e = none → k.fault = none →
       exec (.event e b) s = .next (s.enterCtx e b 11 (k.evpend &&& k.evirq).toNat 0 k.pc none)) ∧
     (s.issues e b = false ∨ k.exc = true ∨ k.fault = none → exec (.streamFault e b) s = .next s) ∧
     (∀ st id, s.issues e b = true → k.exc = false → k.fault = some (st, id) → s.fastEntry e = none →
       exec (.streamFault e b) s = .next ((withEngine s e b (s.eng e) { k with fault := none }).enterCtx e b 8 st.toNat id.toNat
         k.pc none)) ∧
     (k.timer = 0 → exec (.bankTimerExpiry e b) s = .next s) ∧
     (k.timer ≠ 0 → exec (.bankTimerExpiry e b) s = .next (withEngine s e b (s.eng e) { k with
       timer := 0, evpend := k.evpend ||| 4,
       st := if k.st = .waiting ∧ (k.evpend ||| 4) &&& (k.waitMask ||| k.evirq) ≠ 0 then .ready else k.st }))) ∧
    (let g := s.eng e
     let busy : Prop := g.held = true ∨ g.banks[(8 : Fin 9)].st ≠ .free
     (g.halted = true → exec (.fastInterrupt e) s = .next s) ∧
     (g.halted = false → busy → exec (.fastInterrupt e) s = .next (s.setEng e { g with fastReq := true })) ∧
     (g.halted = false → ¬ busy →
       exec (.fastInterrupt e) s = .next ((s.setEng e { g with fastReq := false }).enterFast e 10 1 0)))

/-- R317, R320, R328 to R331, R337 to R344, R364 to R368: the special registers, the system instructions, words of the local RAM,
and the exceptions of a Tehus-S engine.
The model's choices that it rests on: log entries 6, 7, 41, 42, 43, 164. -/
def Obligations.StitchSpecial : Prop := SpecialRegisters ∧ StitchSystem

/-- R328, R329, R345 to R348, R364: loads and stores in the local RAM and in the folio through the far window, a far load that
misses and its completion, and a custom opcode of one micro-op.
The model's choices that it rests on: log entries 5, 6, 49, 50, 154, 155, 166, 168. -/
def Obligations.StitchMemory : Prop :=
  ∀ (s : State) (e : EngineId) (b : Fin 9) (m : Byte),
    let widthOf : Nat := if m.toNat < 2 then 1 else if m.toNat < 4 then 2 else 4
    let ext (v : Nat) : W32 := if m = 1 then (BitVec.ofNat 8 v).signExtend 32 else if m = 3 then (BitVec.ofNat 16 v).signExtend 32
      else BitVec.ofNat 32 v
    -- the folio address that a far-window address reaches
    let far (g : Engine) (a : W32) : Nat := g.dwin.toNat % 2 ^ 15 * 2 ^ 31 + (a.toNat - 2 ^ 31)
    (StitchReady s e b →
      let t := started s e b
      let g := t.eng e
      let k := t.bank e b
      let raise (i : Instr) (v : Nat) (a : Option W32) : Prop := exec i s = .next (t.raiseS e b v 0 k.pc a)
      let goes (i : Instr) (g' : Engine) (k' : Bank) : Prop :=
        exec i s = .next (withEngine t e b g' { k' with pc := k.pc + 2 })
      (5 ≤ m.toNat → raise (.sLd e b m) 1 none) ∧ (3 ≤ m.toNat → raise (.sSt e b m) 1 none) ∧
      (m.toNat < 5 → k.stack = [] → raise (.sLd e b m) 3 none) ∧
      (m.toNat < 3 → k.stack.length < 2 → raise (.sSt e b m) 3 none) ∧
      (∀ a l, m.toNat < 5 → k.stack = a :: l → l.length < 16 →
        let n := widthOf
        let unmapped : Prop := a.toNat % n ≠ 0 ∨ (0x8000 ≤ a.toNat ∧ a.toNat < 0x10000) ∨
          (e.val < 64 ∧ 0x20000 ≤ a.toNat ∧ a.toNat < 2 ^ 31) ∨ (2 ^ 31 ≤ a.toNat ∧ g.dwin.getLsbD 31 = false)
        (unmapped → raise (.sLd e b m) 7 (some a)) ∧
        (a.toNat % n = 0 → a.toNat < 0x8000 → goes (.sLd e b m) g { k with stack := ext (g.ramRead a.toNat n) :: l }) ∧
        (a.toNat % n = 0 → 2 ^ 31 ≤ a.toNat → g.dwin.getLsbD 31 = true → far g a < 2 ^ 30 → t.backed (far g a) = true →
          ((∀ x ∈ g.dcache, x.1 ≠ far g a / 64) →
            exec (.sLd e b m) s = .next (withEngine t e b g { k with st := .blocked, block := .far a m })) ∧
          (∀ d, g.dcache.find? (fun x => x.1 = far g a / 64) = some d → d.2 = t.lineData (far g a / 64) →
            t.poisonedIn (far g a) n = none →
            goes (.sLd e b m) g { k with stack := ext (d.2.toNat / 2 ^ (8 * (far g a % 64)) % 2 ^ (8 * n)) :: l }))) ∧
      (∀ a v l, m.toNat < 3 → k.stack = a :: v :: l → l.length ≤ 16 →
        let n := 2 ^ m.toNat
        (a.toNat % n ≠ 0 → raise (.sSt e b m) 7 (some a)) ∧
        (a.toNat % n = 0 → a.toNat < 0x8000 → goes (.sSt e b m) (g.ramWrite a.toNat n v.toNat) { k with stack := l }) ∧
        (a.toNat % n = 0 → 2 ^ 31 ≤ a.toNat → g.dwin.getLsbD 31 = false → raise (.sSt e b m) 7 (some a)) ∧
        (a.toNat % n = 0 → 2 ^ 31 ≤ a.toNat → g.dwin.getLsbD 31 = true → far g a < 2 ^ 30 → t.backed (far g a) = true →
          ∃ u, exec (.sSt e b m) s = .next u ∧ u.mem = (t.writeList (far g a) (leBytes n v.toNat)).mem ∧
            u.bank e b = { k with stack := l, pc := k.pc + 2 } ∧ (u.eng e).ram = g.ram ∧ u.quires = t.quires))) ∧
    -- a far load that misses completes when its line has come
    (∀ a c l, let g := s.eng e
      let k := s.bank e b
      let n := widthOf
      k.st = .blocked → k.block = .far c m → g.halted = false → s.down = false → m.toNat < 5 → k.stack = a :: l →
        l.length < 16 → a.toNat % n = 0 → 2 ^ 31 ≤ a.toNat → g.dwin.getLsbD 31 = true → far g a < 2 ^ 30 →
        s.backed (far g a) = true → s.poisonedIn (far g a) n = none → (∀ x ∈ g.dcache, x.1 ≠ far g a / 64) →
        let line := (far g a / 64, s.lineData (far g a / 64))
        let k' : Bank := { k with st := .ready, block := .none, stack := ext (s.readN (far g a) n) :: l, pc := k.pc + 2 }
        (g.det = true ∨ g.dcache.length < 128 → exec (.dataCacheFill e b) s = .next (withEngine s e b
          { g with dcache := if g.det then g.dcache else line :: g.dcache } k')) ∧
        (g.det = false → 128 ≤ g.dcache.length → ∃ i < 128, exec (.dataCacheFill e b) s = .next
          { withEngine s e b { g with dcache := line :: g.dcache.eraseIdx i } k' with free := s.free + 1 })) ∧
    ((s.bank e b).st ≠ .blocked → exec (.dataCacheFill e b) s = .next s) ∧
    -- a custom opcode
    (∀ (n : BitVec 4) (x : W32), StitchReady s e b →
      let t := started s e b
      let g := t.eng e
      let k := t.bank e b
      let raise (v : Nat) : Prop := exec (.customOpcode e b n m x) s = .next (t.raiseS e b v 0 k.pc none)
      let img := t.decodeImage e
      let h := sGet (0 : W32) img n.toNat
      let u := sGet (0 : W32) img (64 + 64 * n.toNat)
      let imm := h.toNat / 4 % 4
      let pop := h.toNat / 2 ^ 12 % 16
      let peak := h.toNat / 2 ^ 8 % 16
      g.syncPend = [] →
      (g.decen.getLsbD n.toNat = false → raise 1) ∧
      (g.decen.getLsbD n.toNat = true → h.getLsbD 31 = false → raise 1) ∧
      (g.decen.getLsbD n.toNat = true → h.getLsbD 31 = true → h.toNat / 2 ^ 16 % 2 ^ 15 = 0 → h.toNat % 4 = 0 → imm ≠ 3 →
        (k.stack.length < pop → raise 3) ∧
        (pop ≤ k.stack.length → 16 < k.stack.length - pop + peak → raise 2) ∧
        (∀ f, pop ≤ k.stack.length → k.stack.length - pop + peak ≤ 16 → k.muls = [] → microOk u true imm 0 = true →
          microOp (u.toNat / 256 % 256) (if u.getLsbD 30 then m else u.setWidth 8) x = some f →
          (∀ v, f ⟨k, g.sticky, g.trapen⟩ = .error v → raise v) ∧
          (∀ c, f ⟨k, g.sticky, g.trapen⟩ = .ok c → exec (.customOpcode e b n m x) s = .next (withEngine t e b
            { g with sticky := c.sticky } { c.bank with pc := k.pc + BitVec.ofNat 18 (2 + 2 * imm) })))))

/-! ## The stream table (13) -/

/-- R349, R350, R353, R354: what a write of SF_SCREATE creates or answers. -/
def Sys2Proof.StreamCreation : Prop :=
  ∀ (s : State) (f : Fin 4) (src : Source) (q : QuireId) (v : W64),
    let block := v.toNat / 2 ^ 7 % 2 ^ 39 * 128
    let owner : CtxId := if src = .quire then (s.q q).ctx else BitVec.ofNat 12 (v.toNat / 2 ^ 48)
    let pl1 : Bool := src = .headband || ((s.q q).crGet 0).toNat / 2 ^ 12 % 4 ≠ 0
    let x : Stream := { raw := BitVec.ofNat 1024 (s.readN block 128) }
    let off := 0x400000 + f.val * 0x100000
    let e := (s.dirSpan block 128 false).ctxEntry owner
    let ends (status id : Nat) (u : State) : Prop :=
      exec (.sfScreate f src q v) s = .next (u.dmaWrite (block + 0x78) (leBytes 8 (id + status * 2 ^ 16)))
    let full : Prop := s.frames[f].inService = false ∨ s.domState (68 + f.val) = 3 ∨ e.2.freeEntry f = none
    (src = .debug → exec (.sfScreate f src q v) s = .next s) ∧
    ((src ≠ .quire ∧ src ≠ .headband) ∨ inFolioText block 128 = false → Reaches s src off →
      exec (.sfScreate f src q v) s = .next (s.reject src off)) ∧
    (∀ ref, src = .quire ∨ src = .headband → inFolioText block 128 = true → s.poisonedIn block 128 = some ref →
      exec (.sfScreate f src q v) s =
        .next (s.logErr (unitCode 3 f.val) 0x0B 0 (BitVec.ofNat 64 block) ref (some owner)).2) ∧
    (src = .quire ∨ src = .headband → inFolioText block 128 = true → s.poisonedIn block 128 = none →
      (blockInvalid x = true → ends 3 0 e.2) ∧
      (blockInvalid x = false → e.2.blockDenied x e.1 pl1 = true → ends 4 0 e.2) ∧
      (blockInvalid x = false → e.2.blockDenied x e.1 pl1 = false →
        (full → ends 2 0 e.2) ∧
        (∀ id, s.frames[f].inService = true → s.domState (68 + f.val) ≠ 3 → e.2.freeEntry f = some id →
          ∃ y : Stream, ends 1 id { e.2.setStream (BitVec.ofNat 16 id) y with streamOrder := e.2.streamOrder + 1 } ∧
            y.state = 1 ∧ y.owner = owner ∧ y.pl1 = pl1 ∧ y.u 0 2 = id ∧ y.bankOf (BitVec.ofNat 16 id) = none ∧
            y.kind = x.kind ∧ y.caddr = x.caddr ∧ y.mdesc = x.mdesc ∧ y.order = e.2.streamOrder ∧ y.doorbell = false ∧
            y.ending = none)))

/-- R355, R356, R360, R361, R363: control, dispatch and the end of streams. -/
def Sys2Proof.StreamLives : Prop :=
  ∀ (s : State) (f : Fin 4) (src : Source) (q : QuireId) (ctx : CtxId) (id : W16),
    let x := s.stream id
    let who : Option CtxId := match src with | .quire => some (s.q q).ctx | .headband => some ctx | _ => none
    let mine : Prop := who = some x.owner ∧ frameOf id = f ∧ x.state ≠ 0
    (¬ mine → (src = .host → Reaches s .host (0x400008 + f.val * 0x100000)) →
      exec (.cancel f src q ctx id) s = .next s ∧ exec (.doorbell f src q ctx id) s = .next s) ∧
    (mine →
      (x.state = 4 → exec (.cancel f src q ctx id) s = .next s) ∧
      (x.state ≠ 4 → ∃ d, exec (.cancel f src q ctx id) s = .next (({ s with free := s.free + 1 } : State).endStream id 1 d)) ∧
      (x.state = 1 → exec (.doorbell f src q ctx id) s = .next (s.setStream id { x with doorbell := true })) ∧
      (x.state ≠ 1 → exec (.doorbell f src q ctx id) s = .next
        (match x.bankOf id with | some (e, b) => s.bankEvent e b 3 | none => s))) ∧
    -- what ending a stream does
    (∀ (status : Byte) (d : W32), let u := s.endStream id status d
      (x.state = 0 ∨ x.state = 4 → u = s) ∧
      (x.state ≠ 0 → x.state ≠ 4 →
        -- an end by the handler, or with the engine's failure, leaves the operations that run to their end
        let quiet : Bool := status = 0 || status = 5 || status = 6
        u.stream id = { (x.setState 4).put 7 1 0xFF with
          ending := some (status, d)
          contrib := if quiet then x.contrib else []
          rdy := if quiet then x.rdy else [] } ∧
        u.frames = s.frames.set (frameOf id) { s.frames[frameOf id] with
          ops := s.frames[frameOf id].ops.filter (fun o =>
            !(o.stream = id && (o.stalled || (!quiet && o.len = 0 && 0 < o.wait)))) } ∧
        u.mem = s.mem ∧ u.quires = s.quires ∧
        (∀ e b, x.bankOf id = some (e, b) → (u.bank e b).st = .free ∧ (u.bank e b).stream = none) ∧
        (x.bankOf id = none → u.engines = s.engines))) ∧
    -- dispatch
    (s.frames[f].inService = false ∨ s.down = true ∨ s.domState (68 + f.val) = 3 → exec (.streamDispatch f) s = .next s) ∧
    (s.nextStream f = none → exec (.streamDispatch f) s = .next s) ∧
    (s.domState (68 + f.val) < 2 → s.freeBankOf f = none → exec (.streamDispatch f) s = .next s) ∧
    (∀ p, s.nextStream f = some p → (∀ r ∈ s.queued f, r.2.prio ≤ 3) → p ∈ s.queued f ∧
      ∀ r ∈ s.queued f, let turn (y : Stream) : Nat := (y.owner.toNat + 4095 - s.lastOwner.toNat) % 4096
        r.2.prio ≤ p.2.prio ∧ (r.2.prio = p.2.prio → turn p.2 ≤ turn r.2 ∧
          (turn p.2 = turn r.2 → p.2.order ≤ r.2.order))) ∧
    (∀ e b, s.frames[f].inService = true → s.down = false → s.domState (68 + f.val) < 2 →
      s.nextStream f = some (id.toNat, x) → frameOf id = f → s.freeBankOf f = some (e, b) → (s.eng e).syncPend = [] →
      (x.kind ≠ 6 ∨ (s.cgValid id x = true ∧ (s.dispatch id e b).cgValid id x = true ∧ x.stepOf ≤ 2)) →
      ∃ u, exec (.streamDispatch f) s = .next u ∧ u.mem = s.mem ∧ u.quires = s.quires ∧ u.lastOwner = x.owner ∧
        u.stream id = { (x.setState 2).put 7 1 (e.val % 16 * 16 + b.val) with doorbell := false, ran := some e } ∧
        let word := sGet 0 s.frames[f].imem (((s.eng e).vbase.toNat + 0x100 + 4 * x.kind) / 4)
        u.bank e b = { s.bank e b with
          stack := [], flags := 0, acc := 0, exc := false, evpend := if x.doorbell then 8 else 0, evirq := 0, timer := 0,
          waitMask := 0, block := .none, fault := none, mdesc := x.mdesc, issued := 0,
          pc := BitVec.ofNat 18 (word.toNat / 2 * 2), st := .ready, stream := some id }) ∧
    -- completion
    (x.state ≠ 4 ∨ s.opsOf id ≠ [] ∨ x.rdy ≠ [] ∨ s.down = true → exec (.streamCompletion id) s = .next s) ∧
    (x.state = 4 → s.opsOf id = [] → x.rdy = [] → x.recDue = [] → s.down = false → x.raw.getLsbD 51 = false →
      (x.origin = none → x.caddr = 0 → exec (.streamCompletion id) s = .next (s.setStream id {})) ∧
      (∀ st d pa pas t, x.origin = none → x.caddr ≠ 0 → x.ending = some (st, d) →
        s.xlateStreamBytes x.owner (!x.pl1) .store x.caddr 24 = (.ok (pa :: pas), t) → t.remotePa pa = false →
        regionOf (localOf pa) ≠ .window →
        let record := leBytes 2 id.toNat ++ [st, BitVec.ofNat 8 x.kind] ++ leBytes 4 d.toNat ++ leBytes 8 s.gtime.toNat ++
          leBytes 8 x.prog
        exec (.streamCompletion id) s = .next (((t.dmaWrite (localOf pa) record).hostWrite x.owner (localOf pa) record).setStream
          id {})) ∧
      (∀ o st d, x.origin = some o → x.caddr = 0 → x.ending = some (st, d) → o.snap = 0xFFFF →
        let leave (t : State) : State := (t.streamLeaves id o).setStream id {}
        (st = 0 → ∃ w, exec (.streamCompletion id) s = .next (leave
          (({ s with free := s.free + 1 } : State).writeCompletion o.queue o.cid 0 1 0xFFFF w o.quiet))) ∧
        (st ≠ 0 → exec (.streamCompletion id) s = .next (leave
          (s.writeCompletion o.queue o.cid 6 1 0xFFFF (BitVec.ofNat 32 (id.toNat + st.toNat * 65536)) o.quiet)))))

/-- R304, R305, R307, R308: invalidations of translations, and the translation fault queue. -/
def Sys2Proof.Invalidations : Prop :=
  ∀ (s : State) (ctx : CtxId) (seg : BitVec 4) (vpn : BitVec 27) (id : W16),
    let held (v : Nat) : State := { s.setFld 0x208 63 63 1 with xlatInv := s.xlatInv ++ [(.quire, BitVec.ofNat 64 v)] }
    let c := ctx.toNat * 2 ^ 48
    exec .xlatInvAll s = .next (held 0) ∧
    exec (.xlatInvCtx ctx) s = .next (held (1 * 2 ^ 60 + c)) ∧
    exec (.xlatInvSeg ctx seg) s = .next (held (2 * 2 ^ 60 + c + seg.toNat * 2 ^ 44)) ∧
    exec (.xlatInvPage ctx seg vpn) s = .next (held (3 * 2 ^ 60 + c + seg.toNat * 2 ^ 44 + vpn.toNat * 2 ^ 17)) ∧
    exec (.xlatInvCtxtbl ctx) s = .next (held (4 * 2 ^ 60 + c)) ∧
    (s.xlatInv = [] → exec .xlatInvComplete s = .next s) ∧
    (∀ src v r, s.xlatInv = (src, v) :: r →
      let t := (List.finRange 34).foldl (fun s i => s.drain i) s
      -- the context that holds an access already translated is one that the invalidation covers
      let of (c : CtxId) : Prop := v.toNat / 2 ^ 60 % 8 = 0 ∨ c.toNat = v.toNat / 2 ^ 48 % 4096
      let waits : Prop :=
        (∃ i, of ((t.q i).lastCtx.getD 0) ∧ (t.storesOut i = true ∨ (∃ a ∈ t.atomics, a.quire = some i ∧ a.result = none) ∨
          (∃ x d n va c, (t.q i).stall = .host x d n va c) ∨ ∃ x d n va c, (t.q i).stall = .remote x d n va c)) ∨
        ∃ f : Fin 4, ∃ o ∈ t.frames[f].ops, o.tag ≠ none ∧ of (t.stream o.stream).owner
      (waits → exec .xlatInvComplete s = .next t) ∧
      (¬ waits → ∃ u, exec .xlatInvComplete s = .next u ∧ u.mem = t.mem ∧ u.xlatInv = r ∧
        let scope := v.toNat / 2 ^ 60 % 8
        let vc := v.toNat / 2 ^ 48 % 4096
        let vs := v.toNat / 2 ^ 44 % 16
        let vp := v.toNat / 2 ^ 17 % 2 ^ 27
        (∀ a, a ∈ u.xlat ↔ a ∈ t.xlat ∧ ¬ (scope = 0 ∨ (scope = 1 ∧ a.1.toNat = vc) ∨
          (scope = 2 ∧ a.1.toNat = vc ∧ a.2.2.1 = vs) ∨
          (scope = 3 ∧ a.1.toNat = vc ∧ a.2.2.1 = vs ∧
            (if a.2.2.2.1 % 2 = 1 then vp / 512 else vp) = a.2.2.2.1 / 2))) ∧
        (∀ a, a ∈ u.ctxCache ↔ a ∈ t.ctxCache ∧ ¬ (scope = 0 ∨ ((scope = 1 ∨ scope = 4) ∧ a.1.toNat = vc))) ∧
        (∀ i a, a ∈ (u.q i).segCache ↔ a ∈ (t.q i).segCache ∧
          ¬ (scope = 0 ∨ (((t.q i).lastCtx.getD 0).toNat = vc ∧ (scope = 1 ∨ (scope = 2 ∧ a.2.1 = vs))))) ∧
        (∀ i a, a ∈ (u.q i).tlb ↔ a ∈ (t.q i).tlb ∧
          ¬ (scope = 0 ∨ (((t.q i).lastCtx.getD 0).toNat = vc ∧ (scope = 1 ∨ (scope = 2 ∧ a.2.1 = vs) ∨
            (scope = 3 ∧ a.2.1 = vs ∧ (if a.2.2.1 % 2 = 1 then vp / 512 else vp) = a.2.2.1 / 2))))))) ∧
    (s.xfqHeld = [] ∨ s.xfqRoom = false → exec .xfqRecordWrite s = .next s) ∧
    (∀ r l, WinCanon s → s.xfqHeld = r :: l → s.xfqRoom = true → ∃ u, exec .xfqRecordWrite s = .next u ∧ u.xfqHeld = l ∧
      let tail := (s.reg 0x230).toNat / 2 ^ 16 % 2 ^ 16
      u.mem = (s.writeList ((s.reg 0x220).toNat / 2 ^ 12 % 2 ^ 34 * 4096 + 32 * tail)
        (leBytes 2 r.stream.toNat ++ leBytes 2 r.ctx.toNat ++ leBytes 4 r.detail.toNat ++ leBytes 8 r.va.toNat ++
          leBytes 8 r.gtime.toNat ++ leBytes 8 r.kind.toNat)).mem) ∧
    (let x := s.stream id
     let mine : Prop := x.state = 3 ∧ x.owner = ctx
     let t := (s.setFrame (frameOf id) { s.frames[frameOf id] with ops := s.frames[frameOf id].ops.map (fun o =>
       if o.stream = id then { o with stalled := false } else o) }).setStream id (x.setState 2)
     (¬ mine → exec (.xfqRetry ctx id) s = .next s ∧ exec (.xfqFail ctx id) s = .next s) ∧
     (mine → ((t.performAll id 64).stream id).state ≠ 3 → exec (.xfqRetry ctx id) s = .next t) ∧
     (mine → ((t.performAll id 64).stream id).state = 3 → exec (.xfqRetry ctx id) s = .next (t.performAll id 64)) ∧
     (mine → ∃ d, exec (.xfqFail ctx id) s = .next (({ s with free := s.free + 1 } : State).endStream id 2 d)))

/-- R304, R305, R307, R308, R349 to R356, R360, R361, R363: the stream table, its queue of faults, and invalidation.
The model's choices that it rests on: log entries 45, 61, 70, 72, 179, 183. -/
def Obligations.StreamTable : Prop := StreamCreation ∧ StreamLives ∧ Invalidations

/-- R357 to R361, R417: the stream instructions, for a context bank that runs a stream. -/
def Sys2Proof.StreamCode : Prop :=
  ∀ (s : State) (e : EngineId) (b : Fin 9) (m : Byte), StitchReady s e b →
    let t := started s e b
    let g := t.eng e
    let k := t.bank e b
    let raise (i : Instr) (v : Nat) (a : Option W32) : Prop := exec i s = .next (t.raiseS e b v 0 k.pc a)
    let goes (i : Instr) (k' : Bank) : Prop := exec i s = .next (withEngine t e b g { k' with pc := k.pc + 2 })
    let n := m.toNat
    ((k.stream = none ∨ b = 8) → raise (.sld e b m) 1 none ∧ raise (.sst e b m) 1 none ∧ raise (.mvgo e b m) 1 none ∧
      raise (.mvset e b m) 1 none ∧ raise (.mvpend e b m) 1 none ∧ raise (.crret e b m) 1 none ∧ raise (.sdone e b m) 1 none) ∧
    (b ≠ 8 → raise (.bkill e b m) 1 none) ∧
    (∀ id, k.stream = some id → b ≠ 8 →
      let x := t.stream id
      let fr := t.frames[frameOf id]
      -- ENGINE reads 0xFF in a stream that is not ACTIVE
      (k.stack.length < 16 → n < 32 →
        let w : W32 := BitVec.ofNat 32 (if n = 1 ∧ x.state ≠ 2 then x.u 4 3 + 0xFF000000 else x.u (4 * n) 4)
        goes (.sld e b m) { k with stack := w :: k.stack }) ∧
      (k.stack.length < 16 → m = 0 →
        let busy := fr.ops.countP (fun o => o.stream = id ∧ o.engine = e ∧ o.bank = b ∧ o.land = false)
        goes (.mvpend e b m) { k with stack := BitVec.ofNat 32 busy :: k.stack }) ∧
      (32 ≤ n → raise (.sld e b m) 1 none) ∧ (16 ≤ n → raise (.mvset e b m) 1 none) ∧
      (n ≠ 5 → (n < 24 ∨ 27 < n) → raise (.sst e b m) 1 none) ∧
      (m ≠ 0 → raise (.mvgo e b m) 1 none ∧ raise (.mvpend e b m) 1 none ∧ raise (.crret e b m) 1 none) ∧
      (m ≠ 0 → m ≠ 5 → raise (.sdone e b m) 1 none) ∧
      (∀ v l, k.stack = v :: l → l.length ≤ 16 →
        let d : Bank := { k with stack := l }
        let w := withEngine t e b g d
        (n = 5 ∨ (24 ≤ n ∧ n ≤ 27) → exec (.sst e b m) s = .next
          ((withEngine t e b g { d with pc := k.pc + 2 }).setStream id (x.put (4 * n) 4 v.toNat))) ∧
        (n < 16 → goes (.mvset e b m) { d with mdesc := setElem k.mdesc 32 n v.toNat }) ∧
        (m = 0 ∨ m = 5 →
          let f := x.err.getD (m, v)
          exec (.sdone e b m) s = .next ((withEngine t e b g { d with pc := k.pc + 2 }).endStream id f.1 f.2)) ∧
        (m = 0 →
          let need := (v.toNat + 255) / 256
          let len := min v.toNat (mdLen k.mdesc - k.issued)
          let short : Prop := x.kind = 4 ∧ x.u 0x14 4 < need
          (fr.freeMover = none ∨ short →
            exec (.mvgo e b m) s = .next (withEngine t e b g { k with st := .blocked, block := .mvgo v })) ∧
          (∀ mv, fr.freeMover = some mv → ¬ short →
            let x' : Stream := if x.kind = 4 then x.put 0x14 4 (x.u 0x14 4 - need) else x
            let o : MoverOp := { mover := mv, stream := id, engine := e, bank := b, mdesc := k.mdesc, start := k.issued,
                                 pos := k.issued, len := len, stalled := false }
            let u := withEngine ((t.setStream id x').setFrame (frameOf id) { fr with ops := fr.ops ++ [o] }) e b g
              { d with issued := k.issued + len }
            exec (.mvgo e b m) s = .next ((u.checkStall id).modBank e b (fun c => { c with pc := k.pc + 2 }))) ∧
          (x.kind ≠ 5 → x.kind ≠ 6 → goes (.crret e b m) d) ∧
          (x.kind = 5 ∨ x.kind = 6 → x.prog + 2 ^ 37 < x.granted + 256 * v.toNat → raise (.crret e b m) 7 (some v)) ∧
          (x.kind = 6 → x.granted + 256 * v.toNat ≤ x.prog + 2 ^ 37 → exec (.crret e b m) s = .next
            ((withEngine t e b g { d with pc := k.pc + 2 }).setStream id { x with granted := x.granted + 256 * v.toNat })) ∧
          (x.kind = 5 → x.granted + 256 * v.toNat ≤ x.prog + 2 ^ 37 → exec (.crret e b m) s = .next
            ((w.creditReturn id v.toNat).modBank e b (fun c => { c with pc := k.pc + 2 })))))) ∧
    (∀ v l, m = 0 → k.stack = v :: l → l.length ≤ 16 →
      let d : Bank := { k with stack := l }
      (64 ≤ e.val → raise (.signal e b m) 1 none) ∧
      (e.val < 64 → 8 < v.toNat % 16 → raise (.signal e b m) 7 (some v)) ∧
      (e.val < 64 → v.toNat % 16 ≤ 8 → exec (.signal e b m) s = .next
        (((withEngine t e b g d).bankEvent (Fin.ofNat 66 (16 * (e.val / 16) + v.toNat / 16 % 16)) (Fin.ofNat 9 (v.toNat % 16)) 5).modBank
          e b (fun c => { c with pc := k.pc + 2 }))) ∧
      (∀ bk r, b = 8 → l = bk :: r →
        let w := withEngine t e b g { k with stack := r }
        let c : Fin 9 := Fin.ofNat 9 bk.toNat
        (7 < bk.toNat → raise (.bkill e b m) 7 (some bk)) ∧
        (bk.toNat ≤ 7 → w.bank e c = g.banks[c] →
          exec (.bkill e b m) s = .next
            (((match g.banks[c].stream with | some id => w.endStream id 5 v | none => w).freeBank e c).modBank
              e b (fun y => { y with pc := k.pc + 2 })))))

/-- R307, R352, R357, R358, R364, R372 to R374: a blocked MVGO, the completion of mover operations, and patches. -/
def Sys2Proof.MoversAndPatches : Prop :=
  (∀ (s : State) (e : EngineId) (b : Fin 9),
    let k := s.bank e b
    (k.st ≠ .blocked ∨ k.stream = none → exec (.mvgoResume e b) s = .next s) ∧
    (∀ n id, k.st = .blocked → k.block = .mvgo n → k.stream = some id →
      ((s.eng e).halted = true ∨ (s.eng e).held = true ∨ s.down = true → exec (.mvgoResume e b) s = .next s) ∧
      ((s.eng e).halted = false → (s.eng e).held = false → s.down = false →
        (s.mvgo e b id n = none → exec (.mvgoResume e b) s = .next s) ∧
        (∀ t, s.mvgo e b id n = some t → exec (.mvgoResume e b) s = .next (t.modBank e b (fun c => { c with
          st := .ready, block := .none, stack := c.stack.drop 1, pc := c.pc + 2 })))))) ∧
  (∀ (s : State) (id : W16) (fail : Option Bool),
    (s.firstOp id = none → exec (.moverOperationComplete id fail) s = .next s) ∧
    (∀ o, s.firstOp id = some o →
      (o.stalled = true ∨ o.tag ≠ none ∨ s.down = true → exec (.moverOperationComplete id fail) s = .next s) ∧
      (∀ timeout, o.stalled = false → o.tag = none → s.down = false → fail = some timeout →
        let l := s.logErr (unitCode 0x0A 0) (if timeout then 0x0A else 0x09) 0 0 0 (some (s.stream id).owner)
        exec (.moverOperationComplete id fail) s = .next (l.2.opFailed o 0 3 l.1)) ∧
      -- a byte that a one-dimensional copy moves inside the folio
      (∀ pa pb, o.stalled = false → o.tag = none → s.down = false → fail = none → o.stream = id → o.len = 1 → o.buf = [] →
        o.wait = 0 → o.land = false → (s.stream id).recDue = [] → (∀ y ∈ s.streams, y.2.rdy = []) → mdMode o.mdesc = 0 →
        let x := s.stream id
        let src := mdAddr o.mdesc (o.mdesc.extractLsb' 0 64) (mdS o.mdesc) o.pos
        let dst := mdAddr o.mdesc (o.mdesc.extractLsb' 64 64) (mdD o.mdesc) o.pos
        x.kind = 0 → x.u 6 1 / 16 = 0 → s.xlateStreamBytes x.owner (!x.pl1) .load src 1 = (.ok [pa], s) →
        s.xlateStreamBytes x.owner (!x.pl1) .store dst 1 = (.ok [pb], s) → s.remotePa pa = false → s.remotePa pb = false →
        regionOf (localOf pa) = .folio → regionOf (localOf pb) = .folio → s.poisonOf (localOf pa) = none →
        ∃ u, exec (.moverOperationComplete id fail) s = .next u ∧
          u.mem = (s.setByte (localOf pb) (s.byte (localOf pa))).mem ∧ u.quires = s.quires ∧
          (∀ p ∈ u.frames[frameOf id].ops, p ∈ s.frames[frameOf id].ops ∧
            ¬ (p.stream = id ∧ p.start = o.start ∧ p.pos + p.len = o.pos + o.len ∧ p.mover = o.mover ∧ p.land = false))))) ∧
  (∀ (s : State) (f : Fin 4) (src : Source) (countm1 : BitVec 11),
    let fr := s.frames[f]
    let recs := ({ fr with patchCount := countm1.toNat + 1 } : Frame).patchRecs
    let inF (e : EngineId) : Prop := e.val / 16 = f.val
    (src = .debug → exec (.patchStart f src countm1) s = .next s) ∧
    (src ≠ .headband ∨ fr.patchBusy = true → Reaches s src (0x400100 + f.val * 0x100000) →
      exec (.patchStart f src countm1) s = .next (s.reject src (0x400100 + f.val * 0x100000))) ∧
    (src = .headband → fr.patchBusy = false → recs.any patchBad = true → exec (.patchStart f src countm1) s = .next
      (s.setFrame f { fr with patchCount := countm1.toNat + 1, patchResult := 2 })) ∧
    -- a decode image that breaks a rule of R346 is not loaded
    (src = .headband → fr.patchBusy = false → recs.any patchBad = false → recs.any (fun r => r.getLsbD 31) = true →
      imageOk ((recs.filter (fun r => r.getLsbD 31)).foldl (fun m r =>
        sSet 0 m (r.toNat / 4 % 2 ^ 16) (r.extractLsb' 32 32)) fr.dec) = some false →
      exec (.patchStart f src countm1) s = .next s) ∧
    (src = .headband → fr.patchBusy = false → recs.any patchBad = false → recs.all (fun r => !r.getLsbD 31) = true →
      ∃ u, exec (.patchStart f src countm1) s = .next u ∧
        u.frames = s.frames.set f { fr with patchCount := countm1.toNat + 1, patchBusy := true, patchDhold := false } ∧
        ∀ e, u.eng e = if inF e then { s.eng e with held := true } else s.eng e)) ∧
  (∀ (s : State) (f : Fin 4),
    let fr := s.frames[f]
    let inF (e : EngineId) : Prop := e.val / 16 = f.val
    let isDec (r : W64) : Bool := r.getLsbD 31
    let put (m : List (Nat × W32)) (r : W64) : List (Nat × W32) := sSet 0 m (r.toNat / 4 % 2 ^ 16) (r.extractLsb' 32 32)
    (fr.patchBusy = false → exec (.patchApply f) s = .next s) ∧
    (∀ e, fr.patchBusy = true → fr.patchRecs.any isDec = true → inF e → (s.eng e).halted = false → (s.eng e).synced = false →
      exec (.patchApply f) s = .next s) ∧
    (fr.patchBusy = true → (∀ e, inF e → (s.eng e).insideFar = false ∧ ((s.eng e).halted = true ∨ (s.eng e).synced = true)) →
      ∃ u, exec (.patchApply f) s = .next u ∧ u.mem = s.mem ∧ u.quires = s.quires ∧
        u.frames = s.frames.set f { fr with
          imem := (fr.patchRecs.filter (fun r => !isDec r)).foldl put fr.imem,
          dec := (fr.patchRecs.filter isDec).foldl put fr.dec,
          decOld := if fr.patchRecs.any isDec then fr.dec else fr.decOld,
          patchBusy := false, patchDhold := false, patchResult := 1 } ∧
        ∀ e, inF e → (u.eng e).held = false ∧ (fr.patchRecs.any isDec = true → (u.eng e).oldImage = true ∧ (u.eng e).synced = false)))

/-- R307, R350, R352, R357 to R361, R364, R372 to R374, R417: stream instructions, movers and patches.
The model's choices that it rests on: log entries 51, 52, 59, 140, 179, 180, 181, 191, 192. -/
def Obligations.StreamInstructions : Prop := StreamCode ∧ MoversAndPatches

/-! ## The host port (14) -/

/-- R386, R387, R514: writes of the doorbell registers, held in SLEEP and otherwise acting on queues that may take them. -/
def Sys2Proof.Doorbells : Prop :=
  ∀ (s : State) (src : Source) (n : CtxId) (v : W32),
    let page := 0x1000000 + n.toNat * 0x1000
    let x := s.queue n
    let h := v.toNat % 65536
    let buffers : Prop := src = .host ∧ s.asleep = true ∧ s.present = true
    let rings : List (Nat × Instr) := [(0, .hstDbSqtail src n v), (8, .hstDbCqhead src n v), (0x10, .hstDbQirq src n v)]
    (∀ p ∈ rings, buffers → s.hostBlocked = false →
      (s.doorbells.length < 64 → exec p.2 s = .next { s with doorbells := s.doorbells ++ [(n, p.1, v)] }) ∧
      (64 ≤ s.doorbells.length → exec p.2 s = .next { s.setFld 0x10030 28 28 1 with dbDrop := true })) ∧
    (¬ buffers → Reaches s src page →
      (x.st ≠ .enabled → exec (.hstDbSqtail src n v) s = .next s) ∧
      (x.st = .enabled → h < x.sqSize → exec (.hstDbSqtail src n v) s = .next (s.setQueue n { x with sqTail := v.setWidth 16 })) ∧
      (x.st = .enabled → x.sqSize ≤ h → exec (.hstDbSqtail src n v) s = .next (s.reject src page))) ∧
    (¬ buffers → Reaches s src (page + 8) →
      let size := x.cqSize
      let ahead (k : Nat) : Nat := (k + size - x.cqHead.toNat) % size
      (x.st ≠ .enabled → x.st ≠ .draining → exec (.hstDbCqhead src n v) s = .next s) ∧
      (x.st = .enabled ∨ x.st = .draining → h < size ∧ ahead h ≤ ahead x.cqTail.toNat →
        exec (.hstDbCqhead src n v) s = .next (s.setQueue n { x with cqHead := v.setWidth 16 })) ∧
      (x.st = .enabled ∨ x.st = .draining → ¬ (h < size ∧ ahead h ≤ ahead x.cqTail.toNat) →
        exec (.hstDbCqhead src n v) s = .next (s.reject src (page + 8)))) ∧
    (¬ buffers → Reaches s src (page + 0x10) →
      (x.st ≠ .enabled → x.st ≠ .draining → exec (.hstDbQirq src n v) s = .next s) ∧
      (x.st = .enabled ∨ x.st = .draining → ∃ qs, exec (.hstDbQirq src n v) s = .next { s with quires := qs } ∧
        ∀ i : QuireId,
          let rung : Prop := (∃ k, k < 32 ∧ v.getLsbD k = true ∧ s.physOf k = some i) ∧ (s.q i).ctx = n ∧ (s.q i).runs = true
          (rung → qs[i] = { s.q i with irq := (s.q i).irq ||| BitVec.ofNat 256 (2 ^ 34) }) ∧ (¬ rung → qs[i] = s.q i)))

/-- R383 to R385, R398: the actions of HST_QCMD. -/
def Sys2Proof.QueueActions : Prop :=
  ∀ (s : State) (src : Source) (n : CtxId), Reaches s src 0x4028 →
    let x := s.queue n
    let result (t : State) (r : Nat) : State := t.setFld 0x4028 55 52 r
    let addr := (s.reg 0x4018).toNat / 2 ^ 18 % 2 ^ 28 * 0x40000 + 64 * n.toNat
    let cfg : BitVec 512 := BitVec.ofNat 512 (s.readN addr 64)
    let readable : Prop := (s.reg 0x4018).getLsbD 0 = true ∧ s.backed addr = true ∧ s.poisonedIn addr 64 = none
    -- the entry is read through the directory (R272)
    let d := s.dirSpan addr 64 false
    -- LIMIT, WEIGHT, MSIVEC, MSIEN and STREAMQ are what REFRESH may change
    let same : Prop := ∀ i, i < 512 → ¬ (160 ≤ i ∧ i < 176) → ¬ (184 ≤ i ∧ i < 204) → ¬ (207 ≤ i ∧ i < 224) →
      cfg.getLsbD i = x.cfg.getLsbD i
    (x.st ≠ .disabled → exec (.enable src n) s = .next (result s 2)) ∧
    (x.st = .disabled → (s.reg 0x4018).getLsbD 0 = false → exec (.enable src n) s = .next (result s 3)) ∧
    (x.st = .disabled → readable → queueEntryBad cfg n = true → exec (.enable src n) s = .next (result d 3)) ∧
    (x.st = .disabled → readable → queueEntryBad cfg n = false →
      let c := d.ctxEntry n
      (c.1 = none → exec (.enable src n) s = .next (result c.2 3)) ∧
      (c.1 ≠ none → exec (.enable src n) s = .next (result
        (c.2.setQueue n { st := .enabled, cfg := cfg, streams := x.streams, serial := x.serial }) 1))) ∧
    (x.st ≠ .enabled → exec (.disable src n) s = .next (result s 2) ∧ exec (.refresh src n) s = .next (result s 2)) ∧
    (x.st = .enabled →
      let less := x.limit - x.limit / 8
      exec (.disable src n) s = .next (result (s.setQueue n { x with
        st := if x.cmds = [] ∧ x.owed = [] then .disabled else .draining,
        busySt := x.busySt && !decide (x.cmds.length ≤ less) }) 1)) ∧
    (x.st = .enabled → readable → (queueEntryBad cfg n = true ∨ ¬ same) → exec (.refresh src n) s = .next (result d 3)) ∧
    (x.st = .enabled → readable → queueEntryBad cfg n = false → same →
      let y : Queue := { x with cfg := cfg }
      exec (.refresh src n) s = .next (result (d.setQueue n { y with
        busySt := y.busySt && !decide (y.cmds.length ≤ y.limit - y.limit / 8) }) 1)) ∧
    (x.st ≠ .disabled → x.st ≠ .fatal → exec (.reset src n) s = .next (result s 2)) ∧
    (x.st = .disabled ∨ x.st = .fatal → exec (.reset src n) s = .next (result (s.setQueue n { x with st := .disabled }) 1)) ∧
    exec (.refreshMsi src n) s = .next { result s 1 with msiCache := [] }

/-- R388 to R391, R401: the fetch of a submission entry and what becomes of it, and the completion entry. -/
def Sys2Proof.Submission : Prop :=
  (∀ (s : State) (n : CtxId) (fail : Option Bool),
    let x := s.queue n
    let may : Prop := x.st = .enabled ∧ x.sqHead ≠ x.sqTail ∧ x.cmds.length + x.owed.length + 3 ≤ x.freeSlots
    let a := x.sqBase + 64 * x.sqHead.toNat
    let y : Queue := { x with
      sqHead := BitVec.ofNat 16 ((x.sqHead.toNat + 1) % x.sqSize),
      busySt := x.busySt || decide (x.limit ≤ x.cmds.length) }
    let t := (s.hostRead n a 64).setQueue n y
    let r := t.dirSpan a 64 false
    let ends (i : Instr) (u : State) (cid : W16) (status detail : Nat) (quiet : Bool) : Prop :=
      exec i s = .next (u.writeCompletion n cid status 0 0xFFFF (BitVec.ofNat 32 detail) quiet)
    (s.down = true ∨ s.asleep = true ∨ ¬ may → exec (.submissionFetch n fail) s = .next s) ∧
    (s.down = false → s.asleep = false → may →
      (∀ timeout, fail = some timeout →
        ends (.submissionFetch n fail) (t.logErr (unitCode 12 0) (if timeout then 10 else 9) 0 (BitVec.ofNat 64 a) 0 (some n)).2
          0xFFFF 8 0 false) ∧
      (fail = none → s.backed a = false →
        ends (.submissionFetch n fail) (t.logErr (unitCode 12 0) 9 0 (BitVec.ofNat 64 a) 0 (some n)).2 0xFFFF 8 0 false) ∧
      (∀ ref, fail = none → s.backed a = true → s.poisonedIn a 64 = some ref →
        ends (.submissionFetch n fail) (t.logErr (unitCode 12 0) 8 0 (BitVec.ofNat 64 a) ref (some n)).2 0xFFFF 8 0 false) ∧
      (fail = none → s.backed a = true → s.poisonedIn a 64 = none →
        let c : Cmd := { entry := BitVec.ofNat 512 (s.readN a 64), serial := x.serial }
        (c.invalid = true → ends (.submissionFetch n fail) r c.cid 2 0 c.quiet) ∧
        (c.invalid = false → 0x40 ≤ c.opc → n ≠ 0 → ends (.submissionFetch n fail) r c.cid 3 0 c.quiet) ∧
        (c.invalid = false → (c.opc < 0x40 ∨ n = 0) →
          (y.busySt = true → exec (.submissionFetch n fail) s = .next
            ((r.writeCompletion n c.cid 1 0 0xFFFF 1 c.quiet).countEvent (unitCode 12 0) 0x0C01 1)) ∧
          (y.busySt = false →
            let u := r.setQueue n { y with cmds := x.cmds ++ [c], serial := x.serial + 1 }
            exec (.submissionFetch n fail) s = .next
              (if c.opc = 0x40 ∨ c.opc = 0x42 then u.leaveIdle else u)))))) ∧
  (∀ (s : State) (n : CtxId) (cid snap : W16) (status kind : Nat) (detail : W32) (quiet : Bool),
    let x := s.queue n
    let u := s.writeCompletion n cid status kind snap detail quiet
    let tail := (x.cqTail.toNat + 1) % x.cqSize
    let y : Queue := { x with cqTail := BitVec.ofNat 16 tail, phase := if tail = 0 then !x.phase else x.phase }
    let a := x.cqBase + 16 * x.cqTail.toNat
    let entry := leBytes 16 (cid.toNat + status * 2 ^ 16 + kind * 2 ^ 24 +
      x.sqHead.toNat * 2 ^ 32 + snap.toNat * 2 ^ 48 + detail.toNat * 2 ^ 64 + s.gtime.toNat / 2 ^ 10 % 2 ^ 31 * 2 ^ 96 +
      (if x.phase then 2 ^ 127 else 0))
    u.mem = (s.writeList a entry).mem ∧ (x.st ≠ .disabled → u.queue n = y) ∧ KeepsRegisters s u ∧ u.streams = s.streams ∧
    (quiet = true → u.hostOut = (s.hostWrite n a entry).hostOut) ∧
    (regionOf a ≠ .host → quiet = true → u.hostOut = s.hostOut))

/-- R375, R383 to R391, R398, R401, R514: doorbells, queue actions, submission and completion.
The model's choices that it rests on: log entries 98, 99, 138, 139. -/
def Obligations.HostQueues : Prop := Doorbells ∧ QueueActions ∧ Submission

/-- The commands of the block that start command c of queue n: COMMAND_START, and the one named after its opcode (R389). -/
def Sys2Proof.StartsAs (n : CtxId) (c : Cmd) (i : Instr) : Prop :=
  i = .commandStart ∨ (c.opc = 1 ∧ i = .nop n) ∨ (c.opc = 2 ∧ i = .launch n) ∨ (c.opc = 3 ∧ i = .stream n) ∨
  (c.opc = 4 ∧ i = .sctl n) ∨
  (n = 0 ∧ ((c.opc = 0x40 ∧ i = .bind) ∨ (c.opc = 0x41 ∧ c.op 16 1 = 1 ∧ i = .releaseSave) ∨
    (c.opc = 0x41 ∧ c.op 16 1 = 0 ∧ i = .releaseDiscard) ∨ (c.opc = 0x42 ∧ i = .restore) ∨ (c.opc = 0x43 ∧ i = .query) ∨
    (c.opc = 0x44 ∧ i = .kill)))

/-- R389, R392, R393, R395 to R397, R400, R404: the start of the command that weighted service chooses. -/
def Sys2Proof.CommandStarts : Prop :=
  ∀ (s : State) (n : CtxId),
    let a := s.arbitrate
    (a.1 = none → exec .commandStart s = .next a.2) ∧
    (s.down = true ∨ s.asleep = true → a.1 = none ∧ a.2 = s) ∧
    (∀ p ∈ [(1, n, Instr.nop n), (2, n, .launch n), (3, n, .stream n), (4, n, .sctl n), (0x40, 0, .bind), (0x42, 0, .restore),
        (0x43, 0, .query), (0x44, 0, .kill)],
      (∀ c, a.1 = some (p.2.1, c) → c.opc ≠ p.1) → exec p.2.2 s = .next s) ∧
    (∀ p ∈ [(1, Instr.releaseSave), (0, .releaseDiscard)],
      (∀ c, a.1 = some (0, c) → ¬ (c.opc = 0x41 ∧ c.op 16 1 = p.1)) → exec p.2 s = .next s) ∧
    (∀ c0, a.1 = some (n, c0) →
      let c : Cmd := { c0 with started := true, slot := decide (c0.opc < 0x40), latch := (a.2.latchOf c0).1 }
      let v := (a.2.latchOf c0).2
      let t := (v.setQueue n ((v.queue n).updCmd c)).countEvent (unitCode 12 0) 0x0C00 1
      -- what COMMAND_START, and the command named after the opcode, leave
      let runs (u : State) : Prop := ∀ i, StartsAs n c0 i → exec i s = .next u
      let ends (status : Nat) (detail : W32) (u : State) : Prop := runs (u.completeCmd n c status detail)
      let mask : W32 := if c.opc = 2 then BitVec.ofNat 32 (c.op 8 4) else BitVec.ofNat 32 (c.op 12 4)
      let ctx : CtxId := BitVec.ofNat 12 (c.op 8 2)
      let quires (p : Fin 32 → Prop) : Prop := ∀ q : Fin 32, mask.getLsbD q.val = true → p q
      let up (q : Fin 32) : Prop := t.physOf q.val ≠ none
      (c.opc = 1 → ends 0 0 t) ∧
      (c.opc = 4 → ends 0 0 (t.sctl n (BitVec.ofNat 16 (c.op 8 2)) (c.op 10 1 = 1))) ∧
      (c.opc = 2 → ¬ quires (fun q => t.bound[q] = some n) → ends 3 0 t) ∧
      (c.opc = 2 → quires (fun q => t.bound[q] = some n) → ¬ quires up →
        ∃ m : W32, ends 4 m t ∧ ∀ q : Fin 32, m.getLsbD q.val = (mask.getLsbD q.val && (t.physOf q.val).isNone)) ∧
      (c.opc = 2 → quires (fun q => t.bound[q] = some n) → quires up → ∃ u, runs u) ∧
      (∀ (q : Fin 32) (i : QuireId), c.opc = 2 → mask = BitVec.ofNat 32 (2 ^ q.val) → t.bound[q] = some n → t.physOf q.val = some i →
        runs (((t.setQ i (((((t.q i).crSet 0x0C0 (BitVec.ofNat 64 (c.op 16 8))).crSet 0x0C1
          (BitVec.ofNat 64 (c.op 24 8))).crSet 0x0C2 (BitVec.ofNat 64 (mask.toNat * 2 ^ 32 + q.val))))).setReg (qwin i 0x10)
          (BitVec.ofNat 64 ((t.queue n).qentry))).ctxAction i 1 n false)) ∧
      (c.opc = 3 →
        let r := t.xlateStreamBytes n (n ≠ 0) .load (BitVec.ofNat 64 (c.op 8 8)) 128
        (∀ e, r.1 = .error e → ends 8 e.2.detail r.2) ∧
        (∀ pas x, r.1 = .ok pas → r.2.poisonAmong pas 0 = some x → ∃ u detail, ends 8 detail u) ∧
        (∀ pas, r.1 = .ok pas → r.2.poisonAmong pas 0 = none →
          (∀ pa ∈ pas, r.2.remotePa pa = false ∧ regionOf (localOf pa) ≠ .window) → c.op 16 1 < 4 ∨ c.op 16 1 = 0xFF →
          let raw : BitVec 1024 := BitVec.ofNat 1024 (leNat (pas.map (fun pa => r.2.byte (localOf pa))))
          let o : Origin := { queue := n, cid := c.cid, quiet := c.quiet, snap := c.snap, cmd := c.serial }
          let b := ((r.2.hostReads n pas).blockBytes pas).2
          b.mem = r.2.mem ∧
          let k := b.createStream (if c.op 16 1 = 0xFF then b.freestFrame else Fin.ofNat 4 (c.op 16 1)) raw n (n = 0) (some o)
          (k.1.1 = 3 → ends 2 0 k.2) ∧ (k.1.1 = 4 → ends 3 0 k.2) ∧
          (k.1.1 ≠ 3 → k.1.1 ≠ 4 → (b.queue n).streamQ ≤ (b.queue n).streams.length → ends 1 3 (b.ctxEntry n).2) ∧
          ((b.queue n).streams.length < (b.queue n).streamQ →
            (k.1.1 = 2 → ends 1 2 k.2) ∧
            (k.1.1 = 1 →
              let id : W16 := BitVec.ofNat 16 k.1.2
              let x := k.2.queue n
              ends 0 (id.setWidth 32) (k.2.setQueue n { x with
                streams := x.streams ++ [id],
                owed := if (k.2.stream id).caddr = 0 then x.owed ++ [id] else x.owed }))))) ∧
      (n = 0 →
        let freeFor (q : Fin 32) : Prop := t.bound[q] = none ∨ t.bound[q] = some ctx
        (c.opc = 0x40 → ¬ quires freeFor → ends 3 0 t) ∧
        (c.opc = 0x40 → quires freeFor → quires up → ∃ b, ends 0 0 { t with bound := b } ∧
          ∀ q : Fin 32, b[q] = if mask.getLsbD q.val then some ctx else t.bound[q]) ∧
        (c.opc = 0x41 → ¬ quires (fun q => t.bound[q] = some ctx) → ends 3 0 t) ∧
        (c.opc = 0x41 → quires (fun q => t.bound[q] = some ctx) → quires up → runs
          (if c.op 16 1 = 1 then t.actOn c 5 (some (c.op 24 8)) else t.actOn c 4 none)) ∧
        (c.opc = 0x42 → quires up → quires (fun q => t.bound[q] = none ∧ t.quireReady q = true) →
          ∃ b, runs (({ t with bound := b } : State).actOn c 2 (some (c.op 24 8))) ∧
            ∀ q : Fin 32, b[q] = if mask.getLsbD q.val then some ctx else t.bound[q]) ∧
        (c.opc = 0x42 → quires up → ¬ quires (fun q => t.bound[q] = none ∧ t.quireReady q = true) →
          ∃ m : W32, ends 2 m t ∧ ∀ q : Fin 32, m.getLsbD q.val =
            (mask.getLsbD q.val && !(decide (t.bound[q] = none) && t.quireReady q))) ∧
        (c.opc = 0x43 → t.backed (c.op 16 8) = false → ends 8 0x14000000 t) ∧
        (c.opc = 0x43 → t.backed (c.op 16 8) = true → (regionOf (c.op 16 8)).memory = true ∨ regionOf (c.op 16 8) = .host →
          ∃ bs : List Byte, bs.length = 256 ∧
            ends 0 0 ((({ t with free := t.free + 32 } : State).dmaWrite (c.op 16 8) bs).hostWrite 0 (c.op 16 8) bs)) ∧
        (c.opc = 0x44 → ctx ≠ 0 → ends 0 0 (t.contextFatal ctx 4 (unitCode 12 0) none)) ∧
        (c.opc = 0x44 → ctx = 0 → runs (t.contextFatal 0 4 (unitCode 12 0) none))))

/-- R394, R484: a write of Q_END by the quire itself ends its part of a launch, once its stores have completed. -/
def Sys2Proof.QuireEnds : Prop :=
  ∀ (s : State) (i w : QuireId) (src : Source) (code : W32), ReachesQuire s src i 0x28 →
    let ctx := (s.q i).ctx
    (src ≠ .quire ∨ w ≠ i → exec (.qEnd i src w code) s = .next (s.reject src (0x100000 + i.val * 0x10000 + 0x28))) ∧
    (src = .quire → w = i → (s.q i).runs = false → exec (.qEnd i src w code) s = .next s) ∧
    (∀ n c, src = .quire → w = i → (s.q i).runs = true → s.logicalOf i = some n → s.launchOn ctx n = some c →
      let t := s.drain i
      (t.storesOut i = true → exec (.qEnd i src w code) s = .next t) ∧
      (t.storesOut i = false →
        let u := (t.modQ i (fun d => { d.discarded with action := 4 })).actionEnd i ctx 1
        ((t.q i).storeErr ≠ none →
          exec (.qEnd i src w code) s = .next (u.contextFatal ctx 5 (unitCode 1 i.val) none)) ∧
        (∀ k, (t.q i).storeErr = none → u.launchOn ctx n = some k →
          let u := u.settleCounts (unitCode 1 i.val)
          let k' : Cmd := { k with ends := k.ends ++ [(n.val, code)], stop := k.stop ++ [(unitCode 1 i.val, u.gtime, u.cnt (unitCode 1 i.val))] }
          let v := u.setQueue ctx ((u.queue ctx).updCmd k')
          -- another quire of the launch has not ended; or this was its only quire
          (∀ q : Fin 32, k.qmask.getLsbD q.val = true → (∀ e ∈ k'.ends, e.1 ≠ q.val) → exec (.qEnd i src w code) s = .next v) ∧
          (k.qmask = BitVec.ofNat 32 (2 ^ n.val) → k.ends = [] →
            exec (.qEnd i src w code) s = .next (v.completeCmd ctx k' 0 code)))))

/-- R88, R247, R265, R378, R555, R558: responses of the host. -/
def Sys2Proof.HostResponses : Prop :=
  ∀ (s : State) (tag : BitVec 10) (err poison : Bool) (data : BitVec 1024),
    let i : Instr := .hostResponse tag err poison data
    (s.present = false → exec i s = .next s) ∧
    (s.present = true → (∀ r ∈ s.hostReqs, r.tag ≠ tag) →
      exec i s = .next (s.emit (unitCode 10 0) 0x0903 none (tag.setWidth 64) 0)) ∧
    (∀ r, s.present = true → s.hostReqs.find? (fun r => r.tag = tag) = some r →
      let t : State := { s with hostReqs := s.hostReqs.filter (fun r => r.tag ≠ tag) }
      let c := s.q r.quire
      (∀ va, r.post = some va → err = false → poison = false → exec i s = .next t) ∧
      (∀ va, r.post = some va → (err = true ∨ poison = true) →
        let l := t.logErr (unitCode 12 0) (if err then 9 else 8) 0 0 0 (some c.ctx)
        exec i s = .next (l.2.latchStoreErr r.quire va l.1)) ∧
      (∀ dst len va acc, r.post = none → c.stall = .host tag dst len va acc → c.runs = true →
        let u := t.modQ r.quire (fun d => { d with stall := .none })
        (err = false → poison = false → exec i s = .next
          ((t.modQ r.quire (fun d => { d.deliver dst (data.setWidth 64) with stall := .none })).retire r.quire (s.after r.quire len))) ∧
        (err = true ∨ poison = true →
          let l := u.logErr (unitCode 12 0) (if err then 9 else 8) 0 va 0 (some c.ctx)
          exec i s = .next (l.2.raise r.quire ⟨15, acc, va, syndOf 0 l.1, false⟩))))

/-- R88, R247, R265, R378, R389, R392 to R397, R400, R404, R484, R555: commands of the queues, Q_END, and responses.
The model's choices that it rests on: log entries 6, 88, 89, 90, 91, 92, 93, 94, 95, 96, 97, 100. -/
def Obligations.HostCommands : Prop := CommandStarts ∧ QuireEnds ∧ HostResponses

/-- R2, R5 to R7, R375, R381, R382, R514, R525, R547 to R549: reads and writes of the register window by the host, the
debug port and the block's own units.
The model's choices that it rests on: log entries 40, 101, 158, 188. -/
def Obligations.RegisterWindow : Prop :=
  (∀ (s : State) (tag : BitVec 10) (addr : BitVec 28) (wide : Bool),
    let off := addr.toNat
    let n := if wide then 8 else 4
    let answers (t : State) (data : W64) (err : Bool) : Prop :=
      exec (.hostRead tag addr wide) s = .next { t with hostRsps := (tag, data, err) :: t.hostRsps }
    let bad : Prop := off % n ≠ 0 ∨ (s.asleep = true ∧ sleepReg off = false) ∨ (s.spineOut = true ∧ spineWindow off = true) ∨
      (s.asleep = false ∧ s.booted = false ∧ earlyReg off = false)
    (s.present = false → exec (.hostRead tag addr wide) s = .next s ∧ exec (.hostReadTimeout tag) s = .next s) ∧
    (s.present = true → exec (.hostReadTimeout tag) s = .next { s with
      hostHeld := s.hostHeld.filter (fun c => !readOf tag c), hostRsps := (tag, 0, true) :: s.hostRsps }) ∧
    (s.present = true → s.hostBlocked = true →
      exec (.hostRead tag addr wide) s = .next { s with hostHeld := s.hostHeld ++ [.read tag off wide] }) ∧
    (s.present = true → s.hostBlocked = false → bad → answers s 0 true) ∧
    (s.present = true → s.hostBlocked = false → ¬ bad → ∃ t v, answers t v false ∧
      -- a look at a counter settles it; any other read leaves the block as it is
      (off + n ≤ 0x58100 ∨ 0x58200 ≤ off → t = s) ∧ KeepsRegisters s t ∧
      (off = 0x4018 → wide = true → v = s.reg 0x4018) ∧
      (off = 0x4018 → wide = false → v = s.reg 0x4018 &&& 0xFFFFFFFF) ∧
      (off = 0x401C → v = (s.reg 0x4018) >>> 32) ∧
      (off = 0x4008 → wide = false → v = s.reg 0x4008 &&& 0xFFFFFFFF) ∧
      (off = 0x4028 → wide = true → v = s.reg 0x4028) ∧
      -- a write-only register, and an offset where no register lies
      (off = 0x238 → v = 0) ∧ (off = 0x7FF8 → v = 0))) ∧
  (∀ (s : State) (src : Source) (who : Writer) (addr : BitVec 28) (wide : Bool) (v : W64),
    let off := addr.toNat
    let tag := who.tag
    let i : Instr := .registerWrite src who addr wide v
    (src = .host → s.present = true → s.hostBlocked = true →
      exec i s = .next { s with hostHeld := s.hostHeld ++ [.write tag off wide v] }) ∧
    (src = .host → s.present = true → s.hostBlocked = false → off < 0x1000000 → off % (if wide then 8 else 4) = 0 →
      ((s.asleep = true ∧ sleepReg off = false) ∨ (s.spineOut = true ∧ spineWindow off = true) → exec i s = .next s) ∧
      (s.asleep = false → ¬ (s.spineOut = true ∧ spineWindow off = true) → s.booted = false → earlyReg off = false →
        exec i s = .next (s.reject .host off))) ∧
    (src = .debug → wide = true ∨ debugReaches off = false → exec i s = .next s) ∧
    (src ≠ .debug → Reaches s src off →
      (off % (if wide then 8 else 4) ≠ 0 →
        let t := s.reject src off
        exec i s = .next (if src = .host then { t with hostRsps := (tag, 0, true) :: t.hostRsps } else t)) ∧
      -- where no register lies
      (off = 0x7FF8 → exec i s = .next (s.reject src off)) ∧
      -- fields that no write changes
      (off = 8 ∨ (off = 0xC ∧ wide = false) → ∃ t, exec i s = .next t ∧ t.errBanks = s.errBanks ∧ t.mem = s.mem ∧
        t.quires = s.quires ∧ (WinCanon s → ∀ n, t.reg n = s.reg n)) ∧
      -- CMD_SLOTS, 16 to 4,096
      (off = 0x4008 → wide = false → 16 ≤ v.toNat % 2 ^ 13 → v.toNat % 2 ^ 13 ≤ 4096 → exec i s = .next
        (s.setReg 0x4008 ((s.reg 0x4008 &&& ~~~0x1FFF) ||| (v &&& 0x1FFF)))) ∧
      (off = 0x4008 → wide = false → v.toNat % 2 ^ 13 < 16 ∨ 4096 < v.toNat % 2 ^ 13 → exec i s = .next (s.reject src 0x4008)))) ∧
  (∀ (s : State) (we : Bool) (addr : BitVec 26) (w : W32),
    let off := 4 * addr.toNat
    let awake : Prop := (s.asleep = false ∧ (s.reg 0x10000).getLsbD 31 = false) ∨ sleepReg off = true
    (debugReaches off = false → exec (.debugAccess we addr w) s = .next { s with dbgRsps := (0, true) :: s.dbgRsps }) ∧
    (debugReaches off = true → awake → we = false → ∃ t,
      exec (.debugAccess we addr w) s = .next { t with dbgRsps := (t.winRead32 true off, false) :: t.dbgRsps } ∧
      (off + 4 ≤ 0x58100 ∨ 0x58200 ≤ off → t = s)) ∧
    (debugReaches off = true → awake → we = true →
      let t := s.winWrite32 .debug 0 off w
      exec (.debugAccess we addr w) s = .next { t with dbgRsps := (0, false) :: t.dbgRsps }))

/-! ## Lorotte links (15) -/

/-- A command changes nothing but port p, which becomes `y`, and records of it. -/
def Sys2Proof.PortBecomes (i : Instr) (s : State) (p : PortId) (y : Port) : Prop :=
  ∃ u, exec i s = .next u ∧ u.ports = s.ports.set p y ∧ u.mem = s.mem ∧ u.quires = s.quires ∧ u.win = s.win ∧
    u.engines = s.engines ∧ u.streams = s.streams ∧ u.gtime = s.gtime

/-- A port has sent a CTRL flit with a capability message of a kind and a status (R408, R420). -/
def Sys2Proof.SentCap (x y : Port) (kind status : Nat) : Prop :=
  ∃ raw : BitVec 2048, y.wire = raw :: x.wire ∧ raw.toNat % 16 = 3 ∧ raw.toNat / 2 ^ 96 % 256 = kind ∧
    raw.toNat / 2 ^ 104 % 256 = status

/-- R406, R407, R419, R423 to R425, R433, R434, R440: lanes and the states of a port. -/
def Sys2Proof.PortStates : Prop :=
  ∀ (s : State) (p : PortId) (lane : Fin 4) (src : Source) (failed : BitVec 4) (v : W32),
    let x := s.port p
    let same (i : Instr) : Prop := exec i s = .next s
    let ends (i : Instr) (q : Port → Prop) : Prop := ∃ u, exec i s = .next u ∧ q (u.port p)
    let one : BitVec 4 := BitVec.ofNat 4 (2 ^ lane.val)
    let lmax := (s.reg (lnk p 0)).toNat / 2 ^ 6 % 4
    let width : Nat :=
      if lmax = 3 ∧ x.locked = 0xF then 4
      else if 2 ≤ lmax ∧ ((x.locked &&& 3 = 3) ∨ (x.locked &&& 0xC = 0xC)) then 2 else 1
    let dark (st : BitVec 4) (y : Port) : Prop :=
      y.st = st ∧ y.locked = 0 ∧ y.failed = 0 ∧ y.lanes = 0 ∧ y.agreed = 0 ∧ y.capAt = none
    (s.linkEn p = false → same (.laneSignalDetect p)) ∧
    (s.linkEn p = true → s.linkPowered p = true →
      (x.st = 1 → PortBecomes (.laneSignalDetect p) s p { x with locked := 0, failed := 0, lanes := 0, st := 2 }) ∧
      (x.st ≠ 1 → same (.laneSignalDetect p))) ∧
    (let may : Prop := (x.st = 2 ∨ x.st = 3 ∨ x.st = 7) ∧ x.failed &&& one = 0
     (¬ may → same (.laneLock p lane)) ∧
     (may → PortBecomes (.laneLock p lane) s p { x with locked := x.locked ||| one, st := 3 })) ∧
    (let may : Prop := (x.st = 2 ∨ x.st = 3) ∧ x.locked &&& one = 0
     (¬ may → same (.laneTrainingTimeout p lane)) ∧
     (may → ¬ (x.st = 2 ∧ x.failed ||| one = 0xF) →
       PortBecomes (.laneTrainingTimeout p lane) s p { x with failed := x.failed ||| one }) ∧
     (may → x.st = 2 → x.failed ||| one = 0xF → ends (.laneTrainingTimeout p lane) (dark 1))) ∧
    (x.st ≠ 3 ∨ x.locked = 0 → same (.alignComplete p)) ∧
    (WinCanon s → x.st = 3 → x.locked ≠ 0 → lmax ≠ 0 → ends (.alignComplete p) (fun y => y.lanes = width ∧ y.locked = x.locked ∧
      y.st = (if (s.reg 0xD80008).getLsbD 31 then 4 else 5))) ∧
    (Reaches s src 0xD80008 →
      (src ≠ .headband → exec (.portRelease src) s = .next (s.reject src 0xD80008)) ∧
      (src = .headband → ∃ u, exec (.portRelease src) s = .next u ∧ (u.reg 0xD80008).getLsbD 31 = true ∧
        ∀ k : PortId, ((s.port k).st = 5 → (u.port k).st = 4 ∧ (u.port k).k = 0) ∧
          ((s.port k).st ≠ 5 → u.port k = s.port k))) ∧
    (x.st ≠ 4 ∨ x.capAt = none → same (.backoffExpiry p)) ∧
    (∀ t, x.st = 4 → x.capAt = some t → ∃ u, exec (.backoffExpiry p) s = .next u ∧
      u.gtime = (if s.gtime.toNat < t.toNat then t else s.gtime) ∧ (u.port p).capAt = none ∧ SentCap x (u.port p) 1 0) ∧
    (let may : Prop := x.st = 6 ∧ (failed ≠ 0 ∨ 16 ≤ x.resends)
     (¬ may → same (.retrain p failed)) ∧
     (may → ends (.retrain p failed) (fun y => y.st = 7 ∧ y.locked = 0 ∧ y.failed = failed ∧ y.resends = 0 ∧
       y.reason = (if failed = 0 then 2 else 3)))) ∧
    (x.st ≠ 7 → same (.retrainTimeout p)) ∧ (x.st = 7 → ends (.retrainTimeout p) (dark 1)) ∧
    (x.st.toNat < 2 ∨ 9 < x.st.toNat → same (.lossOfSignal p)) ∧
    (2 ≤ x.st.toNat → x.st.toNat ≤ 9 → ends (.lossOfSignal p) (fun y => dark 1 y ∧ (x.st = 6 → y.reason = 1))) ∧
    (x.holding = false ∨ x.st = 6 → same (.lnkHoldExpiry p)) ∧
    (x.holding = true → x.st ≠ 6 → ends (.lnkHoldExpiry p) (fun y => y.holding = false ∧ y.held = [] ∧ y.replay = [])) ∧
    (Reaches s src (lnk p 0) →
      let was := s.reg (lnk p 0)
      let en := was.getLsbD 0 && s.bonded p
      (v.toNat / 2 ^ 6 % 4 = 0 ∨ (v.getLsbD 0 = true ∧ s.bonded p = false) →
        exec (.lnkCtl p src v) s = .next (s.reject src (lnk p 0))) ∧
      (v.toNat / 2 ^ 6 % 4 ≠ 0 → v.getLsbD 0 = false → en = true → ends (.lnkCtl p src v) (dark 0)) ∧
      (v.toNat / 2 ^ 6 % 4 ≠ 0 → v.getLsbD 0 = true → s.bonded p = true →
        (en = false → v.getLsbD 3 = was.getLsbD 3 → ends (.lnkCtl p src v) (fun y => y.st = 1)) ∧
        (en = true → v.getLsbD 3 = was.getLsbD 3 → ends (.lnkCtl p src v) (fun y => y = x)) ∧
        (en = true → was.getLsbD 3 = false → v.getLsbD 3 = true → x.st ≠ 0 → ends (.lnkCtl p src v) (fun y => y.st = 0xA)) ∧
        (en = true → was.getLsbD 3 = true → v.getLsbD 3 = false → x.st = 0xA → ends (.lnkCtl p src v) (fun y => y.st = 3))))

/-- R420 to R423, R442: the capability exchange. -/
def Sys2Proof.CapabilityExchange : Prop :=
  ∀ (s : State) (p : PortId) (m : CapMsg),
    let x := s.port p
    let ends (i : Instr) (q : Port → Prop) : Prop := ∃ u, exec i s = .next u ∧ q (u.port p)
    let w := min m.nidw.toNat 18
    let bad : Prop := min m.vermax.toNat 0x100 < max m.vermin.toNat 0x100 ∨ 2 ^ w ≤ m.node.toNat ∨ 2 ^ w ≤ s.nodeId
    let wrong : Prop := (s.reg (lnk p 0)).getLsbD 4 = true ∧ m.node.toNat ≠ (s.reg (lnk p 8)).toNat % 2 ^ 18
    let active (y : Port) : Prop := y.st = 6 ∧ y.pnode = m.node ∧ y.pport = m.port ∧ y.pgen = m.linkgen ∧
      y.agreed = min x.lanes m.lanes.toNat ∧ y.holding = false ∧ y.capAt = none
    let refuses (i : Instr) : Prop :=
      (bad → ends i (fun y => y.st = 8 ∧ y.reason = 6)) ∧ (¬ bad → wrong → ends i (fun y => y.st = 9 ∧ y.reason = 7)) ∧
      (¬ bad → ¬ wrong → ends i active)
    (x.st ≠ 4 → x.st ≠ 5 → x.st ≠ 6 → exec (.capReq p m) s = .next s) ∧
    (x.st = 6 → m.linkgen = x.pgen → exec (.capReq p m) s = .next s) ∧
    (x.st = 6 → m.linkgen ≠ x.pgen → ends (.capReq p m) (fun y => y.st = 1 ∧ y.reason = 4 ∧ y.lanes = 0)) ∧
    (x.st = 5 → ends (.capReq p m) (fun y => SentCap x y 2 1 ∧ y.st = 5 ∧ y.pnode = m.node ∧ y.pport = m.port)) ∧
    (x.st = 4 → refuses (.capReq p m)) ∧
    (x.st ≠ 4 → exec (.capRsp p m) s = .next s) ∧
    (x.st = 4 → m.status = 0 → refuses (.capRsp p m)) ∧
    (x.st = 4 → m.status = 1 →
      let k := min (x.k + 1) 6
      let b := max (1000 * 2 ^ k) (1000 * m.hint.toNat)
      let h := (s.nodeId * 0x9E37 + k * 0x7F4B + p.val * 0x2C1B) % 65536
      PortBecomes (.capRsp p m) s p { x with
        pnode := m.node, pport := m.port, k := k, hint := m.hint,
        capAt := some (s.gtime + BitVec.ofNat 64 (1000 * (b + b * h / 131072))) }) ∧
    (x.st = 4 → m.status = 2 → PortBecomes (.capRsp p m) s p { x with pnode := m.node, pport := m.port, reason := 6, st := 8 }) ∧
    (x.st = 4 → m.status = 3 → PortBecomes (.capRsp p m) s p { x with pnode := m.node, pport := m.port, reason := 7, st := 9 }) ∧
    (x.st ≠ 4 → x.st ≠ 6 → exec (.bootNak p) s = .next s) ∧
    (x.st = 4 → ends (.bootNak p) (fun y => y.st = 4 ∧ y.k = min (x.k + 1) 6 ∧ y.hint = 0)) ∧
    (x.st = 6 → ends (.bootNak p) (fun y => y.st = 4 ∧ y.k = 1 ∧ y.hint = 0))

/-- R406, R407, R419 to R425, R433, R434, R440, R442: the training of ports, and their exchange of capabilities.
The model's choices that it rests on: log entries 8, 75, 76, 77. -/
def Obligations.LinkTraining : Prop := PortStates ∧ CapabilityExchange

/-- R408 to R410, R412, R422: the four flits that a port receives, and its resends. -/
def Sys2Proof.Flits : Prop :=
  ∀ (s : State) (p : PortId) (raw : BitVec 2048) (unc : Bool),
    let x := s.port p
    let field (hi lo : Nat) : Nat := raw.toNat / 2 ^ lo % 2 ^ (hi + 1 - lo)
    let type := field 3 0
    let seq : BitVec 12 := BitVec.ofNat 12 (field 19 8)
    let hears : Prop := x.st = 4 ∨ x.st = 5 ∨ x.st = 6 ∨ x.st = 0xA
    let bad : Bool := !flitOk raw
    let all : List Instr := [.dataFlit p raw unc, .nullFlit p raw unc, .retryReq p raw unc]
    let quiet : Prop := x.txq = [] ∧ x.ackDue = false ∧ x.retSh = 0 ∧ ∀ v : Fin 8, x.ret[v] = 0
    -- the port once it has taken the acknowledgement and the credits
    let ch : Fin 8 := Fin.ofNat 8 (field 35 33)
    let rep := if raw.getLsbD 32 then x.replay.filter (fun f => !seqCovered f.seq (BitVec.ofNat 12 (field 31 20))) else x.replay
    let y : Port := { x with
      cred := x.cred.set ch (x.cred[ch] + field 39 36), credSh := x.credSh + field 47 40, replay := rep,
      resends := if rep.length < x.replay.length then 0 else x.resends }
    let resent (i : Instr) (z : Port) (l : List TxFlit) : Prop :=
      (l = [] ∨ 16 ≤ z.resends → PortBecomes i s p z) ∧
      (l ≠ [] → z.resends < 16 → ∃ u ws, exec i s = .next u ∧ (u.port p).wire = ws ++ x.wire ∧ ws.length = l.length ∧
        (u.port p).resends = z.resends + 1 ∧ (u.port p).replay = z.replay)
    (¬ hears → ∀ i ∈ all, exec i s = .next s) ∧
    (hears → (bad = true ∨ unc = true) →
      exec (.nullFlit p raw unc) s = .next (s.countBad p bad unc) ∧ exec (.retryReq p raw unc) s = .next (s.countBad p bad unc) ∧
      (x.st ≠ 6 → exec (.dataFlit p raw unc) s = .next (s.countBad p bad unc)) ∧
      (x.st = 6 → ∃ u, exec (.dataFlit p raw unc) s = .next u ∧ (u.port p).asked = true ∧ (u.port p).expSeq = x.expSeq ∧
        (u.port p).rx = x.rx)) ∧
    (hears → bad = false → unc = false →
      (4 ≤ type → exec (.dataFlit p raw unc) s = .next (s.countBad p true false)) ∧
      (type < 4 → type ≠ 1 → exec (.dataFlit p raw unc) s = .next s) ∧
      (type = 1 → x.st = 5 → ∃ u, exec (.dataFlit p raw unc) s = .next u ∧ SentCap x (u.port p) 3 0) ∧
      (type = 1 → x.st = 4 ∨ x.st = 0xA → exec (.dataFlit p raw unc) s = .next s) ∧
      (type = 1 → x.st = 6 → seq ≠ x.expSeq → ∃ u, exec (.dataFlit p raw unc) s = .next u ∧ (u.port p).asked = true ∧
        (u.port p).expSeq = x.expSeq ∧ (u.port p).rx = x.rx ∧ u.mem = s.mem) ∧
      (type = 1 → x.st = 6 → seq = x.expSeq → ∃ u, exec (.dataFlit p raw unc) s = .next u ∧ (u.port p).asked = false ∧
        (u.port p).expSeq = x.expSeq + 1 ∧ (u.port p).nRx = x.nRx + 1 ∧ u.mem = s.mem) ∧
      (type ≠ 0 ∨ x.st ≠ 6 → exec (.nullFlit p raw unc) s = .next s) ∧
      (type = 0 → x.st = 6 → quiet → PortBecomes (.nullFlit p raw unc) s p y) ∧
      (type ≠ 2 ∨ x.st ≠ 6 → exec (.retryReq p raw unc) s = .next s) ∧
      (type = 2 → x.st = 6 → quiet → resent (.retryReq p raw unc) y (rep.dropWhile (fun f => f.seq ≠ seq)))) ∧
    (x.st ≠ 6 ∨ x.replay = [] → exec (.retryTimeout p) s = .next s) ∧
    (x.st = 6 → x.replay ≠ [] → resent (.retryTimeout p) x x.replay)

/-- R411, R412, R415: taking the next packet of a type from a port, or from this node itself. -/
def Sys2Proof.Packets : Prop :=
  ∀ (s : State) (type : Nat),
    ((∀ k ∈ s.localQ, k.ptype.toNat ≠ type) → s.takePacket none type = none) ∧
    (∀ k, s.localQ = [k] → k.ptype.toNat = type → s.takePacket none type = some (k, { s with localQ := [] })) ∧
    (∀ p, (∀ e ∈ (s.port p).rx, e.pkt.ptype.toNat ≠ type) → s.takePacket (some p) type = none) ∧
    (∀ p e r, (s.port p).rx = e :: r → e.pkt.ptype.toNat = type → ∃ t, s.takePacket (some p) type = some (e.pkt, t) ∧
      t.mem = s.mem ∧ t.quires = s.quires ∧ t.streams = s.streams ∧ t.tags = s.tags ∧ (t.port p).rx = r)

/-- The ten commands that take a packet, with its type and the memory that a request of that type names (R416). -/
def Sys2Proof.PacketRow (port : Option PortId) (i : Instr) (type : Nat) (span : Packet → Option (Nat × Nat)) : Prop :=
  let mem (n : Packet → Nat) : Packet → Option (Nat × Nat) := fun k => some (k.addr.toNat, n k)
  let none' : Packet → Option (Nat × Nat) := fun _ => none
  (i = .rd port ∧ type = 0x01 ∧ span = mem (fun _ => 16)) ∨
  (i = .wr port ∧ type = 0x02 ∧ span = mem (fun k => 16 * k.data.length)) ∨
  (i = .wrbe port ∧ type = 0x03 ∧ span = mem (fun k => 16 * (k.data.length - 1))) ∨
  (i = .atom port ∧ type = 0x04 ∧ span = mem (fun _ => 4)) ∨
  (i = .sdata port ∧ type = 0x08 ∧ span = none') ∨ (i = .scred port ∧ type = 0x09 ∧ span = none') ∨
  (i = .coll port ∧ type = 0x0A ∧ span = none') ∨ (i = .snak port ∧ type = 0x0B ∧ span = none') ∨
  (i = .rsp port ∧ type = 0x10 ∧ span = none') ∨ (i = .mgmt port ∧ type = 0x20 ∧ span = none')

/-- R416 to R418, R427, R430 to R432, R436 to R439: what this node does with a packet: it refuses it, sends it on, answers
it in SAFE HOLD, or acts on it. -/
def Sys2Proof.PacketEffects : Prop :=
  ∀ (s : State) (port : Option PortId),
    (∀ i type span, PacketRow port i type span →
      (s.takePacket port type = none → exec i s = .next s) ∧
      (∀ k t, s.takePacket port type = some (k, t) → k.ptype.toNat = type →
        let here : Prop := k.dest.toNat = t.nodeId
        (t.admitted port k (span k) = false → exec i s = .next (t.refuse port k)) ∧
        (t.admitted port k (span k) = true → ¬ here → exec i s = .next (t.send k)) ∧
        (t.admitted port k (span k) = true → here → t.safeHold = true → type ≠ 0x10 →
          exec i s = .next (t.reply k 1 [])) ∧
        (t.admitted port k (span k) = true → here → t.safeHold = false →
          let a := k.addr.toNat / 16 * 16
          let x := t.stream k.stream
          let g := t.ctxEntry x.owner
          let takes : Prop := x.state = 2 ∧ g.1 ≠ none ∧ pkeyOf g.1 = k.pkey
          let pos := fullPos x.prog (k.addr.toNat % 2 ^ 30)
          let bs := k.data.flatMap (fun w => leBytes 16 w.toNat)
          (type = 0x01 → ∃ n, 1 ≤ n ∧ n ≤ 16 ∧
            let u : State := { t with free := t.free + 1 }
            (u.admitted port k (some (a, 16 * n)) = false → exec i s = .next (u.refuse port k)) ∧
            (u.admitted port k (some (a, 16 * n)) = true →
              let w := u.wakeFor a
              (w.accessStatus a (16 * n) true ≠ 0 → exec i s = .next (w.reply k (w.accessStatus a (16 * n) true) [])) ∧
              (w.accessStatus a (16 * n) true = 0 → exec i s = .next ((w.dmaRead a (16 * n)).2.reply k 0
                (slotsOf 16 (leBytes (16 * n) (w.readN a (16 * n)))))))) ∧
          (type = 0x02 →
            let w := t.wakeFor a
            let st := w.accessStatus a (16 * k.data.length) false
            (st ≠ 0 → exec i s = .next (w.reply k st [])) ∧
            (st = 0 → exec i s = .next ((w.dmaWrite a bs).reply k 0 []))) ∧
          (type = 0x03 → regionOf a = .folio →
            let data := bs.drop 16
            let st := t.accessStatus a data.length false
            (st ≠ 0 → exec i s = .next (t.reply k st [])) ∧
            (st = 0 → Canon t.mem → ∃ w : State, exec i s = .next (w.reply k 0 []) ∧ ∀ j, w.byte j =
              if a ≤ j ∧ j < a + data.length ∧ (k.data.headD 0).getLsbD (j - a) = true then data.getD (j - a) 0 else t.byte j)) ∧
          (type = 0x04 →
            let d := Config.atomDecode (k.data.headD 0)
            let n := if d.2.1 = 4 then 4 else 8
            let w := t.wakeFor k.addr.toNat
            let st := w.accessStatus k.addr.toNat n true
            (w.admitted port k (some (k.addr.toNat, n)) = false → exec i s = .next (w.refuse port k)) ∧
            (w.admitted port k (some (k.addr.toNat, n)) = true →
              (st ≠ 0 → exec i s = .next (w.reply k st [])) ∧
              (st = 0 →
                -- behind the atomics that entered the unit's queue before it
                let e := (w.runAtomicsTo (fun e => w.unitOf e.addr = w.unitOf k.addr.toNat)).execAtomic k.addr.toNat n d.1 d.2.2.1.toNat d.2.2.2.toNat
                exec i s = .next (e.2.reply k 0 [BitVec.ofNat 128 e.1])))) ∧
          (type = 0x08 →
            let ok : Prop := takes ∧ x.kind = 5 ∧ x.u 0x60 4 = k.src.toNat ∧ pos + 16 * k.data.length ≤ x.granted
            let full : Prop := (t.frames[frameOf k.stream]).freeMover = none
            -- a packet whose frame has no free mover slot waits in its buffer
            (ok → full → exec i s = .next s) ∧
            (ok → ¬ full → exec i s = .next ((g.2.landPut k.stream pos bs).performAll k.stream 64)) ∧
            (¬ ok → exec i s = .next (g.2.refuse port k))) ∧
          (type = 0x09 →
            let ok : Prop := takes ∧ x.kind = 4 ∧ x.u 0x60 4 = k.src.toNat
            (ok → exec i s = .next ((g.2.setStream k.stream (x.put 0x14 4 (x.u 0x14 4 + k.addr.toNat % 2 ^ 30))).streamEvent
              k.stream 1)) ∧
            (¬ ok → exec i s = .next (g.2.refuse port k))) ∧
          (type = 0x0A →
            let d := k.data.headD 0
            let rank := d.toNat % 2 ^ 18
            let level := d.toNat / 2 ^ 18 % 32
            let ok : Prop := takes ∧ x.kind = 6 ∧ pos + 16 * (k.data.length - 1) ≤ x.granted ∧
              ∃ b, g.2.cgEntry x = some b ∧ rank < x.size ∧ (g.2.cgMember b rank).1 = k.src.toNat
            let agrees : Prop := d.extractLsb' 64 64 = x.cgCrc ∧ d.toNat / 2 ^ 23 % 2 ^ 41 = 0 ∧ collFits x rank level = true
            (¬ ok → exec i s = .next (g.2.refuse port k)) ∧
            (ok → agrees → exec i s = .next (g.2.takeColl k.stream x rank level pos (bs.drop 16))) ∧
            (ok → ¬ agrees → ∃ w, exec i s = .next
              ((({ g.2 with free := g.2.free + 1 } : State).endStream k.stream 7 w).reply k 7 []))) ∧
          (type = 0x0B →
            let names (e : Nat × Stream) : Prop := t.snakNames e.2 k.src.toNat k.stream.toNat = true ∧
              (e.2.state = 2 ∨ e.2.state = 3) ∧ pkeyOf (t.ctxEntry e.2.owner).1 = k.pkey
            ((∀ e ∈ t.streams, ¬ names e) → exec i s = .next t) ∧
            (∀ e l, t.streams = e :: l → names e → ∃ w, exec i s = .next
              (({ t with free := t.free + 1 } : State).endStream (BitVec.ofNat 16 e.1)
                (if k.addr.toNat % 256 = 2 then 4 else if k.addr.toNat % 256 = 7 then 7 else 3) w))) ∧
          (type = 0x20 →
            (t.mgmt.length < 64 → exec i s = .next { t with mgmt := t.mgmt ++ [k] }) ∧
            (64 ≤ t.mgmt.length → exec i s = .next
              (t.emit (unitCode 0x0B (t.fld 0x20000 0 0)) 0x0B05 none (k.src.setWidth 64) 0)))))) ∧
    -- a response ends the request of its tag
    (∀ k t g, s.takePacket port 0x10 = some (k, t) → t.admitted port k none = true → k.dest.toNat = t.nodeId →
      t.tags.find? (fun g => g.tag = k.tag && g.dest = k.src && g.pkey = k.pkey) = some g →
      let w : State := { t with tags := t.tags.erase g }
      let st := k.addr.toNat % 256
      (g.who = .held → exec (.rsp port) s = .next w) ∧
      (∀ i, g.who = .load i → exec (.rsp port) s = .next (w.rspLoad i k.tag st k.bytes)) ∧
      (∀ i va, g.who = .store i va → st = 0 → exec (.rsp port) s = .next w) ∧
      (∀ i va, g.who = .store i va → st ≠ 0 →
        let l := w.logErr (unitCode 10 0) (if st = 4 then 8 else 9) 0 0 0 (some (w.q i).ctx)
        exec (.rsp port) s = .next (l.2.latchStoreErr i va l.1)) ∧
      (∀ id, g.who = .record id →
        (st = 0 → exec (.rsp port) s = .next w) ∧
        (st ≠ 0 → exec (.rsp port) s = .next (w.logErr (unitCode 3 (frameOf id).val) 11 0 0 0 (some (w.stream id).owner)).2)) ∧
      (∀ id, g.who = .mover id → exec (.rsp port) s = .next (w.rspMover id k.tag st k.bytes)))

/-- R418, R429, R447: timeouts of tags, and the switch of epochs. -/
def Sys2Proof.TagsAndEpochs : Prop :=
  ∀ (s : State) (tag : BitVec 12) (src : Source) (v : W32),
    ((∀ t ∈ s.tags, t.tag = tag → ∀ id, t.who ≠ .mover id ∧ t.who ≠ .record id) →
      exec (.streamRequestTimeout tag) s = .next s) ∧
    (∀ t id, s.tags.find? (fun t => t.tag = tag) = some t → t.who = .record id →
      exec (.streamRequestTimeout tag) s = .next { s with tags := s.tags.replace t { t with who := .held } }) ∧
    (∀ t id, s.tags.find? (fun t => t.tag = tag) = some t → t.who = .mover id →
      let w : State := { s with tags := s.tags.replace t { t with who := .held } }
      ((∀ o ∈ s.opsOf id, o.tag ≠ some tag) → exec (.streamRequestTimeout tag) s = .next w) ∧
      (∀ o, (s.opsOf id).find? (fun o => o.tag = some tag) = some o →
        let l := w.logErr (unitCode 10 0) 10 0 0 0 (some (s.stream id).owner)
        exec (.streamRequestTimeout tag) s = .next (l.2.opFailed o 0 3 l.1))) ∧
    ((∀ t ∈ s.tags, t.tag = tag → t.who ≠ .held) → exec (.tagHoldExpiry tag) s = .next s) ∧
    (∀ t, s.tags.find? (fun t => t.tag = tag && t.who = .held) = some t →
      exec (.tagHoldExpiry tag) s = .next { s with tags := s.tags.erase t }) ∧
    (Reaches s src 0xD80018 →
      let w := s.setFld 0xD80018 11 4 (v.toNat / 2 ^ 4 % 256)
      ((s.reg 0xD80018).getLsbD 31 = true → exec (.flip src v) s = .next (s.reject src 0xD80018)) ∧
      ((s.reg 0xD80018).getLsbD 31 = false → v.getLsbD 1 = false → exec (.flip src v) s = .next w) ∧
      (WinCanon s → (s.reg 0xD80018).getLsbD 31 = false → v.getLsbD 1 = true → ∃ u, exec (.flip src v) s = .next u ∧
        u.epoch = 1 - s.epoch ∧ u.mem = s.mem ∧ u.rte = s.rte ∧ u.ordHold = (v.getLsbD 2 || s.ordHold) ∧
        (v.getLsbD 2 = true → u.odrainEnd = s.gtime + BitVec.ofNat 64 (1000 * (v.toNat / 2 ^ 4 % 256))))) ∧
    (let waits : Prop := ∃ p, (s.port p).txq.any (·.old) = true ∨ (s.port p).replay.any (·.old) = true
     (s.ordHold = false ∨ waits → exec .orderedHoldRelease s = .next s) ∧
     (s.ordHold = true → ¬ waits → exec .orderedHoldRelease s = .next (s.ordHeld.foldl State.send
       { s with gtime := if s.gtime.toNat < s.odrainEnd.toNat then s.odrainEnd else s.gtime, ordHold := false, ordHeld := [] })))

/-- R408 to R412, R415 to R418, R422, R427, R429 to R432, R436 to R439, R447: flits, packets, tags and epochs.
The model's choices that it rests on: log entries 64, 65, 67, 68, 79, 82, 179, 192. -/
def Obligations.LinkTraffic : Prop := Flits ∧ Packets ∧ PacketEffects ∧ TagsAndEpochs

/-! ## Clocks, power and tiers (16, 18) -/

/-- R494, R498, R499, R529 to R531: performance points, the governor, droop and temperature. -/
def Sys2Proof.PerformancePoints : Prop :=
  (∀ (s : State) (src : Source) (v : W32), Reaches s src 0x10008 →
    let busy := (s.reg 0x10008).getLsbD 31
    (pwrWriter src = false → exec (.clkPp src v) s = .next (s.reject src 0x10008)) ∧
    (pwrWriter src = true → busy = true → exec (.clkPp src v) s = .next
      { s with heldWrites := s.heldWrites ++ [(0x10008, src, v.setWidth 64)] }) ∧
    (pwrWriter src = true → busy = false → v.toNat % 4 = 3 → exec (.clkPp src v) s = .next (s.reject src 0x10008)) ∧
    (pwrWriter src = true → busy = false → v.toNat % 4 ≠ 3 → exec (.clkPp src v) s = .next
      (s.setReg 0x10008 ((s.reg 0x10008 &&& ~~~0x33) ||| (v.setWidth 64 &&& 0x33))))) ∧
  (∀ s : State,
    let held : Prop := ∃ e ∈ s.heldWrites, e.1 = 0x10008
    (s.vreq = none → exec .voltageSettle s = .next s ∧ exec .voltageTimeout s = .next s) ∧
    (∀ p, s.vreq = some p → ¬ held →
      exec .voltageTimeout s = .next { s.setFld 0x10008 31 31 0 with vreq := none } ∧
      exec .voltageSettle s = .next { (s.setFld 0x10008 9 8 p.toNat).setFld 0x10008 31 31 0 with vreq := none })) ∧
  (∀ (s : State) (power : W16), WinCanon s →
    let t := s.setFld 0x10018 63 48 power.toNat
    let limit := s.fld 0x10010 9 0
    let tooMuch : Prop := limit < power.toNat ∨ s.fld 0x10020 23 16 ≤ s.fld 0x10020 7 0
    let lower : Prop := s.basePoint + s.govSteps.countP (· = true) < 2
    let throttle : Prop := s.govSteps.countP (· = false) < 6
    let first : Prop := s.role = 1 ∨ s.role = 4
    -- the loop's steps, its DUTY and CAPPED
    let leaves (steps : List Bool) : Prop := ∃ u, exec (.governorLoop power) s = .next u ∧ u.govSteps = steps ∧
      u.fld 0x10018 44 40 = 16 - 2 * steps.countP (· = false) ∧ u.fld 0x10018 0 0 = (if steps = [] then 0 else 1) ∧
      u.mem = s.mem ∧ u.quires = s.quires
    (s.devState = 2 → exec (.governorLoop power) s = .next s) ∧
    (s.devState ≠ 2 → s.fld 0x10018 2 2 = 1 → exec (.governorLoop power) s = .next t) ∧
    (s.devState ≠ 2 → s.fld 0x10018 2 2 = 0 →
      (tooMuch → throttle → (first ∨ ¬ lower) → leaves (false :: s.govSteps)) ∧
      (tooMuch → lower → (¬ first ∨ ¬ throttle) → leaves (true :: s.govSteps)) ∧
      (tooMuch → ¬ lower → ¬ throttle → leaves s.govSteps) ∧
      (¬ tooMuch → 100 * power.toNat < 95 * limit → 9 ≤ s.govLow → leaves (s.govSteps.drop 1)) ∧
      (¬ tooMuch → (95 * limit ≤ 100 * power.toNat ∨ s.govLow < 9) → leaves s.govSteps))) ∧
  (∀ s : State, exec .droopRelease s = .next { s with droop := false } ∧
    (s.droop = true → exec .droopAssert s = .next s) ∧
    (s.droop = false → WinCanon s → ∃ t, exec .droopAssert s = .next t ∧ t.droop = true ∧
      t.fld 0x10018 31 16 = min 0xFFFF (s.fld 0x10018 31 16 + 1) ∧ t.fld 0x10018 15 0 = s.fld 0x10018 15 0 ∧
      t.fld 0x10018 63 32 = s.fld 0x10018 63 32 ∧ ∀ o, o ≠ 0x10018 → t.reg o = s.reg o)) ∧
  (∀ (s : State) (temp : Byte), WinCanon s →
    let t := s.setFld 0x10020 7 0 temp.toNat
    let trip := s.fld 0x10020 31 24
    (s.devState ≠ 2 → trip ≤ temp.toNat → (∀ e ∈ s.heldWrites, e.1 ≠ 0x10008) → ∃ u, exec (.thermalSample temp) s = .next u ∧
      u.fld 0x10020 7 0 = temp.toNat ∧ u.fld 0x10018 2 2 = 1 ∧ u.fld 0x10008 9 8 = 2 ∧ u.fld 0x10018 44 40 = 4 ∧
      u.vreq = none ∧ u.mem = s.mem) ∧
    ((s.devState = 2 ∨ temp.toNat < trip) → trip ≤ temp.toNat + 5 → exec (.thermalSample temp) s = .next t) ∧
    (temp.toNat + 5 < trip → exec (.thermalSample temp) s = .next (t.setFld 0x10018 2 2 0)))

/-- R503 to R508: power domains: what may be requested, the transition, and what a domain that is switched loses. -/
def Sys2Proof.PowerDomains : Prop :=
  (∀ (s : State) (d : Fin 86) (src : Source) (v : W32), WinCanon s → Reaches s src (0x10100 + 8 * d.val) →
    let r := 0x10100 + 8 * d.val
    let i : Instr := .domainRequest d src v
    let req := v.toNat % 4
    let press : Prop := 34 ≤ d.val ∧ d.val < 68
    let bad : Prop := s.devState ≠ 0 ∨ (v.getLsbD 8 = true ∧ ¬ press) ∨
      (req < 2 ∧ press ∧ s.domState (d.val - 34) ≠ 0) ∨
      (2 ≤ req ∧ d.val < 34 ∧ s.domState (34 + d.val) < 2) ∨
      (s.domState d.val = 0 ∧ req ≠ 0 ∧ d.val < 68 ∧ s.quireTaken (Fin.ofNat 34 (d.val % 34)) = true) ∨
      (s.domState d.val = 0 ∧ req ≠ 0 ∧ 68 ≤ d.val ∧ d.val < 72 ∧ s.allocated (d.val - 68) = true) ∨
      (req = 3 ∧ (((d.val = 79 ∨ d.val = 80) ∧ (s.reg 0x940000).getLsbD 31 = true) ∨
        (d.val = 81 ∧ (s.reg 0x940008).getLsbD 31 = true) ∨ (d.val = 82 ∧ (s.reg 0x940010).getLsbD 31 = true))) ∨
      ((d.val = 72 ∨ d.val = 83 ∨ d.val = 84) ∧ req ≠ 0)
    let t := s.setReg r ((s.reg r &&& ~~~0x103) ||| (v.setWidth 64 &&& 0x103))
    (pwrWriter src = false → exec i s = .next (s.reject src r)) ∧
    (pwrWriter src = true → (s.reg r).getLsbD 31 = true →
      exec i s = .next { s with heldWrites := s.heldWrites ++ [(r, src, v.setWidth 64)] }) ∧
    (pwrWriter src = true → (s.reg r).getLsbD 31 = false → bad → exec i s = .next (s.reject src r)) ∧
    (pwrWriter src = true → (s.reg r).getLsbD 31 = false → ¬ bad → req = s.fld r 19 18 → exec i s = .next t) ∧
    (pwrWriter src = true → (s.reg r).getLsbD 31 = false → ¬ bad → req ≠ s.fld r 19 18 →
      exec i s = .next { t.setFld r 31 31 1 with domMove := s.domMove ++ [(d.val, req)] })) ∧
  (∀ (s : State) (d : Fin 86),
    ((∀ e ∈ s.domMove, e.1 ≠ d.val) → exec (.domainTransitionComplete d) s = .next s) ∧
    (∀ n, s.domMove.find? (fun e => e.1 = d.val) = some (d.val, n) → n < 4 → n ≠ s.domState d.val →
      (∀ e ∈ s.heldWrites, e.1 ≠ 0x10100 + 8 * d.val) → s.domLost.getLsbD d.val = false →
      -- a press unit's domain holds nothing of its own
      (34 ≤ d.val → d.val < 68 → ∃ u, exec (.domainTransitionComplete d) s = .next u ∧ u.mem = s.mem ∧ u.quires = s.quires ∧
        u.domMove = s.domMove.filter (fun e => e.1 ≠ d.val) ∧
        (WinCanon s → u.domState d.val = n ∧ (u.reg (0x10100 + 8 * d.val)).getLsbD 31 = false)) ∧
      -- a quire loses everything in OFF, and keeps its retention list's registers in RETAINED
      (∀ q : QuireId, q.val = d.val → s.domState d.val < 2 → 2 ≤ n → ∃ u, exec (.domainTransitionComplete d) s = .next u ∧
        u.quires = s.quires.set q { st := (s.q q).st } ∧ u.mem = s.mem ∧
        (WinCanon s → n = 2 → u.reg (0x100010 + 0x10000 * q.val) = s.reg (0x100010 + 0x10000 * q.val)) ∧
        (WinCanon s → n = 3 → u.reg (0x100010 + 0x10000 * q.val) = 0)) ∧
      -- a link group that leaves ON for RETAINED stops driving: no port of it stays up
      (∀ k : Fin 4, 73 ≤ d.val → d.val < 79 → s.domState d.val = 0 → n = 2 → ∃ u,
        exec (.domainTransitionComplete d) s = .next u ∧
        ((s.port (Fin.ofNat 24 (4 * (d.val - 73) + k.val))).st ≠ 0 →
          (u.port (Fin.ofNat 24 (4 * (d.val - 73) + k.val))).st = 1)))) ∧
  (∀ (s : State) (q : QuireId), let r := 0x10210 + 8 * q.val
    let auto : Prop := (s.reg r).getLsbD 8 = true ∧ s.fld r 1 0 = 0 ∧ s.fld r 19 18 = 0 ∧ (s.reg r).getLsbD 31 = false
    (auto → exec (.pressAutoGate q) s = .next (s.setFld r 19 18 1)) ∧ (¬ auto → exec (.pressAutoGate q) s = .next s))

/-- R510 to R518, R527: device power states, SLEEP, waking, and the factory's calibration. -/
def Sys2Proof.DeviceStates : Prop :=
  (∀ (s : State) (src : Source), Reaches s src 0x10000 →
    let busy := (s.reg 0x10000).getLsbD 31
    let hostWakes : Prop := src = .host ∧ (s.reg 0x10028).getLsbD 1 = true
    let result (i : Instr) (n : Nat) : Prop := exec i s = .next (s.setFld 0x10000 27 24 n)
    (∀ p ∈ [(0, Instr.active src), (1, .idle src), (2, .sleep src)],
      (pwrWriter src = false → exec p.2 s = .next (s.reject src 0x10000)) ∧
      (pwrWriter src = true → busy = true → exec p.2 s = .next
        { s with heldWrites := s.heldWrites ++ [(0x10000, src, BitVec.ofNat 64 p.1)] })) ∧
    (pwrWriter src = true → busy = false →
      (s.devState = 0 → result (.active src) 1) ∧
      (s.devState = 1 → exec (.active src) s = .next (s.leaveIdle.setFld 0x10000 27 24 1)) ∧
      (s.devState = 2 → ¬ hostWakes → result (.active src) 2 ∧ result (.idle src) 2) ∧
      (s.devState = 1 → result (.idle src) 1) ∧
      (s.devState = 0 → (∀ n : Fin 32, s.bound[n] = none) → (∀ q, s.quireTaken q = false) →
        ∃ u, exec (.idle src) s = .next u ∧ u.devState = 1 ∧ u.fld 0x10000 27 24 = 1) ∧
      (s.devState = 0 → ((∃ n : Fin 32, s.bound[n] ≠ none) ∨ (∃ q, s.quireTaken q = true)) → result (.idle src) 2) ∧
      -- SLEEP: from IDLE, with no completion owed, no stream, no service and no patch in progress
      let may : Prop := s.devState = 1 ∧ (∀ e ∈ s.queues, e.2.owedCount = 0) ∧ (∀ f, f < 4 → s.allocated f = false) ∧
        s.svc = none ∧ (∀ f : Fin 4, s.frames[f].patchBusy = false)
      (may → ∃ u, exec (.sleep src) s = .next u ∧ (u.reg 0x10000).getLsbD 31 = true ∧ (72, 2) ∈ u.domMove) ∧
      (¬ may → result (.sleep src) 2))) ∧
  (∀ (s : State) (cause : BitVec 3) (p : PortId),
    let en (n : Nat) : Prop := (s.reg 0x10028).getLsbD n = true
    let wakes : Prop := (cause = 1 ∧ en 0 ∧ s.linkEn p = true) ∨ (cause = 2 ∧ en 1 ∧ s.doorbells ≠ []) ∨
      (cause = 3 ∧ en 2 ∧ (s.reg 0x10040).getLsbD 63 = true) ∨
      (cause = 4 ∧ en 3 ∧ s.fld 0x10020 15 8 ≤ s.fld 0x10020 7 0) ∨ (cause = 5 ∧ en 4) ∨ cause = 6
    let sleeps : Prop := s.devState = 2
    let entering : Prop := (s.reg 0x10000).getLsbD 31 = true
    (¬ wakes ∨ (¬ sleeps ∧ ¬ entering) → exec (.wake cause p) s = .next s) ∧
    (wakes → cause ≠ 3 → sleeps → exec (.wake cause p) s = .next
      (((s.recordWake cause.toNat p false).wakeUp).unhold 0x10000 State.devWrite)) ∧
    (wakes → cause ≠ 3 → ¬ sleeps → entering → exec (.wake cause p) s = .next
      ((((({ s with domMove := s.domMove.filter (fun e => e.1 ≠ 72) } : State).recordWake cause.toNat p true).wakeUp).setFld
        0x10000 31 31 0).setFld 0x10000 27 24 3 |>.unhold 0x10000 State.devWrite)) ∧
    (∀ abort, WinCanon s → let u := s.recordWake cause.toNat p abort
      u.dbDrop = false ∧ (s.dbDrop = false → cause ≠ 1 → abort = false →
        u.reg 0x10030 = BitVec.ofNat 64 (2 ^ 31 + cause.toNat) ∧ u.reg 0x10038 = s.gtime))) ∧
  (∀ (s : State) (src : Source), Reaches s src 0x10060 →
    (pwrWriter src = false ∨ (s.reg 0x10060).getLsbD 31 = true → exec (.factoryRestore src) s = .next (s.reject src 0x10060)) ∧
    (pwrWriter src = true → (s.reg 0x10060).getLsbD 31 = false →
      exec (.factoryRestore src) s = .next (s.setFld 0x10060 31 31 1))) ∧
  (∀ (s : State) (ok : Bool),
    ((s.reg 0x10060).getLsbD 31 = false → exec (.factoryRestoreCommit ok) s = .next s) ∧
    ((s.reg 0x10060).getLsbD 31 = true → exec (.factoryRestoreCommit ok) s = .next
      { (s.setFld 0x10060 31 31 0).setFld 0x10060 27 24 (if ok then 1 else 2) with
        calTrain := if ok then 0 else s.calTrain, calLink := if ok then 0 else s.calLink }))

/-- R494, R498, R499, R503 to R518, R527, R529 to R531: points, the governor, domains, device states, wakes.
The model's choices that it rests on: log entries 8, 103, 104, 107, 111. -/
def Obligations.PowerStates : Prop := PerformancePoints ∧ PowerDomains ∧ DeviceStates

/-- R450 to R464: CXL links, the tiers' configuration registers and the role profiles.
The model's choices that it rests on: log entries 73, 114, 116, 117. -/
def Obligations.TiersAndRoles : Prop :=
  (∀ (s : State) (x : Fin 4) (up : Bool), ∃ b, (∀ k, k < 4 → b.getLsbD k = if k = x.val then up else s.cxlUp.getLsbD k) ∧
    let t : State := { s with cxlUp := b }
    let st := s.fld (0x900000 + 0x10000 * x.val) 3 0
    let code := s.straps.toNat / 16 % 8
    (code ≤ x.val ∨ 4 < code → exec (.cxlLinkUp x up) s = .next s) ∧
    (x.val < code → code ≤ 4 → st = 5 → exec (.cxlLinkUp x up) s = .next t) ∧
    (x.val < code → code ≤ 4 → st ≠ 5 →
      exec (.cxlLinkUp x up) s = .next ((t.setUnitState .cxl x.val
        (if s.domState 82 ≠ 0 then 7 else if up then 3 else 0)).availMem .cxl x.val up) ∧
      -- GLB_AVAIL_MEM has it already
      (WinCanon s → (s.reg 0x20).getLsbD (56 + x.val) = up → ∃ u, exec (.cxlLinkUp x up) s = .next u ∧ u.mem = s.mem ∧
        u.fld (0x900000 + 0x10000 * x.val) 3 0 = if s.domState 82 ≠ 0 then 7 else if up then 3 else 0))) ∧
  (∀ (s : State) (k : Fin 3) (src : Source) (v : W32),
    let off := 0x940000 + 8 * k.val
    Reaches s src off →
    let r := tierOf k
    let ways := v.toNat / 16 % 8
    let gran := v.toNat % 8
    let same : Prop := ways = s.fld off 6 4 ∧ gran = s.fld off 2 0
    let codesBad : Prop := 4 < gran ∨ ways = 7 ∨ (k = 0 ∧ 4 < ways) ∨ (k = 1 ∧ 5 < ways) ∨ (k = 2 ∧ (ways = 4 ∨ ways = 5))
    let answers (t : State) : Prop := exec (.tierEnable k src v) s = .next t ∧ exec (.tierDisable k src v) s = .next t
    (codesBad → answers (s.reject src off)) ∧
    (¬ codesBad → (s.reg off).getLsbD 31 = true → ¬ same → answers (s.reject src off)) ∧
    (¬ codesBad → (s.reg off).getLsbD 31 = true → same → v.getLsbD 31 = true → answers s) ∧
    (¬ codesBad → (s.reg off).getLsbD 31 = true → same → v.getLsbD 31 = false →
      answers ((((s.setFld off 31 31 0).setFld off 22 20 0).setFld off 18 16 0).dropDirty r)) ∧
    (¬ codesBad → (s.reg off).getLsbD 31 = false → v.getLsbD 31 = false →
      answers (s.setReg off ((s.reg off &&& ~~~0x80000077) ||| (v.setWidth 64 &&& 0x80000077)))) ∧
    (¬ codesBad → (s.reg off).getLsbD 31 = false → v.getLsbD 31 = true → ways ≠ 0 → gran ≠ 0 →
      let us := s.tierUnits r
      let fits : Prop := us.length % waysOf ways = 0 ∧ (waysOf ways ≤ 1 ∨ ∀ u ∈ us, ∀ w ∈ us, u.2 = w.2) ∧
        us.foldl (fun n u => n + u.2) 0 ≤ tierSpan r
      (¬ fits → answers (s.reject src off)) ∧
      (fits → s.tierLast[k] = (0, 0) → (∀ n, n < (tierMax r).1 → unitCode (tierType r) n ∉ s.admits) →
        ∃ t, answers t ∧ t.mem = s.mem ∧ t.quires = s.quires ∧ (t.reg off).getLsbD 31 = true ∧
          t.fld off 6 4 = ways ∧ t.fld off 2 0 = gran ∧ waysOf (t.fld off 22 20) = waysOf ways ∧ t.fld off 18 16 = gran))) ∧
  (∀ (s : State) (src : Source) (v : W32), WinCanon s → Reaches s src 0x300 →
    (4 < v.toNat % 8 → exec (.roleChange src v) s = .next (s.reject src 0x300)) ∧
    (v.toNat % 8 ≤ 4 → ∃ t, exec (.roleChange src v) s = .next t ∧ t.mem = s.mem ∧ t.quires = s.quires ∧
      (∀ o, o ≠ 0x300 → t.reg o = s.reg o) ∧ t.role = v.toNat % 8 ∧ t.fld 0x300 2 0 = v.toNat % 8))


/-! ## Reliability (17) -/

/-- What a failure leaves in the log: a record UNIT_FAILED, with the unit's last test and its admission withdrawn. -/
def Sys2Proof.failureNoted (s : State) (unit : Nat) : State :=
  let l := (s.logErr unit 0x0C 0 0 0 none).2
  { l with tested := l.tested.filter (fun e => e.1 ≠ unit), admits := l.admits.erase unit }

/-- R260, R368, R434, R472, R487: the failure of each kind of unit. -/
def Sys2Proof.UnitFailures : Prop :=
  ∀ (s : State) (type inst : Byte) (mover : Option (Fin 16)),
    let i : Instr := .unitFailed type inst mover
    let n := inst.toNat
    let count := [0, 34, 64, 4, 64, 32, 8, 16, 4, 24, 1, 2, 1].getD type.toNat 0
    let noted := failureNoted s (type.toNat * 256 + n)
    (count ≤ n → exec i s = .refused (.illFormed "UNIT_FAILED of a unit that the block does not have")) ∧
    (n < count → s.present = false → exec i s = .next s) ∧
    (n < count → s.present = true →
      -- a quire that carries no logical quire goes OFFLINE, and one that carries one moves it to a free spare
      (∀ q : QuireId, type = 1 → q.val = n →
        (s.quireUp q = false → exec i s = .next s) ∧
        (s.quireUp q = true → s.tipin = none → WinCanon s → (s.q q).st ≠ .running →
          ∃ t, exec i s = .next t ∧ (t.q q).st = .offline ∧ t.quireUp q = false ∧
            (∀ l j, s.logicalOf q = some l → s.freeSpare = some j → t.physOf l.val = some j) ∧
            (∀ l, s.logicalOf q = some l → s.freeSpare = none → t.physOf l.val = none))) ∧
      (∀ e : EngineId, type = 2 → e.val = n →
        ((s.reg 0x018).getLsbD n = false → exec i s = .next s) ∧
        ((s.reg 0x018).getLsbD n = true → ∃ t, exec i s = .next t ∧ t.engines[e].halted = true ∧
          (WinCanon s → (t.reg 0x018).getLsbD n = false))) ∧
      (∀ f : Fin 4, type = 3 → f.val = n → mover = none →
        (s.frames[f].inService = false → exec i s = .next s) ∧
        (s.frames[f].inService = true → ∃ t, exec i s = .next t ∧ t.frames[f].inService = false ∧
          (WinCanon s → t.fld 0x018 (16 * n + 15) (16 * n) = 0))) ∧
      (∀ (f : Fin 4) (m : Fin 16), type = 3 → f.val = n → mover = some m →
        (s.frames[f].movers.getLsbD m.val = false → exec i s = .next s) ∧
        (s.frames[f].movers.getLsbD m.val = true → ∃ b, (∀ k, k < 16 → b.getLsbD k = (s.frames[f].movers.getLsbD k && k != m.val)) ∧
          exec i s = .next (noted.setFrame f { s.frames[f] with movers := b }))) ∧
      (type = 4 → (s.folioFailed.getLsbD n = true → exec i s = .next s) ∧
        (s.folioFailed.getLsbD n = false → ∃ b, (∀ k, k < 64 → b.getLsbD k = (s.folioFailed.getLsbD k || k == n)) ∧
          exec i s = .next { noted with folioFailed := b })) ∧
      (type = 5 → (s.txbFailed.getLsbD n = true → exec i s = .next s) ∧
        (s.txbFailed.getLsbD n = false → ∃ t, exec i s = .next t ∧
          (∀ k, k < 32 → t.txbFailed.getLsbD k = (s.txbFailed.getLsbD k || k == n)) ∧
          (WinCanon s → (t.reg 0x20).getLsbD n = false))) ∧
      (∀ p ∈ [(6, Region.hbm), (7, Region.lpd), (8, Region.cxl)], type.toNat = p.1 →
        let r := tierStat p.2 n
        (s.fld r 3 0 = 5 ∨ s.fld r 31 20 = 0 → exec i s = .next s) ∧
        (s.fld r 3 0 ≠ 5 → s.fld r 31 20 ≠ 0 → WinCanon s → ∃ t, exec i s = .next t ∧ t.fld r 3 0 = 5 ∧
          (t.reg 0x20).getLsbD ((tierMax p.2).2 + n) = false)) ∧
      (∀ p : PortId, type = 9 → p.val = n →
        (s.portFailed.getLsbD n = true → exec i s = .next s) ∧
        (s.portFailed.getLsbD n = false → ∃ t, exec i s = .next t ∧ t.portFailed.getLsbD n = true ∧
          (t.port p).st = if (s.port p).st = 0 then 0 else 1)) ∧
      (type = 10 → exec i s = .next (s.enterSafeHold 4)) ∧
      (type = 12 → exec i s = .next (s.enterSafeHold 6)) ∧
      (type = 11 → s.fld 0x20000 (2 * n + 3) (2 * n + 2) = 0 → exec i s = .next s) ∧
      (type = 11 → s.fld 0x20000 (2 * n + 3) (2 * n + 2) ≠ 0 → s.fld 0x20000 0 0 ≠ n → WinCanon s → ∃ t, exec i s = .next t ∧
        t.fld 0x20000 (2 * n + 3) (2 * n + 2) = 0 ∧ t.fld 0x20000 11 8 = 0 ∧ (t.reg 0x100).getLsbD 8 = true ∧
        (t.eng (Fin.ofNat 66 (64 + n))).halted = true))

/-- R488: TEST, ADMIT and RETIRE of a unit, and the end of a test. -/
def Sys2Proof.UnitService : Prop :=
  (∀ (s : State) (src : Source) (type inst : Byte), Reaches s src 0x20010 →
    let n := inst.toNat
    let u := type.toNat * 256 + n
    let count := [0, 34, 64, 4, 64, 32, 8, 16, 4, 24].getD type.toNat 0
    let result (t : State) (r : Nat) : State := t.setFld 0x20010 59 56 r
    let bad : Prop := (s.reg 0x20010).getLsbD 63 = true ∨ count = 0
    let away : Prop := s.outOfService type.toNat n = true
    (∀ i ∈ [Instr.test src type inst, .admitUnit src type inst, .retire src type inst],
      (bad → exec i s = .next (s.reject src 0x20010)) ∧ (¬ bad → count ≤ n → exec i s = .next (result s 3))) ∧
    (¬ bad → n < count →
      let begun : State := { s.setFld 0x20010 63 63 1 with
        svc := some (1, u), tested := s.tested.filter (fun e => e.1 ≠ u), admits := s.admits.erase u }
      (¬ away → exec (.test src type inst) s = .next (result s 3)) ∧
      (away → 4 ≤ type.toNat → exec (.test src type inst) s = .next begun) ∧
      (∀ q : QuireId, away → type = 1 → q.val = n → exec (.test src type inst) s = .next
        ((begun.setQ q {}).resetRegs (0x100000 + 0x10000 * n) (0x110000 + 0x10000 * n))) ∧
      (∀ e : EngineId, away → type = 2 → e.val = n → ∃ t, exec (.test src type inst) s = .next t ∧ t.engines[e].halted = true ∧
        t.svc = some (1, u) ∧ t.mem = s.mem ∧ t.quires = s.quires) ∧
      (∀ f : Fin 4, away → type = 3 → f.val = n → ∃ t, exec (.test src type inst) s = .next t ∧ t.frames[f].inService = false ∧
        t.svc = some (1, u) ∧ t.mem = s.mem ∧ t.quires = s.quires) ∧
      (¬ (away ∧ (u, true) ∈ s.tested) → exec (.admitUnit src type inst) s = .next (result s 3)) ∧
      (away → (u, true) ∈ s.tested →
        (4 ≤ type.toNat → type.toNat ≤ 8 →
          exec (.admitUnit src type inst) s = .next (result { s with admits := u :: s.admits.erase u } 1)) ∧
        (type = 9 → ∃ b, (∀ k, k < 24 → b.getLsbD k = (s.portFailed.getLsbD k && k != n)) ∧
          exec (.admitUnit src type inst) s = .next (result { s with portFailed := b } 1)) ∧
        (∀ q : QuireId, type = 1 → q.val = n → WinCanon s → ∃ t, exec (.admitUnit src type inst) s = .next t ∧
          (t.q q).st = .idle ∧ t.quireUp q = true ∧
          ∀ l : Fin 32, s.physOf l.val = none → (∀ k : Fin 32, k < l → s.physOf k.val ≠ none) → t.physOf l.val = some q) ∧
        (∀ e : EngineId, type = 2 → e.val = n → WinCanon s → ∃ t, exec (.admitUnit src type inst) s = .next t ∧
          t.engines[e].halted = false ∧ (t.reg 0x018).getLsbD n = true) ∧
        (∀ f : Fin 4, type = 3 → f.val = n → WinCanon s → (∀ e ∈ s.streams, e.1 / 16384 = n → e.2.state = 0) →
          ∃ t, exec (.admitUnit src type inst) s = .next t ∧ t.frames[f].inService = true ∧ t.frames[f].movers = 0xFFFF ∧
            t.fld 0x018 (16 * n + 15) (16 * n) = 0xFFFF)) ∧
      (away → exec (.retire src type inst) s = .next (result s 3)) ∧
      (¬ away → exec (.retire src type inst) s = .next (result (s.failUnit type.toNat n none) 1)))) ∧
  (∀ (s : State) (pass : Bool),
    (s.svc = none → exec (.testComplete pass) s = .next s) ∧
    (∀ k u, s.svc = some (k, u) →
      let t : State := { (s.setFld 0x20010 63 63 0).setFld 0x20010 59 56 (if pass then 1 else 2) with
        svc := none, tested := (u, pass) :: s.tested }
      (pass = false ∨ (u / 256 ≠ 6 ∧ u / 256 ≠ 7) → exec (.testComplete pass) s = .next t) ∧
      (pass = true → (u / 256 = 6 ∨ u / 256 = 7) → ∃ v, exec (.testComplete pass) s = .next v ∧ v.tested = t.tested ∧
        v.svc = none ∧ v.mem = s.mem ∧ v.quires = s.quires)))

/-- R260, R368, R434, R472, R487, R488: the failure and the service of units.
The model's choices that it rests on: log entries 32, 119, 120, 121, 122, 123, 124, 172, 187. -/
def Obligations.UnitsInService : Prop := UnitFailures ∧ UnitService

/-- R489 to R492: the standby headband, failover, and SAFE HOLD. -/
def Sys2Proof.Headbands : Prop :=
  (∀ s : State,
    let a := s.fld 0x20000 0 0
    let sync := s.fld 0x20000 11 8
    let put (t : State) (v : Nat) : State := (t.setFld 0x20000 11 8 v).setFld 0x100 8 8 (if v = 2 then 0 else 1)
    (sync = 0 → exec .journalAckTimeout s = .next s) ∧
    (sync ≠ 0 → exec .journalAckTimeout s = .next (put (s.setFld 0x20000 (2 * (1 - a) + 3) (2 * (1 - a) + 2) 0) 0)) ∧
    (sync ≠ 1 → exec .standbySynced s = .next s) ∧
    (sync = 1 → ∃ t, exec .standbySynced s = .next t ∧ t.win = (put s 2).win ∧ t.mem = s.mem ∧ t.quires = s.quires) ∧
    (∀ h : Fin 2,
      let own := s.fld 0x20000 (2 * h.val + 3) (2 * h.val + 2)
      let other := s.fld 0x20000 (2 * (1 - h.val) + 3) (2 * (1 - h.val) + 2)
      let waits : Prop := own = 0 ∧ other = 2 ∧ a ≠ h.val
      (¬ waits → exec (.headbandReboot h) s = .next s) ∧
      (waits → exec (.headbandReboot h) s = .next
        ((put (s.setFld 0x20000 (2 * h.val + 3) (2 * h.val + 2) 1) 1).setEng (Fin.ofNat 66 (64 + h.val)) {}))) ∧
    let serves : Prop := s.present = true ∧ s.safeHold = false ∧ s.fld 0x20000 (2 * a + 3) (2 * a + 2) = 2
    (¬ serves → exec .hbFailover s = .next s) ∧
    (serves → sync = 2 → WinCanon s → ∃ t, exec .hbFailover s = .next t ∧ t.fld 0x20000 0 0 = 1 - a ∧
      t.fld 0x20000 (2 * (1 - a) + 3) (2 * (1 - a) + 2) = 2 ∧ t.fld 0x20000 (2 * a + 3) (2 * a + 2) = 0 ∧
      t.fld 0x20000 11 8 = 0 ∧ t.fld 0x20000 23 16 = min 255 (s.fld 0x20000 23 16 + 1) ∧ t.safeHold = false ∧
      (t.eng (Fin.ofNat 66 (64 + a))).halted = true) ∧
    (serves → sync ≠ 2 → WinCanon s → ∃ t, exec .hbFailover s = .next t ∧ t.safeHold = true ∧
      (t.reg 0x20000).getLsbD 31 = true ∧ t.fld 0x20000 27 24 = (if sync = 1 then 1 else 2) ∧
      (∀ q, (t.q q).st = if (s.q q).st = .idle ∨ (s.q q).st = .offline then (s.q q).st else .halted)) ∧
    (s.present = false ∨ s.safeHold = true → exec .spineHang s = .next s) ∧
    (s.present = true → s.safeHold = false → ∃ t, exec .spineHang s = .next t ∧
      (∀ p, (s.port p).st ≠ 0 → (t.port p).st = 1) ∧
      (WinCanon s → t.safeHold = true ∧ (t.reg 0x20000).getLsbD 31 = true ∧ t.fld 0x20000 27 24 = 5) ∧
      ((∀ p, (s.port p).st = 0) → ∀ q, (t.q q).st = if (s.q q).st = .idle ∨ (s.q q).st = .offline then (s.q q).st else .halted)))

/-- R472, R477 to R480, R482: calibration, the text block's scrub, column repair and row sparing. -/
def Sys2Proof.ScrubAndCalibration : Prop :=
  (∀ (s : State) (type inst : Byte) (forced : Bool) (ns : BitVec 12),
    let i : Instr := .calibration type inst forced ns
    let n := inst.toNat
    let u := type.toNat * 256 + n
    let has : Prop := (type = 5 ∧ n < 32) ∨ (type = 6 ∧ n < 8) ∨ (type = 7 ∧ n < 16)
    let known : Prop := has ∧ ns.toNat ≤ 2000
    let ready : Prop := s.present = true ∧ ((type = 5 ∧ s.domState 83 = 0 ∧ s.txbFailed.getLsbD n = false) ∨
      (type = 6 ∧ s.domState (79 + n / 4) = 0 ∧ s.fld (tierStat .hbm n) 3 0 = 3) ∨
      (type = 7 ∧ s.domState 81 = 0 ∧ s.fld (tierStat .lpd n) 3 0 = 3))
    let due := (sGet 0 s.calAt u).toNat + (if forced then 1128000000 else 128000000)
    (¬ known → exec i s = .refused (.illFormed "CALIBRATION of a unit that is not calibrated, or longer than 2 us")) ∧
    (known → ¬ ready → exec i s = .next s) ∧
    (known → ready → due < 2 ^ 64 → ∃ t, exec i s = .next t ∧ t.gtime.toNat = max s.gtime.toNat due ∧
      sGet 0 t.calAt u = t.gtime ∧ t.mem = s.mem ∧ t.quires = s.quires ∧ (type = 5 → t.win = s.win) ∧
      (WinCanon s → type = 6 → t.fld (tierStat .hbm n) 3 0 = 3) ∧ (WinCanon s → type = 7 → t.fld (tierStat .lpd n) 3 0 = 3)) ∧
    (has → exec (.targetedRowRefresh type inst) s = .next s) ∧
    (¬ has → exec (.targetedRowRefresh type inst) s = .refused (.illFormed "TARGETED_ROW_REFRESH of a unit without rows"))) ∧
  (∀ (s : State) (ch : Fin 32) (ces : List (Fin 64 × BitVec 15 × Byte)) (ues : List (Fin 64)),
    let scrub := 0xA00100 + 0x1000 * ch.val
    let runs : Prop := s.present = true ∧ s.domState 83 = 0 ∧ s.txbFailed.getLsbD ch.val = false
    let x := s.txb[ch]
    let steps : Prop := runs ∧ (s.reg scrub).getLsbD 31 = true
    let clean : Txb := if x.row % 1024 = 0 then { x with sig := [], classified := [] } else x
    ((∃ e ∈ ces, 17920 ≤ e.2.1.toNat) → exec (.scrubRowStep ch ces ues) s =
      .refused (.illFormed "SCRUB_ROW_STEP with a column above 17,919")) ∧
    ((∀ e ∈ ces, e.2.1.toNat < 17920) → ¬ steps → exec (.scrubRowStep ch ces ues) s = .next s) ∧
    -- a row without errors, within a pass and at its end
    (steps → ∃ t, exec (.scrubRowStep ch [] []) s = .next t ∧ t.mem = s.mem ∧ t.poison = s.poison ∧ t.errBanks = s.errBanks ∧
      (x.row + 1 < 524288 → t.txb[ch] = { clean with row := x.row + 1 }) ∧
      (524288 ≤ x.row + 1 → t.txb[ch] = { clean with row := 0, passStart := s.gtime } ∧
        (WinCanon s → t.fld scrub 15 0 = (s.fld scrub 15 0 + 1) % 65536))) ∧
    -- a corrected word counts for its row
    (∀ w col sym, WinCanon s → steps → col.toNat < 17920 →
      ∃ t, exec (.scrubRowStep ch [(w, col, sym)] []) s = .next t ∧ t.mem = s.mem ∧
        sGet 0 t.txb[ch].rowCe x.row = sGet 0 x.rowCe x.row + 1 ∧
        (sGet 0 x.rowCe x.row + 1 < s.fld 0x30028 15 8 → t.txb[ch].spareDue = x.spareDue) ∧
        (s.fld 0x30028 15 8 ≤ sGet 0 x.rowCe x.row + 1 → ∃ e ∈ t.txb[ch].spareDue, e.1 = x.row)) ∧
    -- an uncorrectable word poisons its line
    (∀ w, steps → ∃ t, exec (.scrubRowStep ch [] [w]) s = .next t ∧ t.mem = s.mem ∧ t.poisonOf (s.wordAddr ch x.row w.val) ≠ none)) ∧
  (∀ (s : State) (ch : Fin 32),
    let scrub := 0xA00100 + 0x1000 * ch.val
    let runs : Prop := s.present = true ∧ s.domState 83 = 0 ∧ s.txbFailed.getLsbD ch.val = false
    let x := s.txb[ch]
    (x.repairs = [] ∨ ¬ runs → exec (.repairRowStep ch) s = .next s) ∧
    (∀ sub col sym n r, x.repairs = (sub, col, sym, n) :: r → runs →
      (n + 1 < 1024 → exec (.repairRowStep ch) s = .next
        { s with txb := s.txb.set ch { x with repairs := (sub, col, sym, n + 1) :: r } }) ∧
      (1024 ≤ n + 1 → ∃ t, exec (.repairRowStep ch) s = .next t ∧ t.txb[ch] = { x with repairs := r } ∧ t.mem = s.mem)) ∧
    (x.spareDue = [] ∨ ¬ runs → exec (.rowSpared ch) s = .next s) ∧
    (∀ row synd r, x.spareDue = (row, synd) :: r → runs → ∃ t, exec (.rowSpared ch) s = .next t ∧ t.mem = s.mem ∧
      t.txb[ch].spareDue = r ∧
      (sGet 0 x.spares (row / 32768) < 32 → sGet 0 t.txb[ch].spares (row / 32768) = sGet 0 x.spares (row / 32768) + 1 ∧
        t.txb[ch].retAdv = x.retAdv) ∧
      (32 ≤ sGet 0 x.spares (row / 32768) → t.txb[ch].spares = x.spares)) ∧
    (¬ runs ∨ (s.reg scrub).getLsbD 30 = true → exec (.scrubLate ch) s = .next s) ∧
    (runs → (s.reg scrub).getLsbD 30 = false → WinCanon s → ∃ t, exec (.scrubLate ch) s = .next t ∧
      (t.reg scrub).getLsbD 30 = true ∧ (t.reg 0x100).getLsbD 2 = true ∧ t.mem = s.mem ∧ t.txb = s.txb))

/-- R472, R477 to R480, R482, R489 to R492: headbands, SAFE HOLD, scrub, repair and calibration.
The model's choices that it rests on: log entries 8, 28, 32, 87, 107, 125, 126, 127, 128. -/
def Obligations.HeadbandsAndScrub : Prop := Headbands ∧ ScrubAndCalibration


/-! ## Resets, boot and debug (17, 18, 19) -/

/-- What a boot leaves (R21, R489, R523), whatever came before: t is the state after it. -/
def Sys2Proof.Booted (env : BootEnv) (t : State) : Prop :=
  let good := (List.finRange 34).filter (fun q => env.badQuire.getLsbD q.val = false)
  (∀ q : QuireId, t.q q = { st := if env.badQuire.getLsbD q.val then .offline else .idle }) ∧
  (∀ e : EngineId, t.engines[e].halted = if e.val < 64 then env.badEng.getLsbD e.val else false) ∧
  (∀ f : Fin 4, t.frames[f].inService = true ∧ t.frames[f].movers = 0xFFFF) ∧
  (∀ n, n < 32 → t.physOf n = good[n]?) ∧ (∀ q : QuireId, t.quireUp q = !env.badQuire.getLsbD q.val) ∧ t.booted = true ∧
  t.fld 0x20000 0 0 = (if env.badHb.getLsbD 0 then 1 else 0) ∧ t.fld 0x20000 11 8 = (if env.badHb = 0 then 1 else 0)

/-- What every reset clears (R521): t is the state after one of s. -/
def Sys2Proof.Cleared (s t : State) : Prop :=
  t.queues = [] ∧ t.streams = [] ∧ t.xlat = [] ∧ t.ctxCache = [] ∧ t.msiCache = [] ∧ t.hostReqs = [] ∧ t.tags = [] ∧
  t.atomics = [] ∧ t.mgmt = [] ∧ t.doorbells = [] ∧ t.heldWrites = [] ∧ t.domMove = [] ∧ t.armed = false ∧ t.svc = none ∧
  t.tested = [] ∧ t.tipin = none ∧ (∀ n : Fin 32, t.bound[n] = none) ∧ t.calLink = s.calLink ∧ t.pending = s.pending ∧
  t.hostRsps = s.hostRsps ∧ t.linkGen ≠ s.linkGen

/-- R492, R519 to R523, R550, R556, R557: cold and block resets, rail failures, the management reset, the wrapper.
The model's choices that it rests on: log entries 15, 21, 22, 130, 131, 132, 133. -/
def Obligations.Resets : Prop :=
  (∀ (s : State) (env : BootEnv), WinCanon s → ∃ t, exec (.blockReset env) s = .next t ∧ Cleared s t ∧ t.gtime = s.gtime ∧
    t.straps = s.straps ∧ t.safeHold = s.safeHold ∧ t.reg 0x10058 = s.reg 0x10058 ∧ t.reg 0x10010 = s.reg 0x10010 ∧
    t.reg 0x10040 = s.reg 0x10040 ∧ t.devState = 0 ∧
    (env.badHb = 3 → t.present = false) ∧
    (env.badHb ≠ 3 → t.present = decide (s.wir = .bypass ∨ s.wir = .ijtag ∨ s.wir = .preload) ∧ Booted env t)) ∧
  (∀ (s : State) (cause : RstCause) (straps : W32) (env : BootEnv), WinCanon s →
    ∃ t, exec (.coldReset cause straps env) s = .next t ∧ Cleared s t ∧ t.gtime = 0 ∧ t.straps = straps ∧
      t.safeHold = false ∧ t.reg 0x10010 = 950 ∧
      (cause = .por → (t.reg 0x10058).getLsbD 0 = true) ∧ (cause = .aonFail → (t.reg 0x10058).getLsbD 1 = true) ∧
      (cause = .brownout → (t.reg 0x10058).getLsbD 2 = true) ∧ (env.badHb ≠ 3 → Booted env t)) ∧
  (∀ (s : State) (rail : Rail) (env : BootEnv),
    let i : Instr := .railFailure rail env
    let feeds (d : Nat) : Prop := (rail = .press ∧ 34 ≤ d ∧ d < 68) ∨ (rail = .core ∧ ¬ (34 ≤ d ∧ d < 68)) ∨ rail = .sram ∨
      (rail = .folio ∧ d = 84) ∨ ((rail = .txb ∨ rail = .vpp) ∧ d = 83)
    let kept (d : Nat) : Prop := s.domState d = 2 ∨ (d, 2) ∈ s.domMove
    let switched : Prop := rail ∈ [.core, .press, .sram, .folio, .txb, .vpp]
    (rail = .io → exec i s = .next s) ∧
    (rail = .vddAon ∨ rail = .vinAon ∨ rail = .ldo → WinCanon s → ∃ t, exec i s = .next t ∧ Cleared s t ∧ t.gtime = 0 ∧
      (t.reg 0x10058).getLsbD (if rail = .ldo then 2 else 1) = true) ∧
    (switched → (∃ d, d < 86 ∧ feeds d ∧ s.domState d < 2) →
      exec i s = exec (.blockReset env) (s.setFld 0x10058 4 4 1)) ∧
    (switched → (∀ d, d < 86 → feeds d → 2 ≤ s.domState d) → ∃ b, exec i s = .next { s with domLost := b } ∧
      ∀ d, d < 86 → (b.getLsbD d = true ↔ s.domLost.getLsbD d = true ∨ (feeds d ∧ kept d))) ∧
    (∀ d : Fin 86, rail = .domain d → ∃ b, exec i s = .next { s with domLost := b } ∧
      ∀ k, k < 86 → (b.getLsbD k = true ↔ s.domLost.getLsbD k = true ∨ (k = d.val ∧ kept k)))) ∧
  (∀ (s : State) (src : Source) (env : BootEnv), Reaches s src 0x20008 →
    let may : Prop := src = .host ∨ src = .debug
    (¬ may → exec (.mresetArm src) s = .next (s.reject src 0x20008) ∧
      exec (.managementReset src env) s = .next (s.reject src 0x20008)) ∧
    (may → exec (.mresetArm src) s = .next { s with armed := true }) ∧
    (may → s.armed = false → exec (.managementReset src env) s = .next { s.reject src 0x20008 with armed := false }) ∧
    (may → s.armed = true → WinCanon s → ∃ t, exec (.managementReset src env) s = .next t ∧ Cleared s t ∧ t.gtime = s.gtime ∧
      t.safeHold = false ∧ (t.reg 0x10058).getLsbD 5 = true ∧ (env.badHb ≠ 3 → Booted env t)) ∧
    exec .mresetArmExpiry s = .next { s with armed := false }) ∧
  (∀ (s : State) (env : BootEnv),
    ∀ p ∈ [(Wir.bypass, Instr.wsBypass env), (.ijtag, .wsIjtag env), (.preload, .wsPreload env), (.extest, .wsExtest env),
      (.intest, .wsIntest env), (.clamp, .wsClamp env), (.safe, .wsSafe env)],
      let stops (w : Wir) : Prop := w = .extest ∨ w = .intest ∨ w = .clamp ∨ w = .safe
      let t : State := { s with wir := p.1 }
      (¬ stops s.wir → ¬ stops p.1 → exec p.2 s = .next t) ∧
      (¬ stops s.wir ∨ s.wir = p.1 → stops p.1 → exec p.2 s = .next { t with present := false }) ∧
      (stops s.wir → s.wir ≠ p.1 → ∀ u, exec (.blockReset env) t = .next u →
        (¬ stops p.1 → exec p.2 s = .next u) ∧ (stops p.1 → exec p.2 s = .next { u with present := false })))

/-- R532 to R538: marks, rings, counters and their shadows. -/
def Obligations.RingsAndCounters : Prop :=
  (∀ (s : State) (src : Source) (v : W64),
    let u := s.fld 0x40000 15 0
    let r := s.ring u
    (src = .debug → exec (.mark src v) s = .next (s.reject src 0x40018)) ∧
    (src ≠ .debug → Reaches s src 0x40018 →
      (hasRing u = false → exec (.mark src v) s = .next s) ∧
      (hasRing u = true → r.waiting.length < 8 → exec (.mark src v) s = .next (s.setRing u { r with
        waiting := r.waiting ++ [⟨s.gtime, 2, none, v, BitVec.ofNat 64 (sourceCode src)⟩] })) ∧
      (hasRing u = true → 8 ≤ r.waiting.length → exec (.mark src v) s = .next (s.setRing u { r with
        dropped := BitVec.ofNat 16 (min 0xFFFF (r.dropped.toNat + 1)), gap := true })))) ∧
  (∀ (s : State) (src : Source) (v : W32), Reaches s src 0x40010 →
    let u := if src = .debug then s.dbgRingSel.toNat else s.fld 0x40000 15 0
    exec (.freeze src v) s = .next (s.setRing u { s.ring u with
      freeze := v.getLsbD 0, autofrz := v.getLsbD 1, frozen := v.getLsbD 0 && (s.ring u).frozen })) ∧
  (∀ (s : State) (u : W16),
    let r := s.ring u.toNat
    (r.waiting = [] → exec (.ringEvent u) s = .next s) ∧
    (∀ e rest, r.waiting = e :: rest →
      (s.domState 85 ≠ 0 → exec (.ringEvent u) s = .next (s.setRing u.toNat { r with waiting := rest })) ∧
      (s.domState 85 = 0 → (r.freeze = true ∨ r.frozen = true) → exec (.ringEvent u) s = .next (s.setRing u.toNat { r with
        waiting := rest, dropped := BitVec.ofNat 16 (min 0xFFFF (r.dropped.toNat + 1)), gap := true })) ∧
      (s.domState 85 = 0 → r.freeze = false → r.frozen = false →
        let ctx := match e.ctx with | some c => 2 ^ 15 + c.toNat | none => 0
        exec (.ringEvent u) s = .next (s.setRing u.toNat { r with
          waiting := rest, count := r.count + 1, gap := false,
          frozen := r.autofrz && (decide (e.code = 0x0103) || decide (e.code = 0x0204)),
          recs := (⟨e.gtime, e.code, BitVec.ofNat 16 (ctx + if r.gap then 2 ^ 14 else 0), r.count.setWidth 32, e.arg0, e.arg1⟩ ::
            r.recs).take 256 })))) ∧
  (∀ (s : State) (src : Source) (n : Fin 16) (v : W64),
    let u := s.fld 0x40100 15 0
    let c := s.cnt u
    (src = .debug → exec (.counterWrite src n v) s = .next (s.reject src (0x58100 + 8 * n.val))) ∧
    (src ≠ .debug → Reaches s src (0x58100 + 8 * n.val) →
      exec (.counterWrite src n v) s = .next (s.setCnt u { c with count := c.count.set n v }))) ∧
  (∀ s : State, sOk (fun _ => ({} : Counters)) 0 s.counters = true → ∃ t, exec .telemetryShadowCopy s = .next t ∧
    t = { s with counters := t.counters, free := t.free } ∧
    ∀ u, (t.cnt u).shadow = (t.cnt u).count ∧ (t.cnt u).event = (s.cnt u).event ∧
      -- a counter of what the commands show has the count it had; of any other, the count has moved freely
      ∀ i : Fin 16, (s.cnt u).event[i] = 0 ∨ (s.cnt u).event[i].toNat ∈ eventsCounted → (t.cnt u).count[i] = (s.cnt u).count[i])
end

