-- ==== Sys2Proof/Laws/Sparse.lean ====
section
/-!
SUPPORT. What the sparse maps do: reading back a write, leaving other keys alone, and keeping the
canonical form.
-/
namespace Sys2Proof.Machine

theorem sGet_lt {α : Type} [DecidableEq α] (dflt : Nat → α) (d : α) :
    ∀ (m : List (Nat × α)) (lo a : Nat), sOk dflt lo m = true → a < lo → sGet d m a = d
  | [], _, _, _, _ => rfl
  | (k, v) :: r, lo, a, h, hlt => by
    simp only [sOk, Bool.and_eq_true, decide_eq_true_eq] at h
    simp [sGet, show a < k by omega]

theorem sGet_sInsert_same {α : Type} (d : α) :
    ∀ (m : List (Nat × α)) (a : Nat) (x : α), sGet d (sInsert m a x) a = x
  | [], a, x => by simp [sInsert, sGet]
  | (k, v) :: r, a, x => by
    unfold sInsert
    split
    · simp [sGet]
    · split
      · simp [sGet]
      · rename_i h1 h2
        simp [sGet, h1, h2, sGet_sInsert_same d r a x]

theorem sGet_sInsert_other {α : Type} [DecidableEq α] (dflt : Nat → α) (d : α) :
    ∀ (m : List (Nat × α)) (lo a b : Nat) (x : α), sOk dflt lo m = true → a ≠ b →
      sGet d (sInsert m a x) b = sGet d m b
  | [], _, a, b, x, _, hne => by
    simp only [sInsert, sGet]
    split <;> first | rfl | (split <;> first | (exfalso; omega) | rfl)
  | (k, v) :: r, lo, a, b, x, h, hne => by
    simp only [sOk, Bool.and_eq_true, decide_eq_true_eq] at h
    unfold sInsert
    split
    · rename_i hak
      by_cases hb : b < a
      · simp [sGet, hb, show b < k by omega]
      · simp [sGet, hb, show b ≠ a by omega]
    · split
      · rename_i hak hk
        subst hk
        by_cases hb : b < a
        · simp [sGet, hb]
        · simp [sGet, hb, show b ≠ a by omega]
      · have ih := sGet_sInsert_other dflt d r (k + 1) a b x h.2 hne
        simp [sGet, ih]

theorem sGet_sErase_same {α : Type} [DecidableEq α] (dflt : Nat → α) (d : α) :
    ∀ (m : List (Nat × α)) (lo a : Nat), sOk dflt lo m = true → sGet d (sErase m a) a = d
  | [], _, _, _ => rfl
  | (k, v) :: r, lo, a, h => by
    simp only [sOk, Bool.and_eq_true, decide_eq_true_eq] at h
    unfold sErase
    split
    · rename_i hak
      simp [sGet, hak]
    · split
      · rename_i hak hk
        subst hk
        exact sGet_lt dflt d r (a + 1) a h.2 (by omega)
      · rename_i h1 h2
        simp [sGet, h1, h2, sGet_sErase_same dflt d r (k + 1) a h.2]

theorem sGet_sErase_other {α : Type} [DecidableEq α] (dflt : Nat → α) (d : α) :
    ∀ (m : List (Nat × α)) (lo a b : Nat), sOk dflt lo m = true → a ≠ b →
      sGet d (sErase m a) b = sGet d m b
  | [], _, _, _, _, _ => rfl
  | (k, v) :: r, lo, a, b, h, hne => by
    simp only [sOk, Bool.and_eq_true, decide_eq_true_eq] at h
    unfold sErase
    split
    · rfl
    · split
      · rename_i hak hk
        subst hk
        by_cases hb : b < a
        · simp [sGet, hb]
          exact sGet_lt dflt d r (a + 1) b h.2 (by omega)
        · simp [sGet, hb, show b ≠ a by omega]
      · have ih := sGet_sErase_other dflt d r (k + 1) a b h.2 hne
        simp [sGet, ih]

/-- Reading back a write. -/
theorem sGet_sSet_same {α : Type} [DecidableEq α] (dflt : Nat → α) (m : List (Nat × α)) (lo a : Nat)
    (x : α) (h : sOk dflt lo m = true) : sGet (dflt a) (sSet (dflt a) m a x) a = x := by
  unfold sSet
  split
  · rename_i hx
    rw [hx]
    exact sGet_sErase_same dflt _ m lo a h
  · exact sGet_sInsert_same _ m a x

/-- A write leaves every other key alone. -/
theorem sGet_sSet_other {α : Type} [DecidableEq α] (dflt : Nat → α) (d d' : α) (m : List (Nat × α))
    (lo a b : Nat) (x : α) (h : sOk dflt lo m = true) (hne : a ≠ b) :
    sGet d (sSet d' m a x) b = sGet d m b := by
  unfold sSet
  split
  · exact sGet_sErase_other dflt d m lo a b h hne
  · exact sGet_sInsert_other dflt d m lo a b x h hne

theorem sOk_mono {α : Type} [DecidableEq α] (dflt : Nat → α) :
    ∀ (m : List (Nat × α)) (lo lo' : Nat), sOk dflt lo m = true → lo' ≤ lo → sOk dflt lo' m = true
  | [], _, _, _, _ => rfl
  | (k, v) :: r, lo, lo', h, hle => by
    simp only [sOk, Bool.and_eq_true, decide_eq_true_eq] at h ⊢
    exact ⟨⟨by omega, h.1.2⟩, h.2⟩

theorem sOk_sInsert {α : Type} [DecidableEq α] (dflt : Nat → α) :
    ∀ (m : List (Nat × α)) (lo a : Nat) (x : α), sOk dflt lo m = true → lo ≤ a → x ≠ dflt a →
      sOk dflt lo (sInsert m a x) = true
  | [], lo, a, x, _, hle, hx => by simp [sInsert, sOk, hle, hx]
  | (k, v) :: r, lo, a, x, h, hle, hx => by
    have h' := h
    simp only [sOk, Bool.and_eq_true, decide_eq_true_eq] at h
    unfold sInsert
    split
    · rename_i hak
      simp only [sOk, Bool.and_eq_true, decide_eq_true_eq]
      exact ⟨⟨hle, hx⟩, ⟨by omega, h.1.2⟩, h.2⟩
    · split
      · rename_i hak hk
        subst hk
        simp only [sOk, Bool.and_eq_true, decide_eq_true_eq]
        exact ⟨⟨hle, hx⟩, h.2⟩
      · simp only [sOk, Bool.and_eq_true, decide_eq_true_eq]
        exact ⟨h.1, sOk_sInsert dflt r (k + 1) a x h.2 (by omega) hx⟩

theorem sOk_sErase {α : Type} [DecidableEq α] (dflt : Nat → α) :
    ∀ (m : List (Nat × α)) (lo a : Nat), sOk dflt lo m = true → sOk dflt lo (sErase m a) = true
  | [], _, _, _ => rfl
  | (k, v) :: r, lo, a, h => by
    have h' := h
    simp only [sOk, Bool.and_eq_true, decide_eq_true_eq] at h
    unfold sErase
    split
    · exact h'
    · split
      · exact sOk_mono dflt r (k + 1) lo h.2 (by omega)
      · simp only [sOk, Bool.and_eq_true, decide_eq_true_eq]
        exact ⟨h.1, sOk_sErase dflt r (k + 1) a h.2⟩

/-- A write keeps the canonical form. -/
theorem sOk_sSet {α : Type} [DecidableEq α] (dflt : Nat → α) (m : List (Nat × α)) (a : Nat) (x : α)
    (h : sOk dflt 0 m = true) : sOk dflt 0 (sSet (dflt a) m a x) = true := by
  unfold sSet
  split
  · exact sOk_sErase dflt m 0 a h
  · rename_i hx
    exact sOk_sInsert dflt m 0 a x h (by omega) hx

end Sys2Proof.Machine
end

