-- ==== Sys2Proof/Laws/Memory.lean ====
section
/-!
SUPPORT. Memory keeps its canonical form: the base of what Laws/Mem*.lean say of each operation.
-/
namespace Sys2Proof.Machine

set_option Elab.async false

/-- Every state a body holds satisfies a predicate, which what happens after it keeps. -/
def Body.All (P : State → Prop) : Body → Prop
  | .retire t _ => P t
  | .ret t _ => P t
  | .trap t _ => P t
  | .stay t => P t
  | .andThen b post => b.All P ∧ ∀ t, P t → P (post t)

/-- The same of a stitcher operation. -/
def SOut.All (P : State → Prop) : SOut → Prop
  | .done t _ => P t
  | .fault t _ _ => P t
  | .stay t => P t

/-- The same of a mover action. -/
def Mv.All {α : Type} (P : State → Prop) : Mv α → Prop
  | .ok _ t => P t
  | .xf t _ _ _ => P t
  | .bad t _ _ => P t
  | .away t _ => P t

/-- The same of a stitcher load. -/
def SVal.All (P : State → Prop) : SVal → Prop
  | .val _ t => P t
  | .addr t => P t
  | .miss t => P t

/-- The same of a tile load's rows. -/
def Rows.All (P : State → Prop) : Rows → Prop
  | .done t => P t
  | .trap t _ => P t
  | .ended t => P t

/-- `P` holds of the state that the write of a record leaves. -/
def RecEnd.All (P : State → Prop) : RecEnd → Prop
  | .fin s | .wait s | .bad s _ => P s

/-- The same of a run of a mover operation. -/
def MvEnd.All (P : State → Prop) : MvEnd → Prop
  | .fin t _ => P t
  | .stall t _ _ _ _ => P t
  | .bad t _ _ _ => P t
  | .wait t _ => P t
  | .more t _ => P t

theorem foldl_mem {α : Type} (f : State → α → State) (l : List α) (s : State) (h : ∀ s x, (f s x).mem = s.mem) :
    (l.foldl f s).mem = s.mem := by
  induction l generalizing s with
  | nil => rfl
  | cons a l ih => simp [ih, h]

theorem foldl_canon {α : Type} (f : State → α → State) (l : List α) (s : State) (hs : Canon s.mem)
    (h : ∀ s x, Canon s.mem → Canon (f s x).mem) : Canon (l.foldl f s).mem := by
  induction l generalizing s with
  | nil => exact hs
  | cons a l ih => exact ih _ (h _ _ hs)

theorem foldl_canon_cells {α : Type} (f : List Host.Cell → α → List Host.Cell) (l : List α) (m : List Host.Cell)
    (hs : Canon m) (h : ∀ m x, Canon m → Canon (f m x)) : Canon (l.foldl f m) := by
  induction l generalizing m with
  | nil => exact hs
  | cons a l ih => exact ih _ (h _ _ hs)

theorem canon_sSet (m : List Host.Cell) (a : Nat) (b : Byte) (h : Canon m) : Canon (sSet unlistedByte m a b) :=
  sOk_sSet (fun _ => unlistedByte) m a b h

theorem sOk_filter {α : Type} [DecidableEq α] (dflt : Nat → α) (p : Nat × α → Bool) :
    ∀ (m : List (Nat × α)) (lo : Nat), sOk dflt lo m = true → sOk dflt lo (m.filter p) = true
  | [], _, _ => rfl
  | (k, v) :: r, lo, h => by
    simp only [sOk, Bool.and_eq_true, decide_eq_true_eq] at h
    by_cases hp : p (k, v) = true
    · simp only [List.filter_cons, hp, if_true, sOk, Bool.and_eq_true, decide_eq_true_eq]
      exact ⟨h.1, sOk_filter dflt p r (k + 1) h.2⟩
    · simp only [List.filter_cons, hp]
      exact sOk_mono dflt _ (k + 1) lo (sOk_filter dflt p r (k + 1) h.2) (by omega)

theorem canon_filter (m : List Host.Cell) (p : Host.Cell → Bool) (h : Canon m) : Canon (m.filter p) :=
  sOk_filter (fun _ => unlistedByte) p m 0 h

theorem foldl_mem_snd {α β : Type} (f : β × State → α → β × State) (l : List α) (s : β × State)
    (h : ∀ s x, (f s x).2.mem = s.2.mem) : (l.foldl f s).2.mem = s.2.mem := by
  induction l generalizing s with
  | nil => rfl
  | cons a l ih => simp [ih, h]

theorem foldl_canon_snd {α β : Type} (f : β × State → α → β × State) (l : List α) (s : β × State) (hs : Canon s.2.mem)
    (h : ∀ s x, Canon s.2.mem → Canon (f s x).2.mem) : Canon (l.foldl f s).2.mem := by
  induction l generalizing s with
  | nil => exact hs
  | cons a l ih => exact ih _ (h _ _ hs)

theorem foldl_mem_fst {α β : Type} (f : State × β → α → State × β) (l : List α) (s : State × β)
    (h : ∀ s x, (f s x).1.mem = s.1.mem) : (l.foldl f s).1.mem = s.1.mem := by
  induction l generalizing s with
  | nil => rfl
  | cons a l ih => simp [ih, h]

theorem foldl_canon_fst {α β : Type} (f : State × β → α → State × β) (l : List α) (s : State × β) (hs : Canon s.1.mem)
    (h : ∀ s x, Canon s.1.mem → Canon (f s x).1.mem) : Canon (l.foldl f s).1.mem := by
  induction l generalizing s with
  | nil => exact hs
  | cons a l ih => exact ih _ (h _ _ hs)

end Sys2Proof.Machine
end

