-- ==== Sys2Proof/Laws/MemOps.lean ====
section
/-!
SUPPORT. What an operation over the state leaves of memory: all of it, or its canonical form.
-/
namespace Sys2Proof.Machine

set_option Elab.async false

theorem setReg_mem (s : State) (off) (x) :
    (s.setReg off x).mem = s.mem := by
  unfold State.setReg
  grind

theorem setFld_mem (s : State) (off) (hi) (lo) (x) :
    (s.setFld off hi lo x).mem = s.mem := by
  unfold State.setFld
  grind [setReg_mem]

theorem applyWrite_mem (s : State) (off) (v) :
    (s.applyWrite off v).mem = s.mem := by
  unfold State.applyWrite
  grind [setReg_mem]

theorem setQ_mem (s : State) (i) (c) :
    (s.setQ i c).mem = s.mem := by
  unfold State.setQ
  grind

theorem modQ_mem (s : State) (i) (f) :
    (s.modQ i f).mem = s.mem := by
  unfold State.modQ
  grind [setQ_mem]

theorem fresh_mem (s : State) :
    (s.fresh).2.mem = s.mem := by
  unfold State.fresh
  grind

theorem putWay_mem {α : Type} (s : State) (n : Nat) (inSet : α → Bool) (x : α) (l : List α) :
    (s.putWay n inSet x l).2.mem = s.mem := by
  unfold State.putWay
  grind [fresh_mem]

theorem cachedUse_mem {α : Type} (s : State) (old : Option α) (agrees : α → Bool) :
    (s.cachedUse old agrees).2.mem = s.mem := by
  unfold State.cachedUse
  grind [fresh_mem]

theorem setRing_mem (s : State) (u) (r) :
    (s.setRing u r).mem = s.mem := by
  unfold State.setRing
  grind

theorem emit_mem (s : State) (u) (code) (ctx) (a0) (a1) :
    (s.emit u code ctx a0 a1).mem = s.mem := by
  unfold State.emit
  grind [setRing_mem]

theorem setCnt_mem (s : State) (u) (c) :
    (s.setCnt u c).mem = s.mem := by
  unfold State.setCnt
  grind

theorem countEvent_mem (s : State) (u) (event) (n) :
    (s.countEvent u event n).mem = s.mem := by
  unfold State.countEvent
  grind [setCnt_mem]

theorem settleCount_mem (s : State) (u) (i) :
    (s.settleCount u i).mem = s.mem := by
  unfold State.settleCount
  grind [fresh_mem, setCnt_mem]

theorem settleCounts_mem (s : State) (u) :
    (s.settleCounts u).mem = s.mem := by
  unfold State.settleCounts
  grind [settleCount_mem, foldl_mem, foldl_canon, foldl_mem_snd, foldl_canon_snd, foldl_mem_fst, foldl_canon_fst, Option.getD, canon_sSet, SOut.All, Body.All, SVal.All, Mv.All, MvEnd.All, Rows.All]

theorem setByte_canon (s : State) (a : Nat) (b : Byte) (hs : Canon s.mem) : Canon (s.setByte a b).mem :=
  canon_sSet s.mem a b hs

theorem writeList_canon (s : State) (x1) (x2) (hs : Canon s.mem) :
    Canon (s.writeList x1 x2).mem := by
  fun_induction (s.writeList x1 x2) <;> grind [setByte_canon]

theorem setPoison_mem (s : State) (a) (entry) :
    (s.setPoison a entry).mem = s.mem := by
  unfold State.setPoison
  grind

theorem clearPoison_mem (s : State) (a) :
    (s.clearPoison a).mem = s.mem := by
  unfold State.clearPoison
  grind

theorem clearCovered_mem (s : State) (a) (n) :
    (s.clearCovered a n).mem = s.mem := by
  unfold State.clearCovered
  grind

theorem writeN_canon (s : State) (a) (n) (v) (hs : Canon s.mem) :
    Canon (s.writeN a n v).mem := by
  unfold State.writeN
  grind [writeList_canon, clearCovered_mem]

theorem dirWrite_mem (s : State) (line) (but_) :
    (s.dirWrite line but_).mem = s.mem := by
  unfold State.dirWrite
  grind

theorem dirRead_mem (s : State) (line) (but_) :
    (s.dirRead line but_).mem = s.mem := by
  unfold State.dirRead
  grind

theorem dirSpan_mem (s : State) (a) (n) (write) :
    (s.dirSpan a n write).mem = s.mem := by
  unfold State.dirSpan
  grind

theorem dmaWrite_canon (s : State) (a) (bs) (hs : Canon s.mem) :
    Canon (s.dmaWrite a bs).mem := by
  unfold State.dmaWrite
  grind [writeList_canon, clearCovered_mem, dirSpan_mem]

theorem dmaRead_mem (s : State) (a) (n) :
    (s.dmaRead a n).2.mem = s.mem := by
  unfold State.dmaRead
  grind [dirSpan_mem]

theorem setUnitState_mem (s : State) (r) (n) (v) :
    (s.setUnitState r n v).mem = s.mem := by
  unfold State.setUnitState
  grind [setFld_mem, emit_mem]

theorem pausePass_mem (s : State) (d) :
    (s.pausePass d).mem = s.mem := by
  unfold State.pausePass
  grind

theorem wakeDomain_mem (s : State) (d) :
    (s.wakeDomain d).mem = s.mem := by
  unfold State.wakeDomain
  grind [pausePass_mem, setUnitState_mem, setFld_mem, foldl_mem, foldl_canon, foldl_mem_snd, foldl_canon_snd, foldl_mem_fst, foldl_canon_fst, Option.getD, canon_sSet, SOut.All, Body.All, SVal.All, Mv.All, MvEnd.All, Rows.All]

theorem wakeFor_mem (s : State) (a) :
    (s.wakeFor a).mem = s.mem := by
  unfold State.wakeFor
  grind [wakeDomain_mem]

theorem raiseIrq_mem (s : State) (i) (n) :
    (s.raiseIrq i n).mem = s.mem := by
  unfold State.raiseIrq
  grind [modQ_mem]

theorem raiseIrqN_mem (s : State) (pq) (n) :
    (s.raiseIrqN pq n).mem = s.mem := by
  unfold State.raiseIrqN
  grind [raiseIrq_mem]

theorem loseIf_canon (s : State) (inside : Nat → Bool) (hs : Canon s.mem) : Canon (s.loseIf inside).mem := by
  unfold State.loseIf
  refine foldl_canon_cells _ _ _ (canon_filter _ _ hs) (fun m x h => ?_)
  split
  · exact canon_sSet _ _ _ h
  · exact h

theorem loseRange_canon (s : State) (lo) (hi) (hs : Canon s.mem) :
    Canon (s.loseRange lo hi).mem := by
  unfold State.loseRange
  grind [loseIf_canon]

theorem notifyQuire_mem (s : State) (sev) :
    (s.notifyQuire sev).mem = s.mem := by
  unfold State.notifyQuire
  grind [raiseIrqN_mem]

theorem logRec_mem (s : State) (sev) (unit) (type) (flags) (addr) (synd) (ctx) :
    (s.logRec sev unit type flags addr synd ctx).2.mem = s.mem := by
  unfold State.logRec
  grind [setFld_mem, notifyQuire_mem, raiseIrq_mem, modQ_mem]

theorem hostSend_mem (s : State) (x) :
    (s.hostSend x).mem = s.mem := by
  unfold State.hostSend
  grind

theorem hostTag_mem (s : State) (t) (u : State) (h : s.hostTag = some (t, u)) : u.mem = s.mem := by
  
  unfold State.hostTag at h
  dsimp only at h
  split at h
  · cases h; exact fresh_mem s
  · obtain ⟨_, _, he⟩ := Option.map_eq_some_iff.mp h
    cases he; exact fresh_mem s

theorem hostRead_mem (s : State) (ctx) (a) (n) : (s.hostRead ctx a n).mem = s.mem := by
  unfold State.hostRead
  split
  · rfl
  · refine foldl_mem _ _ _ (fun s x => ?_)
    grind [→ hostTag_mem, hostSend_mem]

theorem hostWrite_mem (s : State) (ctx) (a) (bs) :
    (s.hostWrite ctx a bs).mem = s.mem := by
  unfold State.hostWrite
  grind [hostSend_mem, foldl_mem, foldl_canon, foldl_mem_snd, foldl_canon_snd, foldl_mem_fst, foldl_canon_fst, Option.getD, canon_sSet, SOut.All, Body.All, SVal.All, Mv.All, MvEnd.All, Rows.All]

theorem sendEntry_mem (s : State) (ctx) (e) :
    (s.sendEntry ctx e).mem = s.mem := by
  unfold State.sendEntry
  grind [hostSend_mem]

theorem msiRecord_mem (s : State) (ctx) (vec) :
    (s.msiRecord ctx vec).mem = s.mem := by
  unfold State.msiRecord
  grind [logRec_mem]

theorem tryMsi_mem (s : State) (ctx) (vec) :
    (s.tryMsi ctx vec).2.mem = s.mem := by
  unfold State.tryMsi
  grind [sendEntry_mem, dmaRead_mem, msiRecord_mem]

theorem sendMsi_mem (s : State) (ctx) (vec) :
    (s.sendMsi ctx vec).mem = s.mem := by
  unfold State.sendMsi
  grind [tryMsi_mem]

theorem logBank_mem (s : State) (sev) (unit) (type) (flags) (addr) (synd) (ctx) :
    (s.logBank sev unit type flags addr synd ctx).2.mem = s.mem := by
  unfold State.logBank
  grind [logRec_mem, sendMsi_mem]

theorem logErr_mem (s : State) (unit) (type) (flags) (addr) (synd) (ctx) :
    (s.logErr unit type flags addr synd ctx).2.mem = s.mem := by
  unfold State.logErr
  grind [logBank_mem]

theorem writeEvent_canon (s : State) (code) (ctx) (detail) (hs : Canon s.mem) :
    Canon (s.writeEvent code ctx detail).mem := by
  unfold State.writeEvent
  grind [dmaWrite_canon, hostWrite_mem, setFld_mem, sendMsi_mem]

theorem deviceEvent_canon (s : State) (code) (ctx) (detail) (hs : Canon s.mem) :
    Canon (s.deviceEvent code ctx detail).mem := by
  unfold State.deviceEvent
  grind [writeEvent_canon, setFld_mem]

theorem loseWrite_canon (s : State) (line) (hs : Canon s.mem) :
    Canon (s.loseWrite line).mem := by
  unfold State.loseWrite
  grind [logErr_mem, loseRange_canon]

theorem reject_mem (s : State) (src) (off) :
    (s.reject src off).mem = s.mem := by
  unfold State.reject
  grind [setFld_mem, setReg_mem]

theorem gate_mem (s : State) (src) (off) (f : State → State) (h_f : ∀ u, (f u).mem = u.mem) :
    (s.gate src off f).mem = s.mem := by
  unfold State.gate
  grind [reject_mem]

theorem gate_canon (s : State) (src) (off) (f : State → State) (hs : Canon s.mem) (h_f : ∀ u, Canon u.mem → Canon (f u).mem) :
    Canon (s.gate src off f).mem := by
  unfold State.gate
  grind [reject_mem, gate_mem]

theorem inOrder_mem (s : State) (src) (c) (f : State → Res State) (h_f : ∀ u, ∀ v, (f u) = .next v → v.mem = u.mem) (t : State) (ht : (s.inOrder src c f) = .next t) :
    t.mem = s.mem := by
  unfold State.inOrder at ht
  grind

theorem inOrder_canon (s : State) (src) (c) (f : State → Res State) (hs : Canon s.mem) (h_f : ∀ u, Canon u.mem → ∀ v, (f u) = .next v → Canon v.mem) (t : State) (ht : (s.inOrder src c f) = .next t) :
    Canon t.mem := by
  unfold State.inOrder at ht
  grind [→ inOrder_mem]

theorem quireGate_mem (s : State) (i) (src) (off) (f : State → State) (h_f : ∀ u, (f u).mem = u.mem) :
    (s.quireGate i src off f).mem = s.mem := by
  unfold State.quireGate
  grind [gate_mem, gate_canon]

theorem quireGate_canon (s : State) (i) (src) (off) (f : State → State) (hs : Canon s.mem)
    (h_f : ∀ u, Canon u.mem → Canon (f u).mem) : Canon (s.quireGate i src off f).mem := by
  unfold State.quireGate
  exact gate_canon _ _ _ _ hs (fun u hu => by split <;> grind)

end Sys2Proof.Machine
end

