-- ==== Sys2Proof/Laws/MemXlate.lean ====
section
/-!
SUPPORT. What a translation leaves of memory: all of it, or its canonical form.
-/
namespace Sys2Proof.Machine

set_option Elab.async false

theorem ctxRead_mem (s : State) (c) :
    (s.ctxRead c).2.mem = s.mem := by
  unfold State.ctxRead
  grind [logErr_mem, dirSpan_mem]

theorem ctxEntry_mem (s : State) (c) :
    (s.ctxEntry c).2.mem = s.mem := by
  unfold State.ctxEntry
  grind [cachedUse_mem, ctxRead_mem]

theorem walk_mem (s : State) (off) (ps) (x3) (x4) (x5) :
    (s.walk off ps x3 x4 x5).2.mem = s.mem := by
  fun_induction (s.walk off ps x3 x4 x5) <;> grind [dirSpan_mem]

theorem walkSeg_mem (s : State) (d) (off) :
    (s.walkSeg d off).2.mem = s.mem := by
  unfold State.walkSeg
  grind [walk_mem]

theorem tlbPut_mem (s : State) (x) (seg) (page) (e) :
    (s.tlbPut x seg page e).mem = s.mem := by
  unfold State.tlbPut
  grind [putWay_mem, modQ_mem]

theorem xlatPut_mem (s : State) (x) (seg) (page) (e) :
    (s.xlatPut x seg page e).mem = s.mem := by
  unfold State.xlatPut
  grind [putWay_mem]

theorem leaf_mem (s : State) (x) (seg) (d) (off) :
    (s.leaf x seg d off).2.mem = s.mem := by
  unfold State.leaf
  grind [walkSeg_mem, cachedUse_mem, tlbPut_mem, xlatPut_mem]

theorem physCheck_mem (s : State) (x) (k) (ro) (nx) (pa) :
    (s.physCheck x k ro nx pa).2.mem = s.mem := by
  unfold State.physCheck
  grind [ctxEntry_mem, wakeFor_mem]

theorem readDesc_mem (s : State) (a) :
    (s.readDesc a).2.mem = s.mem := by
  unfold State.readDesc
  grind [dirSpan_mem]

theorem xlateDesc_mem (s : State) (x) (k) (seg) (d) (off) :
    (s.xlateDesc x k seg d off).2.mem = s.mem := by
  unfold State.xlateDesc
  grind [leaf_mem, physCheck_mem]

theorem xlateWith_mem (s : State) (x) (k) (va) (desc : State → Nat → Except Nat (BitVec 256) × State) (h_desc : ∀ u y1, (desc u y1).2.mem = u.mem) :
    (s.xlateWith x k va desc).2.mem = s.mem := by
  unfold State.xlateWith
  grind [physCheck_mem, xlateDesc_mem]

theorem xlateWith_canon (s : State) (x) (k) (va) (desc : State → Nat → Except Nat (BitVec 256) × State) (hs : Canon s.mem) (h_desc : ∀ u y1, Canon u.mem → Canon (desc u y1).2.mem) :
    Canon (s.xlateWith x k va desc).2.mem := by
  unfold State.xlateWith
  grind [physCheck_mem, xlateDesc_mem, xlateWith_mem]

theorem chooseDeferred_mem (s : State) (i) :
    (s.chooseDeferred i).mem = s.mem := by
  unfold State.chooseDeferred
  grind [fresh_mem, modQ_mem, foldl_mem, foldl_canon, foldl_mem_snd, foldl_canon_snd, foldl_mem_fst, foldl_canon_fst, Option.getD, canon_sSet, SOut.All, Body.All, SVal.All, Mv.All, MvEnd.All, Rows.All]

theorem quireDesc_mem (i) (x) (s : State) (seg) :
    (s.quireDesc i x seg).2.mem = s.mem := by
  unfold State.quireDesc
  grind [cachedUse_mem, readDesc_mem, modQ_mem]

theorem xlateQ_mem (s : State) (i) (pl) (k) (va) :
    (s.xlateQ i pl k va).2.mem = s.mem := by
  unfold State.xlateQ
  grind [xlateWith_mem, xlateWith_canon, quireDesc_mem]

theorem xlateSpan_mem (s : State) (i) (pl) (k) (x4) (x5) :
    (s.xlateSpan i pl k x4 x5).2.mem = s.mem := by
  fun_induction (s.xlateSpan i pl k x4 x5) <;> grind [xlateQ_mem]

theorem xlateBytes_mem (s : State) (i) (pl) (k) (va) (n) :
    (s.xlateBytes i pl k va n).2.mem = s.mem := by
  unfold State.xlateBytes
  grind [xlateSpan_mem]

theorem streamXlator_mem (s : State) (c) (pl0) :
    (s.streamXlator c pl0).2.mem = s.mem := by
  unfold State.streamXlator
  grind [ctxEntry_mem]

theorem xlateStream_mem (s : State) (c) (pl0) (k) (va) :
    (s.xlateStream c pl0 k va).2.mem = s.mem := by
  unfold State.xlateStream
  grind [streamXlator_mem, xlateWith_mem, xlateWith_canon, readDesc_mem]

theorem xlateStreamBytes_mem (s : State) (c) (pl0) (k) (x4) (x5) :
    (s.xlateStreamBytes c pl0 k x4 x5).2.mem = s.mem := by
  fun_induction (s.xlateStreamBytes c pl0 k x4 x5) <;> grind [xlateStream_mem]

end Sys2Proof.Machine
end

