-- ==== Sys2Proof/Laws/MemCompletion.lean ====
section
/-!
SUPPORT. What a completion leaves of memory: all of it, or its canonical form.
-/
namespace Sys2Proof.Machine

set_option Elab.async false

theorem setQueue_mem (s : State) (n) (x) :
    (s.setQueue n x).mem = s.mem := by
  unfold State.setQueue
  grind

theorem writeCompletion_canon (s : State) (n) (cid) (status) (kind) (snap) (detail) (quiet) (hs : Canon s.mem) :
    Canon (s.writeCompletion n cid status kind snap detail quiet).mem := by
  unfold State.writeCompletion
  grind [dmaWrite_canon, hostWrite_mem, setQueue_mem, sendMsi_mem]

theorem latchUnits_mem (s : State) (us) :
    (s.latchUnits us).2.mem = s.mem := by
  unfold State.latchUnits
  grind [settleCounts_mem, foldl_mem, foldl_canon, foldl_mem_snd, foldl_canon_snd, foldl_mem_fst, foldl_canon_fst, Option.getD, canon_sSet, SOut.All, Body.All, SVal.All, Mv.All, MvEnd.All, Rows.All]

theorem writeSnapshot_canon (s : State) (n) (cid) (opc) (slot) (start) (done) (hs : Canon s.mem) :
    Canon (s.writeSnapshot n cid opc slot start done).mem := by
  unfold State.writeSnapshot
  grind [settleCounts_mem, dmaWrite_canon, hostWrite_mem, foldl_mem, foldl_canon, foldl_mem_snd, foldl_canon_snd, foldl_mem_fst, foldl_canon_fst, Option.getD, canon_sSet, SOut.All, Body.All, SVal.All, Mv.All, MvEnd.All, Rows.All]

theorem completeCmd_canon (s : State) (n) (c) (status) (detail) (hs : Canon s.mem) :
    Canon (s.completeCmd n c status detail).mem := by
  unfold State.completeCmd
  grind [writeSnapshot_canon, writeCompletion_canon, setQueue_mem]

theorem setStream_mem (s : State) (id) (x) :
    (s.setStream id x).mem = s.mem := by
  unfold State.setStream
  grind

theorem setFrame_mem (s : State) (f) (x) :
    (s.setFrame f x).mem = s.mem := by
  unfold State.setFrame
  grind

theorem setEng_mem (s : State) (e) (x) :
    (s.setEng e x).mem = s.mem := by
  unfold State.setEng
  grind

theorem freeBank_mem (s : State) (e) (b) :
    (s.freeBank e b).mem = s.mem := by
  unfold State.freeBank
  grind [setEng_mem]

theorem endStream_mem (s : State) (id) (status) (detail) :
    (s.endStream id status detail).mem = s.mem := by
  unfold State.endStream
  grind [freeBank_mem, emit_mem, countEvent_mem, setFrame_mem, setStream_mem]

theorem killStream_mem (s : State) (id) :
    (s.killStream id).mem = s.mem := by
  unfold State.killStream
  grind [freeBank_mem, setFrame_mem, setStream_mem]

theorem discardQuires_canon (s : State) (c) (keep) (hs : Canon s.mem) :
    Canon (s.discardQuires c keep).mem := by
  unfold State.discardQuires
  grind

theorem fatalQueue_canon (s : State) (c) (ref) (hs : Canon s.mem) :
    Canon (s.fatalQueue c ref).mem := by
  unfold State.fatalQueue
  grind [setQueue_mem, writeCompletion_canon]

theorem contextFatal_canon (s : State) (c) (cause) (unit) (keep) (hs : Canon s.mem) :
    Canon (s.contextFatal c cause unit keep).mem := by
  unfold State.contextFatal
  grind [logErr_mem, discardQuires_canon, killStream_mem, fatalQueue_canon, foldl_mem, foldl_canon, foldl_mem_snd, foldl_canon_snd, foldl_mem_fst, foldl_canon_fst, Option.getD, canon_sSet, SOut.All, Body.All, SVal.All, Mv.All, MvEnd.All, Rows.All]

end Sys2Proof.Machine
end

