-- ==== Sys2Proof/Laws/MemRouter.lean ====
section
/-!
SUPPORT. What the router leaves of memory: all of it, or its canonical form.
-/
namespace Sys2Proof.Machine

set_option Elab.async false

theorem setPort_mem (s : State) (p) (x) :
    (s.setPort p x).mem = s.mem := by
  unfold State.setPort
  grind

theorem modPort_mem (s : State) (p) (f) :
    (s.modPort p f).mem = s.mem := by
  unfold State.modPort
  grind [setPort_mem]

theorem errCount_mem (s : State) (p) (lo) :
    (s.errCount p lo).mem = s.mem := by
  unfold State.errCount
  grind [setFld_mem]

theorem refused_mem (s : State) (p) (k) :
    (s.refused p k).mem = s.mem := by
  unfold State.refused
  grind [errCount_mem, countEvent_mem, emit_mem]

theorem mark_mem (s : State) (p) (code) (n) (resend) (gen) :
    (s.mark p code n resend gen).mem = s.mem := by
  unfold State.mark
  grind [emit_mem]

theorem emitFlit_mem (s : State) (p) (v) (first) (slots) (pkt) (old) (t : State) (ht : (s.emitFlit p v first slots pkt old) = some t) :
    t.mem = s.mem := by
  unfold State.emitFlit at ht
  grind [setPort_mem, countEvent_mem, mark_mem]

theorem emitPacket_mem (s : State) (p) (e) (t : State) (ht : (s.emitPacket p e) = some t) :
    t.mem = s.mem := by
  unfold State.emitPacket at ht
  grind [→ emitFlit_mem]

theorem pumpList_mem (s : State) (p) (x2) (x3) :
    (s.pumpList p x2 x3).mem = s.mem := by
  fun_induction (s.pumpList p x2 x3) <;> grind [modPort_mem, → emitPacket_mem]

theorem pump_mem (s : State) (p) :
    (s.pump p).mem = s.mem := by
  unfold State.pump
  grind [modPort_mem, pumpList_mem]

theorem enqueue_mem (s : State) (k) (c) :
    (s.enqueue k c).mem = s.mem := by
  unfold State.enqueue
  grind [modPort_mem, pump_mem]

theorem routeOut_mem (s : State) (k) (t : State) (ht : (s.routeOut k) = .ok t) :
    t.mem = s.mem := by
  unfold State.routeOut at ht
  grind [enqueue_mem, countEvent_mem]

theorem forward_mem (s : State) (k) (t : State) (ht : (s.forward k) = .ok t) :
    t.mem = s.mem := by
  unfold State.forward at ht
  grind [→ routeOut_mem]

theorem send_mem (s : State) (k) :
    (s.send k).mem = s.mem := by
  unfold State.send
  grind [emit_mem, → forward_mem]

theorem request_mem (s : State) (who) (key) (ptype) (ord) (pa) (data) (t) (ht : s.request who key ptype ord pa data = some t) :
    t.2.mem = s.mem := by
  unfold State.request at ht
  obtain ⟨x, _, rfl⟩ := Option.map_eq_some_iff.mp ht
  simp only [send_mem]

end Sys2Proof.Machine
end

