-- ==== Sys2Proof/Laws/MemAccess.lean ====
section
/-!
SUPPORT. What an access leaves of memory: all of it, or its canonical form.
-/
namespace Sys2Proof.Machine

set_option Elab.async false

theorem victimPut_mem (s : State) (i) (e) :
    (s.victimPut i e).mem = s.mem := by
  unfold State.victimPut
  grind [putWay_mem, modQ_mem]

theorem l1dPut_mem (s : State) (i) (line) (x) :
    (s.l1dPut i line x).mem = s.mem := by
  unfold State.l1dPut
  grind [putWay_mem, modQ_mem, victimPut_mem]

theorem l1dLoad_mem (s : State) (i) (line) :
    (s.l1dLoad i line).2.mem = s.mem := by
  unfold State.l1dLoad
  grind [l1dPut_mem, cachedUse_mem]

theorem ackWriteback_canon (s : State) (i) (line) (hs : Canon s.mem) :
    Canon (s.ackWriteback i line).mem := by
  unfold State.ackWriteback
  grind [loseWrite_canon, modQ_mem]

theorem l2Room_mem (s : State) (i) (line) :
    (s.l2Room i line).2.mem = s.mem := by
  unfold State.l2Room
  grind [fresh_mem, setQ_mem]

theorem l2Touch_canon (s : State) (i) (line) (write) (hs : Canon s.mem) :
    Canon (s.l2Touch i line write).mem := by
  unfold State.l2Touch
  grind [dirWrite_mem, dirRead_mem, setQ_mem, ackWriteback_canon, l2Room_mem, modQ_mem]

theorem l1dTouch_canon (s : State) (i) (line) (hs : Canon s.mem) :
    Canon (s.l1dTouch i line).mem := by
  unfold State.l1dTouch
  grind [l2Touch_canon, l1dPut_mem]

theorem loadByte_canon (s : State) (i) (a) (hs : Canon s.mem) :
    Canon (s.loadByte i a).2.mem := by
  unfold State.loadByte
  grind [l1dLoad_mem, l1dTouch_canon]

theorem loadBytes_canon (s : State) (i) (x2) (hs : Canon s.mem) :
    Canon (s.loadBytes i x2).2.mem := by
  fun_induction (s.loadBytes i x2) <;> grind [loadByte_canon]

theorem storeByte_canon (s : State) (i) (a) (b) (hs : Canon s.mem) :
    Canon (s.storeByte i a b).mem := by
  unfold State.storeByte
  grind [setByte_canon, setQ_mem, l2Touch_canon, modQ_mem]

theorem loadByteWide_canon (s : State) (i) (pa) (hs : Canon s.mem) :
    Canon (s.loadByteWide i pa).2.mem := by
  unfold State.loadByteWide
  grind [fresh_mem, l2Touch_canon]

theorem loadWide_canon (s : State) (i) (x2) (hs : Canon s.mem) :
    Canon (s.loadWide i x2).2.mem := by
  fun_induction (s.loadWide i x2) <;> grind [loadByteWide_canon]

theorem storeByteWide_canon (s : State) (i) (a) (b) (hs : Canon s.mem) :
    Canon (s.storeByteWide i a b).mem := by
  unfold State.storeByteWide
  grind [setByte_canon, setQ_mem, l2Touch_canon, modQ_mem]

theorem storeRun_canon (s : State) (i) (wide) (x3) (x4) (x5) (hs : Canon s.mem) :
    Canon (s.storeRun i wide x3 x4 x5).mem := by
  fun_induction (s.storeRun i wide x3 x4 x5) <;> grind [storeByteWide_canon, storeByte_canon]

theorem storeTo_canon (s : State) (i) (wide) (va) (pas) (v) (hs : Canon s.mem) :
    Canon (s.storeTo i wide va pas v).mem := by
  unfold State.storeTo
  grind [modQ_mem, storeRun_canon, clearCovered_mem, foldl_mem, foldl_canon, foldl_mem_snd, foldl_canon_snd, foldl_mem_fst, foldl_canon_fst, Option.getD, canon_sSet, SOut.All, Body.All, SVal.All, Mv.All, MvEnd.All, Rows.All]

theorem hostReads_mem (s : State) (ctx) (pas) :
    (s.hostReads ctx pas).mem = s.mem := by
  unfold State.hostReads
  grind [hostRead_mem, foldl_mem, foldl_canon, foldl_mem_snd, foldl_canon_snd, foldl_mem_fst, foldl_canon_fst, Option.getD, canon_sSet, SOut.All, Body.All, SVal.All, Mv.All, MvEnd.All, Rows.All]

theorem awayFault_mem (s : State) (remote) (a) (ctx) :
    (s.awayFault remote a ctx).2.mem = s.mem := by
  unfold State.awayFault
  grind [fresh_mem, logErr_mem]

theorem awayEnds_mem (s : State) (i) (pas) :
    (s.awayEnds i pas).2.mem = s.mem := by
  unfold State.awayEnds
  grind [hostReads_mem, awayFault_mem]

theorem dmaWriteAt_canon (s : State) (pas) (bs) (hs : Canon s.mem) :
    Canon (s.dmaWriteAt pas bs).mem := by
  unfold State.dmaWriteAt
  grind [dmaWrite_canon, foldl_mem, foldl_canon, foldl_mem_snd, foldl_canon_snd, foldl_mem_fst, foldl_canon_fst, Option.getD, canon_sSet, SOut.All, Body.All, SVal.All, Mv.All, MvEnd.All, Rows.All]

theorem sendStore_mem (s : State) (i) (e) :
    (s.sendStore i e).mem = s.mem := by
  unfold State.sendStore
  grind [→ request_mem, ctxEntry_mem, modQ_mem]

theorem drainStores_canon (s : State) (i) (hs : Canon s.mem) :
    Canon (s.drainStores i).mem := by
  unfold State.drainStores
  grind [modQ_mem, sendStore_mem, writeN_canon, hostWrite_mem, foldl_mem, foldl_canon, foldl_mem_snd, foldl_canon_snd, foldl_mem_fst, foldl_canon_fst, Option.getD, canon_sSet, SOut.All, Body.All, SVal.All, Mv.All, MvEnd.All, Rows.All]

theorem execAtomic_canon (s : State) (a) (n) (op) (b) (cmp) (hs : Canon s.mem) :
    Canon (s.execAtomic a n op b cmp).2.mem := by
  unfold State.execAtomic
  grind [dirWrite_mem, writeList_canon]

theorem runAtomic_canon (s : State) (e) (hs : Canon s.mem) :
    Canon (s.runAtomic e).mem := by
  unfold State.runAtomic
  grind [execAtomic_canon]

theorem farExecute_canon (s : State) (unit) (hs : Canon s.mem) :
    Canon (s.farExecute unit).mem := by
  unfold State.farExecute
  grind [runAtomic_canon]

theorem runAtomicsTo_canon (s : State) (p) (hs : Canon s.mem) :
    Canon (s.runAtomicsTo p).mem := by
  unfold State.runAtomicsTo
  grind [runAtomic_canon, foldl_mem, foldl_canon, foldl_mem_snd, foldl_canon_snd, foldl_mem_fst, foldl_canon_fst, Option.getD, canon_sSet, SOut.All, Body.All, SVal.All, Mv.All, MvEnd.All, Rows.All]

theorem drainAtomics_canon (s : State) (i) (hs : Canon s.mem) :
    Canon (s.drainAtomics i).mem := by
  unfold State.drainAtomics
  grind [runAtomicsTo_canon]

theorem drain_canon (s : State) (i) (hs : Canon s.mem) :
    Canon (s.drain i).mem := by
  unfold State.drain
  grind [drainAtomics_canon, drainStores_canon]

end Sys2Proof.Machine
end

