-- ==== Sys2Proof/Laws/MemDebug.lean ====
section
/-!
SUPPORT. What a debug command leaves of memory: all of it, or its canonical form.
-/
namespace Sys2Proof.Machine

set_option Elab.async false

theorem record_mem (s : State) (u) (code) (a0) (a1) :
    (s.record u code a0 a1).mem = s.mem := by
  unfold State.record
  grind [setRing_mem]

theorem execRingEvent_mem (u) (s : State) (t : State) (ht : (execRingEvent u s) = .next t) :
    t.mem = s.mem := by
  unfold execRingEvent at ht
  grind [setRing_mem]

theorem ringStart_mem (s : State) (keep) :
    (s.ringStart keep).mem = s.mem := by
  unfold State.ringStart
  grind [fresh_mem]

theorem execMark_mem (src) (v) (s : State) (t : State) (ht : (execMark src v s) = .next t) :
    t.mem = s.mem := by
  unfold execMark at ht
  grind [→ inOrder_mem, → inOrder_canon, reject_mem, gate_mem, gate_canon, emit_mem]

theorem ringCtl_mem (s : State) (debug) (v) :
    (s.ringCtl debug v).mem = s.mem := by
  unfold State.ringCtl
  grind [setRing_mem]

theorem execFreeze_mem (src) (v) (s : State) (t : State) (ht : (execFreeze src v s) = .next t) :
    t.mem = s.mem := by
  unfold execFreeze at ht
  grind [→ inOrder_mem, → inOrder_canon, gate_mem, gate_canon, ringCtl_mem]

theorem countWrite_mem (s : State) (debug) (n) (v) :
    (s.countWrite debug n v).mem = s.mem := by
  unfold State.countWrite
  grind [setCnt_mem]

theorem execCounterWrite_mem (src) (n) (v) (s : State) (t : State) (ht : (execCounterWrite src n v s) = .next t) :
    t.mem = s.mem := by
  unfold execCounterWrite at ht
  grind [→ inOrder_mem, → inOrder_canon, reject_mem, gate_mem, gate_canon, countWrite_mem]

theorem countCfg_mem (s : State) (src) (n) (v) :
    (s.countCfg src n v).mem = s.mem := by
  unfold State.countCfg
  grind [setCnt_mem, reject_mem]

theorem execTelemetryShadowCopy_mem (s : State) (t : State) (ht : (execTelemetryShadowCopy s) = .next t) :
    t.mem = s.mem := by
  unfold execTelemetryShadowCopy at ht
  grind [settleCounts_mem, foldl_mem, foldl_canon, foldl_mem_snd, foldl_canon_snd, foldl_mem_fst, foldl_canon_fst, Option.getD, canon_sSet, SOut.All, Body.All, SVal.All, Mv.All, MvEnd.All, Rows.All]

end Sys2Proof.Machine
end

