-- ==== Sys2Proof/Laws/MemExceptions.lean ====
section
/-!
SUPPORT. What an exception leaves of memory: all of it, or its canonical form.
-/
namespace Sys2Proof.Machine

set_option Elab.async false

theorem haltQuire_canon (s : State) (i) (result) (addr) (hs : Canon s.mem) :
    Canon (s.haltQuire i result addr).mem := by
  unfold State.haltQuire
  grind [setQ_mem, emit_mem, contextFatal_canon]

theorem escalate_mem (s : State) (i) (e) (reason) (epc) :
    (s.escalate i e reason epc).mem = s.mem := by
  unfold State.escalate
  grind [setQ_mem, emit_mem]

theorem consumePoison_mem (s : State) (i) (pa) (ref) :
    (s.consumePoison i pa ref).2.mem = s.mem := by
  unfold State.consumePoison
  grind [logErr_mem]

theorem loadAny_canon (s : State) (i) (x2) (hs : Canon s.mem) :
    Canon (s.loadAny i x2).2.mem := by
  fun_induction (s.loadAny i x2) <;> grind [loadByteWide_canon, loadByte_canon]

theorem readDescriptor_canon (s : State) (i) (n) (hs : Canon s.mem) :
    Canon (s.readDescriptor i n).2.mem := by
  unfold State.readDescriptor
  grind [xlateBytes_mem, consumePoison_mem, awayEnds_mem, loadAny_canon]

theorem enterWith_mem (s : State) (i) (e) (epc) (d) :
    (s.enterWith i e epc d).mem = s.mem := by
  unfold State.enterWith
  grind [escalate_mem, setQ_mem]

theorem raiseAt_canon (s : State) (i) (e) (epc) (hs : Canon s.mem) :
    Canon (s.raiseAt i e epc).mem := by
  unfold State.raiseAt
  grind [modQ_mem, countEvent_mem, haltQuire_canon, escalate_mem, readDescriptor_canon, enterWith_mem]

theorem raise_canon (s : State) (i) (e) (hs : Canon s.mem) :
    Canon (s.raise i e).mem := by
  unfold State.raise
  grind [raiseAt_canon]

theorem latchStoreErr_mem (s : State) (i) (addr) (entry) :
    (s.latchStoreErr i addr entry).mem = s.mem := by
  unfold State.latchStoreErr
  grind [modQ_mem, emit_mem]

theorem irqLevel_canon (s : State) (i) (n) (hs : Canon s.mem) :
    Canon (s.irqLevel i n).2.2.mem := by
  unfold State.irqLevel
  grind [readDescriptor_canon]

theorem pickIrq_canon (s : State) (i) (x2) (x3) (hs : Canon s.mem) :
    Canon (s.pickIrq i x2 x3).2.mem := by
  fun_induction (s.pickIrq i x2 x3) <;> grind [irqLevel_canon]

theorem dueIrq_canon (s : State) (i) (hs : Canon s.mem) :
    Canon (s.dueIrq i).2.mem := by
  unfold State.dueIrq
  grind [modQ_mem, pickIrq_canon]

theorem enterIrq_canon (s : State) (i) (n) (d) (hs : Canon s.mem) :
    Canon (s.enterIrq i n d).mem := by
  unfold State.enterIrq
  grind [modQ_mem, countEvent_mem, setQ_mem, readDescriptor_canon, enterWith_mem]

theorem takeInterrupt_canon (s : State) (i) (hs : Canon s.mem) :
    Canon (s.takeInterrupt i).mem := by
  unfold State.takeInterrupt
  grind [dueIrq_canon, enterIrq_canon]

theorem l1iPut_mem (s : State) (i) (line) :
    (s.l1iPut i line).mem = s.mem := by
  unfold State.l1iPut
  grind [putWay_mem, modQ_mem]

theorem l1iFill_canon (s : State) (i) (pa) (hs : Canon s.mem) :
    Canon (s.l1iFill i pa).2.mem := by
  unfold State.l1iFill
  grind [consumePoison_mem, awayEnds_mem, l2Touch_canon, l1iPut_mem]

theorem fetchWord_canon (s : State) (i) (a) (hs : Canon s.mem) :
    Canon (s.fetchWord i a).2.mem := by
  unfold State.fetchWord
  grind [xlateSpan_mem, l1iFill_canon]

theorem fetchFault_canon (s : State) (i) (len) (firstOk) (hs : Canon s.mem) :
    Canon (s.fetchFault i len firstOk).2.mem := by
  unfold State.fetchFault
  grind [fetchWord_canon]

theorem retireAt_canon (s : State) (i) (next) (stepped) (hs : Canon s.mem) :
    Canon (s.retireAt i next stepped).mem := by
  unfold State.retireAt
  grind [setQ_mem, countEvent_mem, raiseAt_canon]

theorem retire_canon (s : State) (i) (next) (hs : Canon s.mem) :
    Canon (s.retire i next).mem := by
  unfold State.retire
  grind [retireAt_canon]

theorem flushEvents_mem (s : State) (i) :
    (s.flushEvents i).mem = s.mem := by
  unfold State.flushEvents
  grind [countEvent_mem, modQ_mem, foldl_mem, foldl_canon, foldl_mem_snd, foldl_canon_snd, foldl_mem_fst, foldl_canon_fst, Option.getD, canon_sSet, SOut.All, Body.All, SVal.All, Mv.All, MvEnd.All, Rows.All]

theorem issue_mem (s : State) (i) :
    (s.issue i).mem = s.mem := by
  unfold State.issue
  grind [chooseDeferred_mem, modQ_mem]

theorem eret_canon (s : State) (i) (hs : Canon s.mem) :
    (s.eret i).All (fun t => Canon t.mem) := by
  unfold State.eret
  grind [setQ_mem, modQ_mem, foldl_mem, foldl_canon, canon_sSet, SOut.All, Body.All, SVal.All, Mv.All, Rows.All]

theorem needPl_canon (s : State) (i) (pl) (b) (hs : Canon s.mem) (h_b : ∀ u, Canon u.mem → (b u).All (fun t => Canon t.mem)) :
    (s.needPl i pl b).All (fun t => Canon t.mem) := by
  unfold State.needPl
  grind [foldl_mem, foldl_canon, canon_sSet, SOut.All, Body.All, SVal.All, Mv.All, Rows.All]

theorem simple_canon (s : State) (i) (len) (f) (hs : Canon s.mem) :
    (s.simple i len f).All (fun t => Canon t.mem) := by
  unfold State.simple
  grind [modQ_mem, foldl_mem, foldl_canon, canon_sSet, SOut.All, Body.All, SVal.All, Mv.All, Rows.All]

theorem finish_canon (i : QuireId) (b : Body) (h : b.All (fun t => Canon t.mem)) : Canon (b.finish i).mem := by
  induction b with
  | retire t n => exact retire_canon _ i n (by rw [flushEvents_mem]; exact h)
  | ret t n => exact retireAt_canon _ i n _ (by rw [flushEvents_mem]; exact h)
  | trap t e => exact raise_canon _ i e (by rw [flushEvents_mem]; exact h)
  | stay t => show Canon (t.flushEvents i).mem; rw [flushEvents_mem]; exact h
  | andThen b post ih => exact h.2 _ (ih h.1)


theorem state_canon (b : Body) (h : b.All (fun t => Canon t.mem)) : Canon b.state.mem := by
  induction b with
  | retire t n => exact h
  | ret t n => exact h
  | trap t e => exact h
  | stay t => exact h
  | andThen b post ih => exact h.2 _ (ih h.1)


theorem replay_canon (s : State) (i) (e) (rest) (body : State → Body) (hs : Canon s.mem)
    (hb : ∀ u, Canon u.mem → (body u).All (fun t => Canon t.mem)) : Canon (s.replay i e rest body).mem := by
  unfold State.replay
  rw [modQ_mem, flushEvents_mem]
  exact state_canon _ (hb _ (by rw [setQ_mem]; exact hs))

theorem tehus_canon (s : State) (i) (len) (firstOk) (body : State → Body) (hs : Canon s.mem)
    (hb : ∀ u, Canon u.mem → (body u).All (fun t => Canon t.mem)) (t : State) (ht : s.tehus i len firstOk body = .next t) :
    Canon t.mem := by
  unfold State.tehus at ht
  have hd := dueIrq_canon s i hs
  have hf := fetchFault_canon ((s.dueIrq i).2.issue i) i len firstOk (by rw [issue_mem]; exact hd)
  split at ht
  · split at ht
    · cases ht; exact replay_canon _ _ _ _ _ hs hb
    · dsimp only at ht
      split at ht
      · cases ht; exact enterIrq_canon _ _ _ _ hd
      · split at ht
        · cases ht; exact hd
        · split at ht
          · cases ht; exact raise_canon _ _ _ hf
          · cases ht; exact finish_canon _ _ (hb _ hf)
  · cases ht; exact hs

theorem tehusP_canon (s : State) (i) (len) (firstOk) (body : State → Body) (hs : Canon s.mem)
    (h_body : ∀ u, Canon u.mem → (body u).All (fun t => Canon t.mem)) (t : State)
    (ht : (s.tehusP i len firstOk body) = .next t) : Canon t.mem := by
  unfold State.tehusP at ht
  refine tehus_canon _ _ _ _ _ hs (fun u hu => h_body _ ?_) t ht
  split
  · rw [setFld_mem]; exact hu
  · exact hu

end Sys2Proof.Machine
end

