-- ==== Sys2Proof/Laws/MemSystem.lean ====
section
/-!
SUPPORT. What a system instruction leaves of memory: all of it, or its canonical form.
-/
namespace Sys2Proof.Machine

set_option Elab.async false

theorem crRead_mem (s : State) (i) (n) :
    (s.crRead i n).2.mem = s.mem := by
  unfold State.crRead
  grind [fresh_mem, modQ_mem]

theorem crOp_canon (q) (rd) (cr) (rs1) (reads) (writes) (f) (s : State) (hs : Canon s.mem) (t : State) (ht : (crOp q rd cr rs1 reads writes f s) = .next t) :
    Canon t.mem := by
  unfold crOp at ht
  grind [→ tehus_canon, crRead_mem, simple_canon, foldl_mem, foldl_canon, foldl_mem_snd, foldl_canon_snd, foldl_mem_fst, foldl_canon_fst, Option.getD, canon_sSet, SOut.All, Body.All, SVal.All, Mv.All, MvEnd.All, Rows.All]

theorem execCrw_canon (q) (rd) (cr) (rs1) (s : State) (hs : Canon s.mem) (t : State) (ht : (execCrw q rd cr rs1 s) = .next t) :
    Canon t.mem := by
  unfold execCrw at ht
  grind [→ crOp_canon]

theorem execCrs_canon (q) (rd) (cr) (rs1) (s : State) (hs : Canon s.mem) (t : State) (ht : (execCrs q rd cr rs1 s) = .next t) :
    Canon t.mem := by
  unfold execCrs at ht
  grind [→ crOp_canon]

theorem execCrc_canon (q) (rd) (cr) (rs1) (s : State) (hs : Canon s.mem) (t : State) (ht : (execCrc q rd cr rs1 s) = .next t) :
    Canon t.mem := by
  unfold execCrc at ht
  grind [→ crOp_canon]

theorem execFenceD_canon (q) (s : State) (hs : Canon s.mem) (t : State) (ht : (execFenceD q s) = .next t) :
    Canon t.mem := by
  unfold execFenceD at ht
  grind [→ tehus_canon, drain_canon, retire_canon, foldl_mem, foldl_canon, foldl_mem_snd, foldl_canon_snd, foldl_mem_fst, foldl_canon_fst, Option.getD, canon_sSet, SOut.All, Body.All, SVal.All, Mv.All, MvEnd.All, Rows.All]

theorem execFenceS_canon (q) (s : State) (hs : Canon s.mem) (t : State) (ht : (execFenceS q s) = .next t) :
    Canon t.mem := by
  unfold execFenceS at ht
  grind [→ tehus_canon, drain_canon, retire_canon, modQ_mem, foldl_mem, foldl_canon, foldl_mem_snd, foldl_canon_snd, foldl_mem_fst, foldl_canon_fst, Option.getD, canon_sSet, SOut.All, Body.All, SVal.All, Mv.All, MvEnd.All, Rows.All]

theorem execFenceT_canon (q) (s : State) (hs : Canon s.mem) (t : State) (ht : (execFenceT q s) = .next t) :
    Canon t.mem := by
  unfold execFenceT at ht
  grind [→ tehus_canon, drainStores_canon, retire_canon, foldl_mem, foldl_canon, foldl_mem_snd, foldl_canon_snd, foldl_mem_fst, foldl_canon_fst, Option.getD, canon_sSet, SOut.All, Body.All, SVal.All, Mv.All, MvEnd.All, Rows.All]

theorem execSyscall_canon (q) (s : State) (hs : Canon s.mem) (t : State) (ht : (execSyscall q s) = .next t) :
    Canon t.mem := by
  unfold execSyscall at ht
  grind [→ tehus_canon, foldl_mem, foldl_canon, foldl_mem_snd, foldl_canon_snd, foldl_mem_fst, foldl_canon_fst, Option.getD, canon_sSet, SOut.All, Body.All, SVal.All, Mv.All, MvEnd.All, Rows.All]

theorem execBrk_canon (q) (s : State) (hs : Canon s.mem) (t : State) (ht : (execBrk q s) = .next t) :
    Canon t.mem := by
  unfold execBrk at ht
  grind [→ tehus_canon, foldl_mem, foldl_canon, foldl_mem_snd, foldl_canon_snd, foldl_mem_fst, foldl_canon_fst, Option.getD, canon_sSet, SOut.All, Body.All, SVal.All, Mv.All, MvEnd.All, Rows.All]

theorem execEret_canon (q) (s : State) (hs : Canon s.mem) (t : State) (ht : (execEret q s) = .next t) :
    Canon t.mem := by
  unfold execEret at ht
  grind [→ tehus_canon, needPl_canon, eret_canon]

theorem execCsync_canon (q) (s : State) (hs : Canon s.mem) (t : State) (ht : (execCsync q s) = .next t) :
    Canon t.mem := by
  unfold execCsync at ht
  grind [→ tehus_canon, simple_canon]

theorem execWait_canon (q) (s : State) (hs : Canon s.mem) (t : State) (ht : (execWait q s) = .next t) :
    Canon t.mem := by
  unfold execWait at ht
  grind [→ tehus_canon, needPl_canon, simple_canon]

theorem execHalt_canon (q) (s : State) (hs : Canon s.mem) (t : State) (ht : (execHalt q s) = .next t) :
    Canon t.mem := by
  unfold execHalt at ht
  grind [→ tehus_canon, needPl_canon, haltQuire_canon, foldl_mem, foldl_canon, foldl_mem_snd, foldl_canon_snd, foldl_mem_fst, foldl_canon_fst, Option.getD, canon_sSet, SOut.All, Body.All, SVal.All, Mv.All, MvEnd.All, Rows.All]

theorem feedEvict_mem (s : State) (i) :
    (s.feedEvict i).mem = s.mem := by
  unfold State.feedEvict
  grind [modQ_mem]

theorem startCinv_mem (s : State) (i) :
    (s.startCinv i).mem = s.mem := by
  unfold State.startCinv
  grind [modQ_mem, feedEvict_mem]

theorem execCinv_canon (q) (sel) (s : State) (hs : Canon s.mem) (t : State) (ht : (execCinv q sel s) = .next t) :
    Canon t.mem := by
  unfold execCinv at ht
  grind [→ tehus_canon, simple_canon, needPl_canon, drainAtomics_canon, startCinv_mem, foldl_mem, foldl_canon, foldl_mem_snd, foldl_canon_snd, foldl_mem_fst, foldl_canon_fst, Option.getD, canon_sSet, SOut.All, Body.All, SVal.All, Mv.All, MvEnd.All, Rows.All]

theorem execInterruptEntry_canon (q) (s : State) (hs : Canon s.mem) (t : State) (ht : (execInterruptEntry q s) = .next t) :
    Canon t.mem := by
  unfold execInterruptEntry at ht
  grind [takeInterrupt_canon]

theorem execTimer_mem (q) (s : State) (t : State) (ht : (execTimer q s) = .next t) :
    t.mem = s.mem := by
  unfold execTimer at ht
  grind

theorem execIllegalInstruction_canon (q) (s : State) (hs : Canon s.mem) (t : State) (ht : (execIllegalInstruction q s) = .next t) :
    Canon t.mem := by
  unfold execIllegalInstruction at ht
  grind [→ tehus_canon, foldl_mem, foldl_canon, foldl_mem_snd, foldl_canon_snd, foldl_mem_fst, foldl_canon_fst, Option.getD, canon_sSet, SOut.All, Body.All, SVal.All, Mv.All, MvEnd.All, Rows.All]

end Sys2Proof.Machine
end

