-- ==== Sys2Proof/Laws/MemCaches.lean ====
section
/-!
SUPPORT. What a cache instruction leaves of memory: all of it, or its canonical form.
-/
namespace Sys2Proof.Machine

set_option Elab.async false

theorem finishLoad_canon (s : State) (i) (d) (len) (v) (hs : Canon s.mem) :
    Canon (s.finishLoad i d len v).mem := by
  unfold State.finishLoad
  grind [modQ_mem, retire_canon]

theorem failLoad_canon (s : State) (i) (type) (unit) (va) (acc) (hs : Canon s.mem) :
    Canon (s.failLoad i type unit va acc).mem := by
  unfold State.failLoad
  grind [modQ_mem, logErr_mem, raise_canon]

theorem execResponseTimeout_canon (q) (s : State) (hs : Canon s.mem) (t : State) (ht : (execResponseTimeout q s) = .next t) :
    Canon t.mem := by
  unfold execResponseTimeout at ht
  grind [failLoad_canon]

theorem execStoreErrorLatch_mem (q) (timeout) (s : State) (t : State) (ht : (execStoreErrorLatch q timeout s) = .next t) :
    t.mem = s.mem := by
  unfold execStoreErrorLatch at ht
  grind [logErr_mem, latchStoreErr_mem, modQ_mem]

theorem execFarAtomicExecute_canon (unit) (s : State) (hs : Canon s.mem) (t : State) (ht : (execFarAtomicExecute unit s) = .next t) :
    Canon t.mem := by
  unfold execFarAtomicExecute at ht
  grind [farExecute_canon]

theorem execAtomicResult_canon (q) (s : State) (hs : Canon s.mem) (t : State) (ht : (execAtomicResult q s) = .next t) :
    Canon t.mem := by
  unfold execAtomicResult at ht
  grind [finishLoad_canon]

theorem execL1dLineFill_canon (q) (addr) (s : State) (hs : Canon s.mem) (t : State) (ht : (execL1dLineFill q addr s) = .next t) :
    Canon t.mem := by
  unfold execL1dLineFill at ht
  grind [l1dPut_mem, l1dTouch_canon]

theorem execL2WritebackAck_canon (q) (addr) (s : State) (hs : Canon s.mem) (t : State) (ht : (execL2WritebackAck q addr s) = .next t) :
    Canon t.mem := by
  unfold execL2WritebackAck at ht
  grind [ackWriteback_canon, feedEvict_mem]

theorem cacheCtlWrite_mem (s : State) (i) (src) (v) :
    (s.cacheCtlWrite i src v).mem = s.mem := by
  unfold State.cacheCtlWrite
  grind [setFld_mem, reject_mem, setReg_mem, feedEvict_mem]

theorem execQCacheCtl_mem (q) (src) (v) (s : State) (t : State) (ht : (execQCacheCtl q src v s) = .next t) :
    t.mem = s.mem := by
  unfold execQCacheCtl at ht
  grind [→ inOrder_mem, → inOrder_canon, quireGate_mem, quireGate_canon, cacheCtlWrite_mem]

theorem execCacheCfgComplete_mem (q) (s : State) (t : State) (ht : (execCacheCfgComplete q s) = .next t) :
    t.mem = s.mem := by
  unfold execCacheCfgComplete at ht
  grind [modQ_mem, setFld_mem, emit_mem]

theorem execRefreshInterval_mem (ch) (postponed) (s : State) (t : State) (ht : (execRefreshInterval ch postponed s) = .next t) :
    t.mem = s.mem := by
  unfold execRefreshInterval at ht
  grind [setFld_mem, countEvent_mem, emit_mem]

theorem execRefreshCatchUp_mem (ch) (s : State) (t : State) (ht : (execRefreshCatchUp ch s) = .next t) :
    t.mem = s.mem := by
  unfold execRefreshCatchUp at ht
  grind [setFld_mem, countEvent_mem]

theorem execRefreshRateChange_mem (ch) (temp) (s : State) (t : State) (ht : (execRefreshRateChange ch temp s) = .next t) :
    t.mem = s.mem := by
  unfold execRefreshRateChange at ht
  grind [setFld_mem]

end Sys2Proof.Machine
end

