-- ==== Sys2Proof/Laws/MemVector.lean ====
section
/-!
SUPPORT. What a vector instruction leaves of memory: all of it, or its canonical form.
-/
namespace Sys2Proof.Machine

set_option Elab.async false

theorem vbody_canon (q) (len) (firstOk) (legal) (cfg) (f) (s : State) (hs : Canon s.mem) (t : State) (ht : (vbody q len firstOk legal cfg f s) = .next t) :
    Canon t.mem := by
  unfold vbody at ht
  grind [→ tehus_canon, simple_canon, foldl_mem, foldl_canon, foldl_mem_snd, foldl_canon_snd, foldl_mem_fst, foldl_canon_fst, Option.getD, canon_sSet, SOut.All, Body.All, SVal.All, Mv.All, MvEnd.All, Rows.All]

theorem execVsetvl_canon (q) (rd) (rs1) (imm) (s : State) (hs : Canon s.mem) (t : State) (ht : (execVsetvl q rd rs1 imm s) = .next t) :
    Canon t.mem := by
  unfold execVsetvl at ht
  grind [→ tehus_canon, simple_canon]

theorem vfRound_canon (q) (m) (vd) (rm) (f) (s : State) (hs : Canon s.mem) (t : State) (ht : (vfRound q m vd rm f s) = .next t) :
    Canon t.mem := by
  unfold vfRound at ht
  grind [→ vbody_canon]

theorem vfPlain_canon (q) (m) (vd) (rm) (f) (s : State) (hs : Canon s.mem) (t : State) (ht : (vfPlain q m vd rm f s) = .next t) :
    Canon t.mem := by
  unfold vfPlain at ht
  grind [→ vbody_canon]

theorem vfRR_canon (q) (m) (scalar) (vd) (vs1) (rs2) (rm) (f) (s : State) (hs : Canon s.mem) (t : State) (ht : (vfRR q m scalar vd vs1 rs2 rm f s) = .next t) :
    Canon t.mem := by
  unfold vfRR at ht
  grind [→ vfRound_canon]

theorem vfFma_canon (q) (m) (scalar) (vd) (vs1) (rs2) (rm) (negProd) (negAdd) (s : State) (hs : Canon s.mem) (t : State) (ht : (vfFma q m scalar vd vs1 rs2 rm negProd negAdd s) = .next t) :
    Canon t.mem := by
  unfold vfFma at ht
  grind [→ vfRound_canon]

theorem vfMinMax_canon (q) (m) (scalar) (vd) (vs1) (rs2) (rm) (wantMax) (s : State) (hs : Canon s.mem) (t : State) (ht : (vfMinMax q m scalar vd vs1 rs2 rm wantMax s) = .next t) :
    Canon t.mem := by
  unfold vfMinMax at ht
  grind [→ vfPlain_canon]

theorem vfSign_canon (q) (m) (scalar) (vd) (vs1) (rs2) (rm) (f) (s : State) (hs : Canon s.mem) (t : State) (ht : (vfSign q m scalar vd vs1 rs2 rm f s) = .next t) :
    Canon t.mem := by
  unfold vfSign at ht
  grind [→ vfPlain_canon]

theorem execVfadd_canon (q) (m) (scalar) (vd) (vs1) (rs2) (rm) (s : State) (hs : Canon s.mem) (t : State) (ht : (execVfadd q m scalar vd vs1 rs2 rm s) = .next t) :
    Canon t.mem := by
  unfold execVfadd at ht
  grind [→ vfRR_canon]

theorem execVfsub_canon (q) (m) (scalar) (vd) (vs1) (rs2) (rm) (s : State) (hs : Canon s.mem) (t : State) (ht : (execVfsub q m scalar vd vs1 rs2 rm s) = .next t) :
    Canon t.mem := by
  unfold execVfsub at ht
  grind [→ vfRR_canon]

theorem execVfmul_canon (q) (m) (scalar) (vd) (vs1) (rs2) (rm) (s : State) (hs : Canon s.mem) (t : State) (ht : (execVfmul q m scalar vd vs1 rs2 rm s) = .next t) :
    Canon t.mem := by
  unfold execVfmul at ht
  grind [→ vfRR_canon]

theorem execVfdiv_canon (q) (m) (scalar) (vd) (vs1) (rs2) (rm) (s : State) (hs : Canon s.mem) (t : State) (ht : (execVfdiv q m scalar vd vs1 rs2 rm s) = .next t) :
    Canon t.mem := by
  unfold execVfdiv at ht
  grind [→ vfRR_canon]

theorem execVfsqrt_canon (q) (m) (vd) (vs1) (rm) (s : State) (hs : Canon s.mem) (t : State) (ht : (execVfsqrt q m vd vs1 rm s) = .next t) :
    Canon t.mem := by
  unfold execVfsqrt at ht
  grind [→ vfRound_canon]

theorem execVfmin_canon (q) (m) (scalar) (vd) (vs1) (rs2) (rm) (s : State) (hs : Canon s.mem) (t : State) (ht : (execVfmin q m scalar vd vs1 rs2 rm s) = .next t) :
    Canon t.mem := by
  unfold execVfmin at ht
  grind [→ vfMinMax_canon]

theorem execVfmax_canon (q) (m) (scalar) (vd) (vs1) (rs2) (rm) (s : State) (hs : Canon s.mem) (t : State) (ht : (execVfmax q m scalar vd vs1 rs2 rm s) = .next t) :
    Canon t.mem := by
  unfold execVfmax at ht
  grind [→ vfMinMax_canon]

theorem execVfsgn_canon (q) (m) (scalar) (vd) (vs1) (rs2) (rm) (s : State) (hs : Canon s.mem) (t : State) (ht : (execVfsgn q m scalar vd vs1 rs2 rm s) = .next t) :
    Canon t.mem := by
  unfold execVfsgn at ht
  grind [→ vfSign_canon]

theorem execVfsgnn_canon (q) (m) (scalar) (vd) (vs1) (rs2) (rm) (s : State) (hs : Canon s.mem) (t : State) (ht : (execVfsgnn q m scalar vd vs1 rs2 rm s) = .next t) :
    Canon t.mem := by
  unfold execVfsgnn at ht
  grind [→ vfSign_canon]

theorem execVfsgnx_canon (q) (m) (scalar) (vd) (vs1) (rs2) (rm) (s : State) (hs : Canon s.mem) (t : State) (ht : (execVfsgnx q m scalar vd vs1 rs2 rm s) = .next t) :
    Canon t.mem := by
  unfold execVfsgnx at ht
  grind [→ vfSign_canon]

theorem execVfmadd_canon (q) (m) (scalar) (vd) (vs1) (rs2) (rm) (s : State) (hs : Canon s.mem) (t : State) (ht : (execVfmadd q m scalar vd vs1 rs2 rm s) = .next t) :
    Canon t.mem := by
  unfold execVfmadd at ht
  grind [→ vfFma_canon]

theorem execVfmsub_canon (q) (m) (scalar) (vd) (vs1) (rs2) (rm) (s : State) (hs : Canon s.mem) (t : State) (ht : (execVfmsub q m scalar vd vs1 rs2 rm s) = .next t) :
    Canon t.mem := by
  unfold execVfmsub at ht
  grind [→ vfFma_canon]

theorem execVfnmadd_canon (q) (m) (scalar) (vd) (vs1) (rs2) (rm) (s : State) (hs : Canon s.mem) (t : State) (ht : (execVfnmadd q m scalar vd vs1 rs2 rm s) = .next t) :
    Canon t.mem := by
  unfold execVfnmadd at ht
  grind [→ vfFma_canon]

theorem execVfnmsub_canon (q) (m) (scalar) (vd) (vs1) (rs2) (rm) (s : State) (hs : Canon s.mem) (t : State) (ht : (execVfnmsub q m scalar vd vs1 rs2 rm s) = .next t) :
    Canon t.mem := by
  unfold execVfnmsub at ht
  grind [→ vfFma_canon]

theorem execVfexp2_canon (q) (m) (vd) (vs1) (rm) (s : State) (hs : Canon s.mem) (t : State) (ht : (execVfexp2 q m vd vs1 rm s) = .next t) :
    Canon t.mem := by
  unfold execVfexp2 at ht
  grind [→ tehus_canon, simple_canon, foldl_mem, foldl_canon, foldl_mem_snd, foldl_canon_snd, foldl_mem_fst, foldl_canon_fst, Option.getD, canon_sSet, SOut.All, Body.All, SVal.All, Mv.All, MvEnd.All, Rows.All]

theorem viOp_canon (q) (m) (scalar) (vd) (vs1) (rs2) (f) (s : State) (hs : Canon s.mem) (t : State) (ht : (viOp q m scalar vd vs1 rs2 f s) = .next t) :
    Canon t.mem := by
  unfold viOp at ht
  grind [→ vbody_canon]

theorem execVadd_canon (q) (m) (scalar) (vd) (vs1) (rs2) (s : State) (hs : Canon s.mem) (t : State) (ht : (execVadd q m scalar vd vs1 rs2 s) = .next t) :
    Canon t.mem := by
  unfold execVadd at ht
  grind [→ viOp_canon]

theorem execVsub_canon (q) (m) (scalar) (vd) (vs1) (rs2) (s : State) (hs : Canon s.mem) (t : State) (ht : (execVsub q m scalar vd vs1 rs2 s) = .next t) :
    Canon t.mem := by
  unfold execVsub at ht
  grind [→ viOp_canon]

theorem execVand_canon (q) (m) (scalar) (vd) (vs1) (rs2) (s : State) (hs : Canon s.mem) (t : State) (ht : (execVand q m scalar vd vs1 rs2 s) = .next t) :
    Canon t.mem := by
  unfold execVand at ht
  grind [→ viOp_canon]

theorem execVor_canon (q) (m) (scalar) (vd) (vs1) (rs2) (s : State) (hs : Canon s.mem) (t : State) (ht : (execVor q m scalar vd vs1 rs2 s) = .next t) :
    Canon t.mem := by
  unfold execVor at ht
  grind [→ viOp_canon]

theorem execVxor_canon (q) (m) (scalar) (vd) (vs1) (rs2) (s : State) (hs : Canon s.mem) (t : State) (ht : (execVxor q m scalar vd vs1 rs2 s) = .next t) :
    Canon t.mem := by
  unfold execVxor at ht
  grind [→ viOp_canon]

theorem execVsll_canon (q) (m) (scalar) (vd) (vs1) (rs2) (s : State) (hs : Canon s.mem) (t : State) (ht : (execVsll q m scalar vd vs1 rs2 s) = .next t) :
    Canon t.mem := by
  unfold execVsll at ht
  grind [→ viOp_canon]

theorem execVsrl_canon (q) (m) (scalar) (vd) (vs1) (rs2) (s : State) (hs : Canon s.mem) (t : State) (ht : (execVsrl q m scalar vd vs1 rs2 s) = .next t) :
    Canon t.mem := by
  unfold execVsrl at ht
  grind [→ viOp_canon]

theorem execVsra_canon (q) (m) (scalar) (vd) (vs1) (rs2) (s : State) (hs : Canon s.mem) (t : State) (ht : (execVsra q m scalar vd vs1 rs2 s) = .next t) :
    Canon t.mem := by
  unfold execVsra at ht
  grind [→ viOp_canon]

theorem execVmin_canon (q) (m) (scalar) (vd) (vs1) (rs2) (s : State) (hs : Canon s.mem) (t : State) (ht : (execVmin q m scalar vd vs1 rs2 s) = .next t) :
    Canon t.mem := by
  unfold execVmin at ht
  grind [→ viOp_canon]

theorem execVmax_canon (q) (m) (scalar) (vd) (vs1) (rs2) (s : State) (hs : Canon s.mem) (t : State) (ht : (execVmax q m scalar vd vs1 rs2 s) = .next t) :
    Canon t.mem := by
  unfold execVmax at ht
  grind [→ viOp_canon]

theorem execVminu_canon (q) (m) (scalar) (vd) (vs1) (rs2) (s : State) (hs : Canon s.mem) (t : State) (ht : (execVminu q m scalar vd vs1 rs2 s) = .next t) :
    Canon t.mem := by
  unfold execVminu at ht
  grind [→ viOp_canon]

theorem execVmaxu_canon (q) (m) (scalar) (vd) (vs1) (rs2) (s : State) (hs : Canon s.mem) (t : State) (ht : (execVmaxu q m scalar vd vs1 rs2 s) = .next t) :
    Canon t.mem := by
  unfold execVmaxu at ht
  grind [→ viOp_canon]

theorem execVmul_canon (q) (m) (scalar) (vd) (vs1) (rs2) (s : State) (hs : Canon s.mem) (t : State) (ht : (execVmul q m scalar vd vs1 rs2 s) = .next t) :
    Canon t.mem := by
  unfold execVmul at ht
  grind [→ viOp_canon]

theorem execVmulh_canon (q) (m) (scalar) (vd) (vs1) (rs2) (s : State) (hs : Canon s.mem) (t : State) (ht : (execVmulh q m scalar vd vs1 rs2 s) = .next t) :
    Canon t.mem := by
  unfold execVmulh at ht
  grind [→ viOp_canon]

theorem execVmulhu_canon (q) (m) (scalar) (vd) (vs1) (rs2) (s : State) (hs : Canon s.mem) (t : State) (ht : (execVmulhu q m scalar vd vs1 rs2 s) = .next t) :
    Canon t.mem := by
  unfold execVmulhu at ht
  grind [→ viOp_canon]

theorem execVdiv_canon (q) (m) (scalar) (vd) (vs1) (rs2) (s : State) (hs : Canon s.mem) (t : State) (ht : (execVdiv q m scalar vd vs1 rs2 s) = .next t) :
    Canon t.mem := by
  unfold execVdiv at ht
  grind [→ viOp_canon]

theorem execVdivu_canon (q) (m) (scalar) (vd) (vs1) (rs2) (s : State) (hs : Canon s.mem) (t : State) (ht : (execVdivu q m scalar vd vs1 rs2 s) = .next t) :
    Canon t.mem := by
  unfold execVdivu at ht
  grind [→ viOp_canon]

theorem execVrem_canon (q) (m) (scalar) (vd) (vs1) (rs2) (s : State) (hs : Canon s.mem) (t : State) (ht : (execVrem q m scalar vd vs1 rs2 s) = .next t) :
    Canon t.mem := by
  unfold execVrem at ht
  grind [→ viOp_canon]

theorem execVremu_canon (q) (m) (scalar) (vd) (vs1) (rs2) (s : State) (hs : Canon s.mem) (t : State) (ht : (execVremu q m scalar vd vs1 rs2 s) = .next t) :
    Canon t.mem := by
  unfold execVremu at ht
  grind [→ viOp_canon]

theorem execVsadd_canon (q) (m) (scalar) (vd) (vs1) (rs2) (s : State) (hs : Canon s.mem) (t : State) (ht : (execVsadd q m scalar vd vs1 rs2 s) = .next t) :
    Canon t.mem := by
  unfold execVsadd at ht
  grind [→ viOp_canon]

theorem execVsaddu_canon (q) (m) (scalar) (vd) (vs1) (rs2) (s : State) (hs : Canon s.mem) (t : State) (ht : (execVsaddu q m scalar vd vs1 rs2 s) = .next t) :
    Canon t.mem := by
  unfold execVsaddu at ht
  grind [→ viOp_canon]

theorem execVssub_canon (q) (m) (scalar) (vd) (vs1) (rs2) (s : State) (hs : Canon s.mem) (t : State) (ht : (execVssub q m scalar vd vs1 rs2 s) = .next t) :
    Canon t.mem := by
  unfold execVssub at ht
  grind [→ viOp_canon]

theorem execVssubu_canon (q) (m) (scalar) (vd) (vs1) (rs2) (s : State) (hs : Canon s.mem) (t : State) (ht : (execVssubu q m scalar vd vs1 rs2 s) = .next t) :
    Canon t.mem := by
  unfold execVssubu at ht
  grind [→ viOp_canon]

theorem execVmacc_canon (q) (m) (scalar) (vd) (vs1) (rs2) (s : State) (hs : Canon s.mem) (t : State) (ht : (execVmacc q m scalar vd vs1 rs2 s) = .next t) :
    Canon t.mem := by
  unfold execVmacc at ht
  grind [→ viOp_canon]

theorem execVcmp_canon (q) (m) (scalar) (cond) (md) (vs1) (rs2) (s : State) (hs : Canon s.mem) (t : State) (ht : (execVcmp q m scalar cond md vs1 rs2 s) = .next t) :
    Canon t.mem := by
  unfold execVcmp at ht
  grind [→ vbody_canon]

theorem maskOp_canon (q) (md) (f) (s : State) (hs : Canon s.mem) (t : State) (ht : (maskOp q md f s) = .next t) :
    Canon t.mem := by
  unfold maskOp at ht
  grind [→ vbody_canon]

theorem execMand_canon (q) (md) (ms1) (ms2) (s : State) (hs : Canon s.mem) (t : State) (ht : (execMand q md ms1 ms2 s) = .next t) :
    Canon t.mem := by
  unfold execMand at ht
  grind [→ maskOp_canon]

theorem execMor_canon (q) (md) (ms1) (ms2) (s : State) (hs : Canon s.mem) (t : State) (ht : (execMor q md ms1 ms2 s) = .next t) :
    Canon t.mem := by
  unfold execMor at ht
  grind [→ maskOp_canon]

theorem execMxor_canon (q) (md) (ms1) (ms2) (s : State) (hs : Canon s.mem) (t : State) (ht : (execMxor q md ms1 ms2 s) = .next t) :
    Canon t.mem := by
  unfold execMxor at ht
  grind [→ maskOp_canon]

theorem execMandn_canon (q) (md) (ms1) (ms2) (s : State) (hs : Canon s.mem) (t : State) (ht : (execMandn q md ms1 ms2 s) = .next t) :
    Canon t.mem := by
  unfold execMandn at ht
  grind [→ maskOp_canon]

theorem execMnot_canon (q) (md) (ms1) (s : State) (hs : Canon s.mem) (t : State) (ht : (execMnot q md ms1 s) = .next t) :
    Canon t.mem := by
  unfold execMnot at ht
  grind [→ maskOp_canon]

theorem execMmv_canon (q) (md) (ms1) (s : State) (hs : Canon s.mem) (t : State) (ht : (execMmv q md ms1 s) = .next t) :
    Canon t.mem := by
  unfold execMmv at ht
  grind [→ maskOp_canon]

theorem execMset_canon (q) (md) (s : State) (hs : Canon s.mem) (t : State) (ht : (execMset q md s) = .next t) :
    Canon t.mem := by
  unfold execMset at ht
  grind [→ maskOp_canon]

theorem execMclr_canon (q) (md) (s : State) (hs : Canon s.mem) (t : State) (ht : (execMclr q md s) = .next t) :
    Canon t.mem := by
  unfold execMclr at ht
  grind [→ maskOp_canon]

theorem execMpopc_canon (q) (rd) (ms1) (s : State) (hs : Canon s.mem) (t : State) (ht : (execMpopc q rd ms1 s) = .next t) :
    Canon t.mem := by
  unfold execMpopc at ht
  grind [→ vbody_canon]

theorem execMfirst_canon (q) (rd) (ms1) (s : State) (hs : Canon s.mem) (t : State) (ht : (execMfirst q rd ms1 s) = .next t) :
    Canon t.mem := by
  unfold execMfirst at ht
  grind [→ vbody_canon]

theorem execVcvt_canon (q) (dst) (src) (sat) (rm) (vd) (vs1) (s : State) (hs : Canon s.mem) (t : State) (ht : (execVcvt q dst src sat rm vd vs1 s) = .next t) :
    Canon t.mem := by
  unfold execVcvt at ht
  grind [→ vbody_canon]

theorem permOp_canon (q) (firstOk) (m) (vd) (skip) (f) (s : State) (hs : Canon s.mem) (t : State) (ht : (permOp q firstOk m vd skip f s) = .next t) :
    Canon t.mem := by
  unfold permOp at ht
  grind [→ vbody_canon]

theorem execVmv_canon (q) (m) (vd) (vs1) (s : State) (hs : Canon s.mem) (t : State) (ht : (execVmv q m vd vs1 s) = .next t) :
    Canon t.mem := by
  unfold execVmv at ht
  grind [→ permOp_canon]

theorem execVmerge_canon (q) (vd) (vs1) (vs2) (s : State) (hs : Canon s.mem) (t : State) (ht : (execVmerge q vd vs1 vs2 s) = .next t) :
    Canon t.mem := by
  unfold execVmerge at ht
  grind [→ permOp_canon]

theorem execVslideup_canon (q) (m) (vd) (vs1) (rs2) (s : State) (hs : Canon s.mem) (t : State) (ht : (execVslideup q m vd vs1 rs2 s) = .next t) :
    Canon t.mem := by
  unfold execVslideup at ht
  grind [→ permOp_canon]

theorem execVslidedown_canon (q) (m) (vd) (vs1) (rs2) (s : State) (hs : Canon s.mem) (t : State) (ht : (execVslidedown q m vd vs1 rs2 s) = .next t) :
    Canon t.mem := by
  unfold execVslidedown at ht
  grind [→ permOp_canon]

theorem execVslide1upF_canon (q) (m) (vd) (vs1) (rs2) (s : State) (hs : Canon s.mem) (t : State) (ht : (execVslide1upF q m vd vs1 rs2 s) = .next t) :
    Canon t.mem := by
  unfold execVslide1upF at ht
  grind [→ permOp_canon]

theorem execVslide1downF_canon (q) (m) (vd) (vs1) (rs2) (s : State) (hs : Canon s.mem) (t : State) (ht : (execVslide1downF q m vd vs1 rs2 s) = .next t) :
    Canon t.mem := by
  unfold execVslide1downF at ht
  grind [→ permOp_canon]

theorem execVslide1upG_canon (q) (m) (vd) (vs1) (rs2) (s : State) (hs : Canon s.mem) (t : State) (ht : (execVslide1upG q m vd vs1 rs2 s) = .next t) :
    Canon t.mem := by
  unfold execVslide1upG at ht
  grind [→ permOp_canon]

theorem execVslide1downG_canon (q) (m) (vd) (vs1) (rs2) (s : State) (hs : Canon s.mem) (t : State) (ht : (execVslide1downG q m vd vs1 rs2 s) = .next t) :
    Canon t.mem := by
  unfold execVslide1downG at ht
  grind [→ permOp_canon]

theorem execVgather_canon (q) (m) (vd) (vs1) (vs2) (s : State) (hs : Canon s.mem) (t : State) (ht : (execVgather q m vd vs1 vs2 s) = .next t) :
    Canon t.mem := by
  unfold execVgather at ht
  grind [→ permOp_canon]

theorem execVcompress_canon (q) (vd) (vs1) (s : State) (hs : Canon s.mem) (t : State) (ht : (execVcompress q vd vs1 s) = .next t) :
    Canon t.mem := by
  unfold execVcompress at ht
  grind [→ vbody_canon]

theorem execVbcastF_canon (q) (m) (vd) (rs1) (s : State) (hs : Canon s.mem) (t : State) (ht : (execVbcastF q m vd rs1 s) = .next t) :
    Canon t.mem := by
  unfold execVbcastF at ht
  grind [→ permOp_canon]

theorem execVbcastG_canon (q) (m) (vd) (rs1) (s : State) (hs : Canon s.mem) (t : State) (ht : (execVbcastG q m vd rs1 s) = .next t) :
    Canon t.mem := by
  unfold execVbcastG at ht
  grind [→ permOp_canon]

theorem execVextrG_canon (q) (rd) (vs1) (rs2) (s : State) (hs : Canon s.mem) (t : State) (ht : (execVextrG q rd vs1 rs2 s) = .next t) :
    Canon t.mem := by
  unfold execVextrG at ht
  grind [→ vbody_canon]

theorem execVextrF_canon (q) (fd) (vs1) (rs2) (s : State) (hs : Canon s.mem) (t : State) (ht : (execVextrF q fd vs1 rs2 s) = .next t) :
    Canon t.mem := by
  unfold execVextrF at ht
  grind [→ vbody_canon]

theorem execVinsG_canon (q) (vd) (rs1) (rs2) (s : State) (hs : Canon s.mem) (t : State) (ht : (execVinsG q vd rs1 rs2 s) = .next t) :
    Canon t.mem := by
  unfold execVinsG at ht
  grind [→ vbody_canon]

theorem redInt_canon (q) (m) (vd) (vs1) (vs2) (rm) (f) (s : State) (hs : Canon s.mem) (t : State) (ht : (redInt q m vd vs1 vs2 rm f s) = .next t) :
    Canon t.mem := by
  unfold redInt at ht
  grind [→ vbody_canon]

theorem redMinMax_canon (q) (m) (vd) (vs1) (vs2) (rm) (wantMax) (s : State) (hs : Canon s.mem) (t : State) (ht : (redMinMax q m vd vs1 vs2 rm wantMax s) = .next t) :
    Canon t.mem := by
  unfold redMinMax at ht
  grind [→ vbody_canon]

theorem redSum_canon (q) (m) (vd) (vs1) (vs2) (rm) (tree) (s : State) (hs : Canon s.mem) (t : State) (ht : (redSum q m vd vs1 vs2 rm tree s) = .next t) :
    Canon t.mem := by
  unfold redSum at ht
  grind [→ vbody_canon]

theorem execVfredsumO_canon (q) (m) (vd) (vs1) (vs2) (rm) (s : State) (hs : Canon s.mem) (t : State) (ht : (execVfredsumO q m vd vs1 vs2 rm s) = .next t) :
    Canon t.mem := by
  unfold execVfredsumO at ht
  grind [→ redSum_canon]

theorem execVfredsumT_canon (q) (m) (vd) (vs1) (vs2) (rm) (s : State) (hs : Canon s.mem) (t : State) (ht : (execVfredsumT q m vd vs1 vs2 rm s) = .next t) :
    Canon t.mem := by
  unfold execVfredsumT at ht
  grind [→ redSum_canon]

theorem execVfredmax_canon (q) (m) (vd) (vs1) (vs2) (rm) (s : State) (hs : Canon s.mem) (t : State) (ht : (execVfredmax q m vd vs1 vs2 rm s) = .next t) :
    Canon t.mem := by
  unfold execVfredmax at ht
  grind [→ redMinMax_canon]

theorem execVfredmin_canon (q) (m) (vd) (vs1) (vs2) (rm) (s : State) (hs : Canon s.mem) (t : State) (ht : (execVfredmin q m vd vs1 vs2 rm s) = .next t) :
    Canon t.mem := by
  unfold execVfredmin at ht
  grind [→ redMinMax_canon]

theorem execVredsum_canon (q) (m) (vd) (vs1) (vs2) (rm) (s : State) (hs : Canon s.mem) (t : State) (ht : (execVredsum q m vd vs1 vs2 rm s) = .next t) :
    Canon t.mem := by
  unfold execVredsum at ht
  grind [→ redInt_canon]

theorem execVredand_canon (q) (m) (vd) (vs1) (vs2) (rm) (s : State) (hs : Canon s.mem) (t : State) (ht : (execVredand q m vd vs1 vs2 rm s) = .next t) :
    Canon t.mem := by
  unfold execVredand at ht
  grind [→ redInt_canon]

theorem execVredor_canon (q) (m) (vd) (vs1) (vs2) (rm) (s : State) (hs : Canon s.mem) (t : State) (ht : (execVredor q m vd vs1 vs2 rm s) = .next t) :
    Canon t.mem := by
  unfold execVredor at ht
  grind [→ redInt_canon]

theorem execVredxor_canon (q) (m) (vd) (vs1) (vs2) (rm) (s : State) (hs : Canon s.mem) (t : State) (ht : (execVredxor q m vd vs1 vs2 rm s) = .next t) :
    Canon t.mem := by
  unfold execVredxor at ht
  grind [→ redInt_canon]

theorem execVredmax_canon (q) (m) (vd) (vs1) (vs2) (rm) (s : State) (hs : Canon s.mem) (t : State) (ht : (execVredmax q m vd vs1 vs2 rm s) = .next t) :
    Canon t.mem := by
  unfold execVredmax at ht
  grind [→ redInt_canon]

theorem execVredmin_canon (q) (m) (vd) (vs1) (vs2) (rm) (s : State) (hs : Canon s.mem) (t : State) (ht : (execVredmin q m vd vs1 vs2 rm s) = .next t) :
    Canon t.mem := by
  unfold execVredmin at ht
  grind [→ redInt_canon]

theorem execVredmaxu_canon (q) (m) (vd) (vs1) (vs2) (rm) (s : State) (hs : Canon s.mem) (t : State) (ht : (execVredmaxu q m vd vs1 vs2 rm s) = .next t) :
    Canon t.mem := by
  unfold execVredmaxu at ht
  grind [→ redInt_canon]

theorem execVredminu_canon (q) (m) (vd) (vs1) (vs2) (rm) (s : State) (hs : Canon s.mem) (t : State) (ht : (execVredminu q m vd vs1 vs2 rm s) = .next t) :
    Canon t.mem := by
  unfold execVredminu at ht
  grind [→ redInt_canon]

end Sys2Proof.Machine
end

