-- ==== Sys2Proof/Laws/MemTile.lean ====
section
/-!
SUPPORT. What a tile instruction leaves of memory: all of it, or its canonical form.
-/
namespace Sys2Proof.Machine

set_option Elab.async false

theorem rowsBody_canon (q : QuireId) (len : Nat) (r : Rows) (h : r.All (fun t => Canon t.mem)) :
    (r.body q len).All (fun t => Canon t.mem) := by
  cases r <;> grind [Rows.body, Rows.All, Body.All, modQ_mem, setQ_mem]

theorem wideAccess_mem (s : State) (i) (k) (acc) (index) (va) (n) :
    (s.wideAccess i k acc index va n).2.mem = s.mem := by
  unfold State.wideAccess
  grind [xlateSpan_mem, consumePoison_mem, awayEnds_mem]

theorem tileState_mem (s : State) (i) (code) (index) :
    ((s.tileState i code index)).All (fun t => t.mem = s.mem) := by
  unfold State.tileState
  grind [modQ_mem, foldl_mem, foldl_canon, foldl_mem_snd, foldl_canon_snd, foldl_mem_fst, foldl_canon_fst, Option.getD, canon_sSet, SOut.All, Body.All, SVal.All, Mv.All, MvEnd.All, Rows.All]

theorem tileState_canon (s : State) (i) (code) (index) (hs : Canon s.mem) :
    ((s.tileState i code index)).All (fun t => Canon t.mem) := by
  unfold State.tileState
  grind [modQ_mem, tileState_mem, foldl_mem, foldl_canon, foldl_mem_snd, foldl_canon_snd, foldl_mem_fst, foldl_canon_fst, Option.getD, canon_sSet, SOut.All, Body.All, SVal.All, Mv.All, MvEnd.All, Rows.All]

theorem tileCheck_mem (s : State) (i) (rowForm) (ts) (k : State → Body) (h_k : ∀ u, (k u).All (fun t => t.mem = u.mem)) :
    ((s.tileCheck i rowForm ts k)).All (fun t => t.mem = s.mem) := by
  unfold State.tileCheck
  grind [tileState_mem, tileState_canon]

theorem tileCheck_canon (s : State) (i) (rowForm) (ts) (k : State → Body) (hs : Canon s.mem) (h_k : ∀ u, Canon u.mem → (k u).All (fun t => Canon t.mem)) :
    ((s.tileCheck i rowForm ts k)).All (fun t => Canon t.mem) := by
  unfold State.tileCheck
  grind [tileState_mem, tileState_canon, tileCheck_mem]

theorem execTcfg_canon (q) (rs1) (rs2) (s : State) (hs : Canon s.mem) (t : State) (ht : (execTcfg q rs1 rs2 s) = .next t) :
    Canon t.mem := by
  unfold execTcfg at ht
  grind [→ tehusP_canon, tileCheck_mem, tileCheck_canon, modQ_mem, simple_canon, foldl_mem, foldl_canon, foldl_mem_snd, foldl_canon_snd, foldl_mem_fst, foldl_canon_fst, Option.getD, canon_sSet, SOut.All, Body.All, SVal.All, Mv.All, MvEnd.All, Rows.All]

theorem execTdesc_canon (q) (rd) (tn) (s : State) (hs : Canon s.mem) (t : State) (ht : (execTdesc q rd tn s) = .next t) :
    Canon t.mem := by
  unfold execTdesc at ht
  grind [→ tehusP_canon, tileCheck_mem, tileCheck_canon, simple_canon]

theorem execTrelall_canon (q) (s : State) (hs : Canon s.mem) (t : State) (ht : (execTrelall q s) = .next t) :
    Canon t.mem := by
  unfold execTrelall at ht
  grind [→ tehusP_canon, tileCheck_mem, tileCheck_canon, simple_canon]

theorem execTzero_canon (q) (td) (s : State) (hs : Canon s.mem) (t : State) (ht : (execTzero q td s) = .next t) :
    Canon t.mem := by
  unfold execTzero at ht
  grind [→ tehusP_canon, tileCheck_mem, tileCheck_canon, simple_canon]

theorem loadRows_canon (s : State) (i) (td) (base) (stride) (x5) (x6) (hs : Canon s.mem) :
    Canon (s.loadRows i td base stride x5 x6).2.mem := by
  fun_induction (s.loadRows i td base stride x5 x6) <;> grind [modQ_mem, wideAccess_mem, loadWide_canon]

theorem tileLoad_canon (q) (td) (rs1) (stride) (s : State) (hs : Canon s.mem) (t : State) (ht : (tileLoad q td rs1 stride s) = .next t) :
    Canon t.mem := by
  unfold tileLoad at ht
  grind [→ tehusP_canon, tileCheck_mem, tileCheck_canon, drain_canon, loadRows_canon, retire_canon, foldl_mem, foldl_canon, foldl_mem_snd, foldl_canon_snd, foldl_mem_fst, foldl_canon_fst, Option.getD, canon_sSet, SOut.All, Body.All, SVal.All, Mv.All, MvEnd.All, Rows.All]

theorem poisonRun_canon (s : State) (i) (entry) (e) (hs : Canon s.mem) :
    Canon (s.poisonRun i entry e).2.mem := by
  unfold State.poisonRun
  grind [logErr_mem, latchStoreErr_mem, contextFatal_canon, setPoison_mem, storeRun_canon, foldl_mem, foldl_canon, foldl_mem_snd, foldl_canon_snd, foldl_mem_fst, foldl_canon_fst, Option.getD, canon_sSet, SOut.All, Body.All, SVal.All, Mv.All, MvEnd.All, Rows.All]

theorem storePoisoned_canon (s : State) (i) (va) (pas) (v) (entry) (hs : Canon s.mem) :
    Canon (s.storePoisoned i va pas v entry).2.mem := by
  unfold State.storePoisoned
  grind [poisonRun_canon, foldl_mem, foldl_canon, foldl_mem_snd, foldl_canon_snd, foldl_mem_fst, foldl_canon_fst, Option.getD, canon_sSet, SOut.All, Body.All, SVal.All, Mv.All, MvEnd.All, Rows.All]

theorem storeRows_canon (s : State) (i) (td) (base) (stride) (x5) (x6) (hs : Canon s.mem) :
    ((s.storeRows i td base stride x5 x6)).All (fun t => Canon t.mem) := by
  fun_induction (s.storeRows i td base stride x5 x6) <;> grind [modQ_mem, wideAccess_mem, storePoisoned_canon, storeTo_canon, foldl_mem, foldl_canon, foldl_mem_snd, foldl_canon_snd, foldl_mem_fst, foldl_canon_fst, Option.getD, canon_sSet, SOut.All, Body.All, SVal.All, Mv.All, MvEnd.All, Rows.All]

theorem tileStore_canon (q) (td) (rs1) (stride) (s : State) (hs : Canon s.mem) (t : State) (ht : tileStore q td rs1 stride s = .next t) :
    Canon t.mem := by
  unfold tileStore at ht
  grind [storeRows_canon, rowsBody_canon, drain_canon, tileCheck_canon, → tehusP_canon, foldl_mem, foldl_canon, foldl_mem_snd, foldl_canon_snd, foldl_mem_fst, foldl_canon_fst, canon_sSet, SOut.All, Body.All, SVal.All, Mv.All, Rows.All]

theorem execTld_canon (q) (td) (rs1) (rs2) (s : State) (hs : Canon s.mem) (t : State) (ht : (execTld q td rs1 rs2 s) = .next t) :
    Canon t.mem := by
  unfold execTld at ht
  grind [→ tileLoad_canon]

theorem execTldP_canon (q) (td) (rs1) (s : State) (hs : Canon s.mem) (t : State) (ht : (execTldP q td rs1 s) = .next t) :
    Canon t.mem := by
  unfold execTldP at ht
  grind [→ tileLoad_canon]

theorem execTst_canon (q) (td) (rs1) (rs2) (s : State) (hs : Canon s.mem) (t : State) (ht : (execTst q td rs1 rs2 s) = .next t) :
    Canon t.mem := by
  unfold execTst at ht
  grind [→ tileStore_canon]

theorem execTstP_canon (q) (td) (rs1) (s : State) (hs : Canon s.mem) (t : State) (ht : (execTstP q td rs1 s) = .next t) :
    Canon t.mem := by
  unfold execTstP at ht
  grind [→ tileStore_canon]

theorem scaleCheck_mem (s : State) (i) (td) (k : State → Body) (h_k : ∀ u, (k u).All (fun t => t.mem = u.mem)) :
    ((s.scaleCheck i td k)).All (fun t => t.mem = s.mem) := by
  unfold State.scaleCheck
  grind [tileCheck_mem, tileCheck_canon, tileState_mem, tileState_canon]

theorem scaleCheck_canon (s : State) (i) (td) (k : State → Body) (hs : Canon s.mem) (h_k : ∀ u, Canon u.mem → (k u).All (fun t => Canon t.mem)) :
    ((s.scaleCheck i td k)).All (fun t => Canon t.mem) := by
  unfold State.scaleCheck
  grind [tileCheck_mem, tileCheck_canon, tileState_mem, tileState_canon, scaleCheck_mem]

theorem execTlds_canon (q) (td) (rs1) (s : State) (hs : Canon s.mem) (t : State) (ht : (execTlds q td rs1 s) = .next t) :
    Canon t.mem := by
  unfold execTlds at ht
  grind [→ tehusP_canon, scaleCheck_mem, scaleCheck_canon, drain_canon, wideAccess_mem, loadWide_canon, simple_canon, foldl_mem, foldl_canon, foldl_mem_snd, foldl_canon_snd, foldl_mem_fst, foldl_canon_fst, Option.getD, canon_sSet, SOut.All, Body.All, SVal.All, Mv.All, MvEnd.All, Rows.All]

theorem execTsts_canon (q) (td) (rs1) (s : State) (hs : Canon s.mem) (t : State) (ht : (execTsts q td rs1 s) = .next t) :
    Canon t.mem := by
  unfold execTsts at ht
  grind [→ tehusP_canon, scaleCheck_mem, scaleCheck_canon, drain_canon, wideAccess_mem, storePoisoned_canon, storeTo_canon, retire_canon, foldl_mem, foldl_canon, foldl_mem_snd, foldl_canon_snd, foldl_mem_fst, foldl_canon_fst, Option.getD, canon_sSet, SOut.All, Body.All, SVal.All, Mv.All, MvEnd.All, Rows.All]

end Sys2Proof.Machine
end

