-- ==== Sys2Proof/Laws/MemContext.lean ====
section
/-!
SUPPORT. What a context command leaves of memory: all of it, or its canonical form.
-/
namespace Sys2Proof.Machine

set_option Elab.async false

theorem setQmap_mem (s : State) (n) (v) :
    (s.setQmap n v).mem = s.mem := by
  unfold State.setQmap
  grind [setFld_mem]

theorem colophon_mem (s : State) (f : State → State) (h_f : ∀ u, (f u).mem = u.mem) :
    (s.colophon f).mem = s.mem := by
  unfold State.colophon
  grind [setFld_mem]

theorem colophon_canon (s : State) (f : State → State) (hs : Canon s.mem) (h_f : ∀ u, Canon u.mem → Canon (f u).mem) :
    Canon (s.colophon f).mem := by
  unfold State.colophon
  grind [setFld_mem, colophon_mem]

theorem availEvent_canon (s : State) (hs : Canon s.mem) :
    Canon (s.availEvent).mem := by
  unfold State.availEvent
  grind [deviceEvent_canon]

theorem cancelLaunches_canon (s : State) (c) (n) (hs : Canon s.mem) :
    Canon (s.cancelLaunches c n).mem := by
  unfold State.cancelLaunches
  grind [completeCmd_canon, foldl_mem, foldl_canon, foldl_mem_snd, foldl_canon_snd, foldl_mem_fst, foldl_canon_fst, Option.getD, canon_sSet, SOut.All, Body.All, SVal.All, Mv.All, MvEnd.All, RecEnd.All, Rows.All]

theorem mgmtNote_canon (s : State) (n) (ok) (hs : Canon s.mem) :
    Canon (s.mgmtNote n ok).mem := by
  unfold State.mgmtNote
  grind [cancelLaunches_canon, setQueue_mem, completeCmd_canon]

theorem ctxResult_mem (s : State) (i) (act) (ctx) (result) :
    (s.ctxResult i act ctx result).mem = s.mem := by
  unfold State.ctxResult
  grind [modQ_mem, emit_mem]

theorem actionEnd_canon (s : State) (i) (ctx) (result) (hs : Canon s.mem) :
    Canon (s.actionEnd i ctx result).mem := by
  unfold State.actionEnd
  grind [modQ_mem, ctxResult_mem, mgmtNote_canon]

theorem ctxRefuse_mem (s : State) (i) :
    (s.ctxRefuse i).mem = s.mem := by
  unfold State.ctxRefuse
  grind [modQ_mem]

theorem isolates_mem (s : State) (c) :
    (s.isolates c).2.mem = s.mem := by
  unfold State.isolates
  grind [ctxEntry_mem]

theorem isolate_mem (s : State) (i) (ctx) :
    (s.isolate i ctx).mem = s.mem := by
  unfold State.isolate
  grind [isolates_mem, modQ_mem, startCinv_mem]

theorem createFinish_canon (s : State) (i) (hs : Canon s.mem) :
    Canon (s.createFinish i).mem := by
  unfold State.createFinish
  grind [modQ_mem, actionEnd_canon]

theorem touchTimed_mem (s : State) (i) :
    (s.touchTimed i).mem = s.mem := by
  unfold State.touchTimed
  grind [crRead_mem]

theorem saveWrite_canon (s : State) (i) (a) (bs) (hs : Canon s.mem) :
    Canon (s.saveWrite i a bs).mem := by
  unfold State.saveWrite
  grind [dmaWrite_canon, modQ_mem]

theorem saveCommit_canon (s : State) (i) (full) (tip) (hs : Canon s.mem) (t : State) (ht : (s.saveCommit i full tip) = some t) :
    Canon t.mem := by
  have h0 : Canon (s.touchTimed i).mem := by rw [touchTimed_mem]; exact hs
  simp only [State.saveCommit, Option.ite_none_right_eq_some, Option.some.injEq] at ht
  obtain ⟨-, rfl⟩ := ht
  rw [modQ_mem]
  exact saveWrite_canon _ _ _ _ (foldl_canon _ _ _ h0 (fun u d h => saveWrite_canon u _ _ _ h))

theorem restoreImage_mem (s : State) (i) (base) (h) (t : State) (ht : (s.restoreImage i base h) = some t) :
    t.mem = s.mem := by
  unfold State.restoreImage at ht
  grind [dirSpan_mem, setQ_mem, foldl_mem, foldl_canon, foldl_mem_snd, foldl_canon_snd, foldl_mem_fst, foldl_canon_fst, Option.getD, canon_sSet, SOut.All, Body.All, SVal.All, Mv.All, MvEnd.All, RecEnd.All, Rows.All]

theorem restoreStart_canon (s : State) (i) (ctx) (hs : Canon s.mem) :
    Canon (s.restoreStart i ctx).mem := by
  unfold State.restoreStart
  grind [modQ_mem, actionEnd_canon, isolate_mem]

theorem stop_mem (s : State) (i) (act) (full) :
    (s.stop i act full).mem = s.mem := by
  unfold State.stop
  grind [modQ_mem]

theorem preempt_canon (s : State) (i) (full) (hs : Canon s.mem) :
    Canon (s.preempt i full).mem := by
  unfold State.preempt
  grind [stop_mem, irqLevel_canon, raiseIrq_mem, modQ_mem]

theorem ctxAction_canon (s : State) (i) (act) (ctx) (full) (hs : Canon s.mem) :
    Canon (s.ctxAction i act ctx full).mem := by
  unfold State.ctxAction
  grind [ctxRefuse_mem, modQ_mem, isolate_mem, createFinish_canon, restoreStart_canon, stop_mem, preempt_canon, actionEnd_canon]

theorem ctxWrite_canon (s : State) (i) (src) (act) (ctx) (full) (hs : Canon s.mem) :
    Canon (s.ctxWrite i src act ctx full).mem := by
  unfold State.ctxWrite
  grind [quireGate_mem, quireGate_canon, reject_mem, ctxAction_canon]

theorem execCtxCreate_canon (q) (src) (ctx) (full) (s : State) (hs : Canon s.mem) (t : State) (ht : (execCtxCreate q src ctx full s) = .next t) :
    Canon t.mem := by
  unfold execCtxCreate at ht
  grind [→ inOrder_mem, → inOrder_canon, ctxWrite_canon]

theorem execCtxRestore_canon (q) (src) (ctx) (full) (s : State) (hs : Canon s.mem) (t : State) (ht : (execCtxRestore q src ctx full s) = .next t) :
    Canon t.mem := by
  unfold execCtxRestore at ht
  grind [→ inOrder_mem, → inOrder_canon, ctxWrite_canon]

theorem execCtxStopSave_canon (q) (src) (ctx) (full) (s : State) (hs : Canon s.mem) (t : State) (ht : (execCtxStopSave q src ctx full s) = .next t) :
    Canon t.mem := by
  unfold execCtxStopSave at ht
  grind [→ inOrder_mem, → inOrder_canon, ctxWrite_canon]

theorem execCtxStopDiscard_canon (q) (src) (ctx) (full) (s : State) (hs : Canon s.mem) (t : State) (ht : (execCtxStopDiscard q src ctx full s) = .next t) :
    Canon t.mem := by
  unfold execCtxStopDiscard at ht
  grind [→ inOrder_mem, → inOrder_canon, ctxWrite_canon]

theorem execCtxPreempt_canon (q) (src) (ctx) (full) (s : State) (hs : Canon s.mem) (t : State) (ht : (execCtxPreempt q src ctx full s) = .next t) :
    Canon t.mem := by
  unfold execCtxPreempt at ht
  grind [→ inOrder_mem, → inOrder_canon, ctxWrite_canon]

theorem execCtxCheckpoint_canon (q) (src) (ctx) (full) (s : State) (hs : Canon s.mem) (t : State) (ht : (execCtxCheckpoint q src ctx full s) = .next t) :
    Canon t.mem := by
  unfold execCtxCheckpoint at ht
  grind [→ inOrder_mem, → inOrder_canon, ctxWrite_canon]

theorem execCtxResume_canon (q) (src) (ctx) (full) (s : State) (hs : Canon s.mem) (t : State) (ht : (execCtxResume q src ctx full s) = .next t) :
    Canon t.mem := by
  unfold execCtxResume at ht
  grind [→ inOrder_mem, → inOrder_canon, ctxWrite_canon]

theorem execGraceExpiry_mem (q) (s : State) (t : State) (ht : (execGraceExpiry q s) = .next t) :
    t.mem = s.mem := by
  unfold execGraceExpiry at ht
  grind [stop_mem]

theorem settleAtomic_canon (s : State) (i) (hs : Canon s.mem) :
    Canon (s.settleAtomic i).mem := by
  unfold State.settleAtomic
  grind [farExecute_canon, finishLoad_canon, foldl_mem, foldl_canon, foldl_mem_snd, foldl_canon_snd, foldl_mem_fst, foldl_canon_fst, Option.getD, canon_sSet, SOut.All, Body.All, SVal.All, Mv.All, MvEnd.All, RecEnd.All, Rows.All]

theorem quiesced_canon (s : State) (i) (hs : Canon s.mem) :
    Canon (s.quiesced i).mem := by
  unfold State.quiesced
  grind [drain_canon, settleAtomic_canon, modQ_mem]

theorem execQuiesceComplete_canon (q) (s : State) (hs : Canon s.mem) (t : State) (ht : (execQuiesceComplete q s) = .next t) :
    Canon t.mem := by
  unfold execQuiesceComplete at ht
  grind [drain_canon, quiesced_canon, modQ_mem, actionEnd_canon]

theorem tipDiscard_mem (s : State) (t) :
    (s.tipDiscard t).mem = s.mem := by
  unfold State.tipDiscard
  grind [colophon_mem, colophon_canon, setQmap_mem, modQ_mem, emit_mem]

theorem loadImage_mem (s : State) (i) (base) (t : State) (ht : (s.loadImage i base) = some t) :
    t.mem = s.mem := by
  unfold State.loadImage at ht
  grind [→ restoreImage_mem]

theorem tipCommit_canon (s : State) (t) (result) (srcFailed) (hs : Canon s.mem) :
    Canon (s.tipCommit t result srcFailed).mem := by
  unfold State.tipCommit
  grind [colophon_mem, colophon_canon, setQmap_mem, modQ_mem, emit_mem, availEvent_canon]

theorem tipLost_canon (s : State) (t) (hs : Canon s.mem) :
    Canon (s.tipLost t).mem := by
  unfold State.tipLost
  grind [tipDiscard_mem, contextFatal_canon, modQ_mem, colophon_mem, colophon_canon, setQmap_mem, availEvent_canon, deviceEvent_canon]

theorem earlierImage_mem (s : State) (x1) (t : State) (ht : (s.earlierImage x1) = some t) :
    t.mem = s.mem := by
  unfold State.earlierImage at ht
  grind [→ restoreImage_mem]

theorem tipRollback_canon (s : State) (t) (hs : Canon s.mem) :
    Canon (s.tipRollback t).mem := by
  unfold State.tipRollback
  grind [→ earlierImage_mem, tipCommit_canon, deviceEvent_canon, tipLost_canon]

theorem tipTarget_mem (s : State) (src) (spare) :
    (s.tipTarget src spare).mem = s.mem := by
  unfold State.tipTarget
  grind [setReg_mem, modQ_mem, isolate_mem]

theorem execRestoreComplete_canon (q) (s : State) (hs : Canon s.mem) (t : State) (ht : (execRestoreComplete q s) = .next t) :
    Canon t.mem := by
  unfold execRestoreComplete at ht
  grind [→ loadImage_mem, modQ_mem, actionEnd_canon, ctxResult_mem, emit_mem]

theorem execCinvL2Complete_canon (q) (s : State) (hs : Canon s.mem) (t : State) (ht : (execCinvL2Complete q s) = .next t) :
    Canon t.mem := by
  unfold execCinvL2Complete at ht
  grind [setQ_mem, createFinish_canon]

theorem execTipIn_mem (logical) (spare) (s : State) (t : State) (ht : (execTipIn logical spare s) = .next t) :
    t.mem = s.mem := by
  unfold execTipIn at ht
  grind [colophon_mem, colophon_canon, setQmap_mem, modQ_mem, tipTarget_mem, emit_mem]

theorem execTipInCommit_canon (logical) (s : State) (hs : Canon s.mem) (t : State) (ht : (execTipInCommit logical s) = .next t) :
    Canon t.mem := by
  unfold execTipInCommit at ht
  grind [tipCommit_canon]

theorem tipResume_mem (s : State) (t) :
    (s.tipResume t).mem = s.mem := by
  unfold State.tipResume
  grind [tipDiscard_mem, modQ_mem, → loadImage_mem]

theorem tipOther_canon (s : State) (t) (hs : Canon s.mem) :
    Canon (s.tipOther t).mem := by
  unfold State.tipOther
  grind [modQ_mem, tipTarget_mem, tipRollback_canon, tipLost_canon]

theorem execTipInFailure_canon (logical) (what) (s : State) (hs : Canon s.mem) (t : State) (ht : (execTipInFailure logical what s) = .next t) :
    Canon t.mem := by
  unfold execTipInFailure at ht
  grind [tipRollback_canon, tipResume_mem, tipOther_canon]

theorem execQIrqSet_mem (q) (src) (num) (s : State) (t : State) (ht : (execQIrqSet q src num s) = .next t) :
    t.mem = s.mem := by
  unfold execQIrqSet at ht
  grind [→ inOrder_mem, → inOrder_canon, quireGate_mem, quireGate_canon, reject_mem, raiseIrq_mem]

theorem execSaveCommit_canon (q) (s : State) (hs : Canon s.mem) (t : State) (ht : execSaveCommit q s = .next t) :
    Canon t.mem := by
  unfold execSaveCommit at ht
  grind [tipDiscard_mem, tipRollback_canon, ctxResult_mem, emit_mem, contextFatal_canon, modQ_mem, actionEnd_canon, → saveCommit_canon]

end Sys2Proof.Machine
end

