-- ==== Sys2Proof/Laws/MemDoorbells.lean ====
section
/-!
SUPPORT. What a doorbell leaves of memory: all of it, or its canonical form.
-/
namespace Sys2Proof.Machine

set_option Elab.async false

theorem dbTail_mem (s : State) (src) (n) (v) :
    (s.dbTail src n v).mem = s.mem := by
  unfold State.dbTail
  grind [reject_mem, setQueue_mem]

theorem dbHead_mem (s : State) (src) (n) (v) :
    (s.dbHead src n v).mem = s.mem := by
  unfold State.dbHead
  grind [setQueue_mem, reject_mem]

theorem dbQirq_mem (s : State) (n) (v) :
    (s.dbQirq n v).mem = s.mem := by
  unfold State.dbQirq
  grind [raiseIrq_mem, foldl_mem, foldl_canon, foldl_mem_snd, foldl_canon_snd, foldl_mem_fst, foldl_canon_fst, Option.getD, canon_sSet, SOut.All, Body.All, SVal.All, Mv.All, MvEnd.All, Rows.All]

theorem dbWrite_mem (s : State) (src) (n) (off) (v) :
    (s.dbWrite src n off v).mem = s.mem := by
  unfold State.dbWrite
  grind [dbTail_mem, dbHead_mem, dbQirq_mem]

theorem dbBuffer_mem (s : State) (n) (off) (v) :
    (s.dbBuffer n off v).mem = s.mem := by
  unfold State.dbBuffer
  grind [setFld_mem]

theorem dbReplay_mem (s : State) :
    (s.dbReplay).mem = s.mem := by
  unfold State.dbReplay
  grind [dbWrite_mem, foldl_mem, foldl_canon, foldl_mem_snd, foldl_canon_snd, foldl_mem_fst, foldl_canon_fst, Option.getD, canon_sSet, SOut.All, Body.All, SVal.All, Mv.All, MvEnd.All, Rows.All]

end Sys2Proof.Machine
end

