-- ==== Sys2Proof/Laws/MemEngines.lean ====
section
/-!
SUPPORT. What an engine leaves of memory: all of it, or its canonical form.
-/
namespace Sys2Proof.Machine

set_option Elab.async false

theorem modEng_mem (s : State) (e) (f) :
    (s.modEng e f).mem = s.mem := by
  unfold State.modEng
  grind [setEng_mem]

theorem modBank_mem (s : State) (e) (b) (f) :
    (s.modBank e b f).mem = s.mem := by
  unfold State.modBank
  grind [modEng_mem]

theorem syncVal_mem (s : State) (e) (reg) (old) :
    (s.syncVal e reg old).2.mem = s.mem := by
  unfold State.syncVal
  grind [fresh_mem]

theorem bankEvent_mem (s : State) (e) (b) (bitNo) :
    (s.bankEvent e b bitNo).mem = s.mem := by
  unfold State.bankEvent
  grind [modBank_mem]

theorem streamEvent_mem (s : State) (id) (bitNo) :
    (s.streamEvent id bitNo).mem = s.mem := by
  unfold State.streamEvent
  grind [bankEvent_mem]

theorem vector_mem (s : State) (e) (vec) :
    (s.vector e vec).2.mem = s.mem := by
  unfold State.vector
  grind [syncVal_mem]

theorem enterCtx_mem (s : State) (e) (b) (vec) (code) (info) (epc) (addr) :
    (s.enterCtx e b vec code info epc addr).mem = s.mem := by
  unfold State.enterCtx
  grind [vector_mem, fresh_mem, modBank_mem, emit_mem]

theorem enterFast_mem (s : State) (e) (vec) (code) (info) :
    (s.enterFast e vec code info).mem = s.mem := by
  unfold State.enterFast
  grind [vector_mem, modBank_mem, emit_mem]

theorem fastEntry_mem (s : State) (e) (t : State) (ht : (s.fastEntry e) = some t) :
    t.mem = s.mem := by
  unfold State.fastEntry at ht
  grind [setEng_mem, enterFast_mem]

theorem fastEntryD_mem (s : State) (e) (d : State) (hd : d.mem = s.mem) : ((s.fastEntry e).getD d).mem = s.mem := by
  cases h : s.fastEntry e with
  | none => exact hd
  | some t => exact fastEntry_mem s e t h

theorem haltEngine_mem (s : State) (e) (vec) :
    (s.haltEngine e vec).mem = s.mem := by
  unfold State.haltEngine
  grind [endStream_mem, modEng_mem, emit_mem, foldl_mem, foldl_canon, foldl_mem_snd, foldl_canon_snd, foldl_mem_fst, foldl_canon_fst, Option.getD, canon_sSet, SOut.All, Body.All, SVal.All, Mv.All, MvEnd.All, Rows.All]

theorem raiseS_mem (s : State) (e) (b) (vec) (code) (epc) (addr) :
    (s.raiseS e b vec code epc addr).mem = s.mem := by
  unfold State.raiseS
  grind [enterCtx_mem, → fastEntry_mem, fastEntryD_mem, modBank_mem, modEng_mem, haltEngine_mem]

theorem boundary_mem (s : State) (e) (b) (t : State) (ht : (s.boundary e b) = some t) :
    t.mem = s.mem := by
  unfold State.boundary at ht
  grind [→ fastEntry_mem, modBank_mem, enterCtx_mem]

theorem boundaryD_mem (s : State) (e) (b) (d : State) (hd : d.mem = s.mem) : ((s.boundary e b).getD d).mem = s.mem := by
  cases h : s.boundary e b with
  | none => exact hd
  | some t => exact boundary_mem s e b t h

theorem stitch_mem (s : State) (e) (b) (op : State → SOut) (h_op : ∀ u, (op u).All (fun t => t.mem = u.mem)) (t : State) (ht : (s.stitch e b op) = .next t) :
    t.mem = s.mem := by
  unfold State.stitch at ht
  grind [→ boundary_mem, modEng_mem, modBank_mem, raiseS_mem, foldl_mem, foldl_canon, foldl_mem_snd, foldl_canon_snd, foldl_mem_fst, foldl_canon_fst, Option.getD, canon_sSet, SOut.All, Body.All, SVal.All, Mv.All, MvEnd.All, Rows.All]

theorem stitch_canon (s : State) (e) (b) (op : State → SOut) (hs : Canon s.mem) (h_op : ∀ u, Canon u.mem → (op u).All (fun t => Canon t.mem)) (t : State) (ht : (s.stitch e b op) = .next t) :
    Canon t.mem := by
  unfold State.stitch at ht
  grind [→ boundary_mem, modEng_mem, modBank_mem, raiseS_mem, → stitch_mem, foldl_mem, foldl_canon, foldl_mem_snd, foldl_canon_snd, foldl_mem_fst, foldl_canon_fst, Option.getD, canon_sSet, SOut.All, Body.All, SVal.All, Mv.All, MvEnd.All, Rows.All]

theorem putCore_mem (s : State) (e) (b) (c) :
    (s.putCore e b c).mem = s.mem := by
  unfold State.putCore
  grind [modEng_mem, modBank_mem]

theorem core_mem (s : State) (e) (b) (len) (op) :
    ((s.core e b len op)).All (fun t => t.mem = s.mem) := by
  unfold State.core
  grind [putCore_mem, foldl_mem, foldl_canon, foldl_mem_snd, foldl_canon_snd, foldl_mem_fst, foldl_canon_fst, Option.getD, canon_sSet, SOut.All, Body.All, SVal.All, Mv.All, MvEnd.All, Rows.All]

theorem core_canon (s : State) (e) (b) (len) (op) (hs : Canon s.mem) :
    ((s.core e b len op)).All (fun t => Canon t.mem) := by
  unfold State.core
  grind [putCore_mem, core_mem, foldl_mem, foldl_canon, foldl_mem_snd, foldl_canon_snd, foldl_mem_fst, foldl_canon_fst, Option.getD, canon_sSet, SOut.All, Body.All, SVal.All, Mv.All, MvEnd.All, Rows.All]

theorem runCore_mem (s : State) (e) (b) (len) (op) (t : State) (ht : (s.runCore e b len op) = .next t) :
    t.mem = s.mem := by
  unfold State.runCore at ht
  grind [→ stitch_mem, → stitch_canon, core_mem, core_canon]

theorem execPushi8_mem (e) (b) (m) (s : State) (t : State) (ht : (execPushi8 e b m s) = .next t) :
    t.mem = s.mem := by
  unfold execPushi8 at ht
  grind [→ runCore_mem]

theorem execPushi16_mem (e) (b) (m) (w) (s : State) (t : State) (ht : (execPushi16 e b m w s) = .next t) :
    t.mem = s.mem := by
  unfold execPushi16 at ht
  grind [→ runCore_mem]

theorem execPushi32_mem (e) (b) (m) (w) (s : State) (t : State) (ht : (execPushi32 e b m w s) = .next t) :
    t.mem = s.mem := by
  unfold execPushi32 at ht
  grind [→ runCore_mem]

theorem execPick_mem (e) (b) (m) (s : State) (t : State) (ht : (execPick e b m s) = .next t) :
    t.mem = s.mem := by
  unfold execPick at ht
  grind [→ runCore_mem]

theorem execDrop_mem (e) (b) (m) (s : State) (t : State) (ht : (execDrop e b m s) = .next t) :
    t.mem = s.mem := by
  unfold execDrop at ht
  grind [→ runCore_mem]

theorem execSSwap_mem (e) (b) (m) (s : State) (t : State) (ht : (execSSwap e b m s) = .next t) :
    t.mem = s.mem := by
  unfold execSSwap at ht
  grind [→ runCore_mem]

theorem execRoll_mem (e) (b) (m) (s : State) (t : State) (ht : (execRoll e b m s) = .next t) :
    t.mem = s.mem := by
  unfold execRoll at ht
  grind [→ runCore_mem]

theorem execDepth_mem (e) (b) (m) (s : State) (t : State) (ht : (execDepth e b m s) = .next t) :
    t.mem = s.mem := by
  unfold execDepth at ht
  grind [→ runCore_mem]

theorem execSAdd_mem (e) (b) (m) (s : State) (t : State) (ht : (execSAdd e b m s) = .next t) :
    t.mem = s.mem := by
  unfold execSAdd at ht
  grind [→ runCore_mem]

theorem execAdc_mem (e) (b) (m) (s : State) (t : State) (ht : (execAdc e b m s) = .next t) :
    t.mem = s.mem := by
  unfold execAdc at ht
  grind [→ runCore_mem]

theorem execSSub_mem (e) (b) (m) (s : State) (t : State) (ht : (execSSub e b m s) = .next t) :
    t.mem = s.mem := by
  unfold execSSub at ht
  grind [→ runCore_mem]

theorem execSbc_mem (e) (b) (m) (s : State) (t : State) (ht : (execSbc e b m s) = .next t) :
    t.mem = s.mem := by
  unfold execSbc at ht
  grind [→ runCore_mem]

theorem execSAnd_mem (e) (b) (m) (s : State) (t : State) (ht : (execSAnd e b m s) = .next t) :
    t.mem = s.mem := by
  unfold execSAnd at ht
  grind [→ runCore_mem]

theorem execSOr_mem (e) (b) (m) (s : State) (t : State) (ht : (execSOr e b m s) = .next t) :
    t.mem = s.mem := by
  unfold execSOr at ht
  grind [→ runCore_mem]

theorem execSXor_mem (e) (b) (m) (s : State) (t : State) (ht : (execSXor e b m s) = .next t) :
    t.mem = s.mem := by
  unfold execSXor at ht
  grind [→ runCore_mem]

theorem execSAndn_mem (e) (b) (m) (s : State) (t : State) (ht : (execSAndn e b m s) = .next t) :
    t.mem = s.mem := by
  unfold execSAndn at ht
  grind [→ runCore_mem]

theorem execCmp_mem (e) (b) (m) (s : State) (t : State) (ht : (execCmp e b m s) = .next t) :
    t.mem = s.mem := by
  unfold execCmp at ht
  grind [→ runCore_mem]

theorem execSTst_mem (e) (b) (m) (s : State) (t : State) (ht : (execSTst e b m s) = .next t) :
    t.mem = s.mem := by
  unfold execSTst at ht
  grind [→ runCore_mem]

theorem execSAddi_mem (e) (b) (m) (s : State) (t : State) (ht : (execSAddi e b m s) = .next t) :
    t.mem = s.mem := by
  unfold execSAddi at ht
  grind [→ runCore_mem]

theorem execNeg_mem (e) (b) (m) (s : State) (t : State) (ht : (execNeg e b m s) = .next t) :
    t.mem = s.mem := by
  unfold execNeg at ht
  grind [→ runCore_mem]

theorem execNot_mem (e) (b) (m) (s : State) (t : State) (ht : (execNot e b m s) = .next t) :
    t.mem = s.mem := by
  unfold execNot at ht
  grind [→ runCore_mem]

theorem execShl_mem (e) (b) (m) (s : State) (t : State) (ht : (execShl e b m s) = .next t) :
    t.mem = s.mem := by
  unfold execShl at ht
  grind [→ runCore_mem]

theorem execShr_mem (e) (b) (m) (s : State) (t : State) (ht : (execShr e b m s) = .next t) :
    t.mem = s.mem := by
  unfold execShr at ht
  grind [→ runCore_mem]

theorem execSar_mem (e) (b) (m) (s : State) (t : State) (ht : (execSar e b m s) = .next t) :
    t.mem = s.mem := by
  unfold execSar at ht
  grind [→ runCore_mem]

theorem execSRor_mem (e) (b) (m) (s : State) (t : State) (ht : (execSRor e b m s) = .next t) :
    t.mem = s.mem := by
  unfold execSRor at ht
  grind [→ runCore_mem]

theorem execSMul_mem (e) (b) (m) (s : State) (t : State) (ht : (execSMul e b m s) = .next t) :
    t.mem = s.mem := by
  unfold execSMul at ht
  grind [→ runCore_mem]

theorem execSDiv_mem (e) (b) (m) (s : State) (t : State) (ht : (execSDiv e b m s) = .next t) :
    t.mem = s.mem := by
  unfold execSDiv at ht
  grind [→ runCore_mem]

theorem execSRem_mem (e) (b) (m) (s : State) (t : State) (ht : (execSRem e b m s) = .next t) :
    t.mem = s.mem := by
  unfold execSRem at ht
  grind [→ runCore_mem]

theorem execFadds_mem (e) (b) (m) (s : State) (t : State) (ht : (execFadds e b m s) = .next t) :
    t.mem = s.mem := by
  unfold execFadds at ht
  grind [→ runCore_mem]

theorem execFsubs_mem (e) (b) (m) (s : State) (t : State) (ht : (execFsubs e b m s) = .next t) :
    t.mem = s.mem := by
  unfold execFsubs at ht
  grind [→ runCore_mem]

theorem execFmulr_mem (e) (b) (m) (s : State) (t : State) (ht : (execFmulr e b m s) = .next t) :
    t.mem = s.mem := by
  unfold execFmulr at ht
  grind [→ runCore_mem]

theorem execAccld_mem (e) (b) (m) (s : State) (t : State) (ht : (execAccld e b m s) = .next t) :
    t.mem = s.mem := by
  unfold execAccld at ht
  grind [→ runCore_mem]

theorem execAccadd_mem (e) (b) (m) (s : State) (t : State) (ht : (execAccadd e b m s) = .next t) :
    t.mem = s.mem := by
  unfold execAccadd at ht
  grind [→ runCore_mem]

theorem execMac_mem (e) (b) (m) (s : State) (t : State) (ht : (execMac e b m s) = .next t) :
    t.mem = s.mem := by
  unfold execMac at ht
  grind [→ runCore_mem]

theorem execMsu_mem (e) (b) (m) (s : State) (t : State) (ht : (execMsu e b m s) = .next t) :
    t.mem = s.mem := by
  unfold execMsu at ht
  grind [→ runCore_mem]

theorem execAccst_mem (e) (b) (m) (s : State) (t : State) (ht : (execAccst e b m s) = .next t) :
    t.mem = s.mem := by
  unfold execAccst at ht
  grind [→ runCore_mem]

theorem execAccshr_mem (e) (b) (m) (s : State) (t : State) (ht : (execAccshr e b m s) = .next t) :
    t.mem = s.mem := by
  unfold execAccshr at ht
  grind [→ runCore_mem]

theorem execAccclr_mem (e) (b) (m) (s : State) (t : State) (ht : (execAccclr e b m s) = .next t) :
    t.mem = s.mem := by
  unfold execAccclr at ht
  grind [→ runCore_mem]

theorem execAccget_mem (e) (b) (m) (s : State) (t : State) (ht : (execAccget e b m s) = .next t) :
    t.mem = s.mem := by
  unfold execAccget at ht
  grind [→ runCore_mem]

theorem execAccput_mem (e) (b) (m) (s : State) (t : State) (ht : (execAccput e b m s) = .next t) :
    t.mem = s.mem := by
  unfold execAccput at ht
  grind [→ runCore_mem]

theorem execPar_mem (e) (b) (m) (s : State) (t : State) (ht : (execPar e b m s) = .next t) :
    t.mem = s.mem := by
  unfold execPar at ht
  grind [→ runCore_mem]

theorem execSBrev_mem (e) (b) (m) (s : State) (t : State) (ht : (execSBrev e b m s) = .next t) :
    t.mem = s.mem := by
  unfold execSBrev at ht
  grind [→ runCore_mem]

theorem execSPopc_mem (e) (b) (m) (s : State) (t : State) (ht : (execSPopc e b m s) = .next t) :
    t.mem = s.mem := by
  unfold execSPopc at ht
  grind [→ runCore_mem]

theorem execSClz_mem (e) (b) (m) (s : State) (t : State) (ht : (execSClz e b m s) = .next t) :
    t.mem = s.mem := by
  unfold execSClz at ht
  grind [→ runCore_mem]

theorem execSBswap_mem (e) (b) (m) (s : State) (t : State) (ht : (execSBswap e b m s) = .next t) :
    t.mem = s.mem := by
  unfold execSBswap at ht
  grind [→ runCore_mem]

theorem execDadd_mem (e) (b) (m) (s : State) (t : State) (ht : (execDadd e b m s) = .next t) :
    t.mem = s.mem := by
  unfold execDadd at ht
  grind [→ runCore_mem]

theorem execDsub_mem (e) (b) (m) (s : State) (t : State) (ht : (execDsub e b m s) = .next t) :
    t.mem = s.mem := by
  unfold execDsub at ht
  grind [→ runCore_mem]

theorem execDadj_mem (e) (b) (m) (s : State) (t : State) (ht : (execDadj e b m s) = .next t) :
    t.mem = s.mem := by
  unfold execDadj at ht
  grind [→ runCore_mem]

theorem execSNop_mem (e) (b) (m) (s : State) (t : State) (ht : (execSNop e b m s) = .next t) :
    t.mem = s.mem := by
  unfold execSNop at ht
  grind [→ runCore_mem]

theorem crcS_mem (s : State) (e) (b) (m) :
    ((s.crcS e b m)).All (fun t => t.mem = s.mem) := by
  unfold State.crcS
  grind [syncVal_mem, core_mem, core_canon]

theorem crcS_canon (s : State) (e) (b) (m) (hs : Canon s.mem) :
    ((s.crcS e b m)).All (fun t => Canon t.mem) := by
  unfold State.crcS
  grind [syncVal_mem, core_mem, core_canon, crcS_mem]

theorem execSCrc_mem (e) (b) (m) (s : State) (t : State) (ht : (execSCrc e b m s) = .next t) :
    t.mem = s.mem := by
  unfold execSCrc at ht
  grind [→ stitch_mem, → stitch_canon, crcS_mem, crcS_canon]

theorem execMulProductLand_mem (e) (b) (s : State) (t : State) (ht : (execMulProductLand e b s) = .next t) :
    t.mem = s.mem := by
  unfold execMulProductLand at ht
  grind [modBank_mem]

theorem ldl_mem (s : State) (e) (b) (m) :
    ((s.ldl e b m)).All (fun t => t.mem = s.mem) := by
  unfold State.ldl
  grind [core_mem, core_canon]

theorem ldl_canon (s : State) (e) (b) (m) (hs : Canon s.mem) :
    ((s.ldl e b m)).All (fun t => Canon t.mem) := by
  unfold State.ldl
  grind [core_mem, core_canon, ldl_mem]

theorem stl_mem (s : State) (e) (b) (m) :
    ((s.stl e b m)).All (fun t => t.mem = s.mem) := by
  unfold State.stl
  grind [core_mem, core_canon, modEng_mem, foldl_mem, foldl_canon, foldl_mem_snd, foldl_canon_snd, foldl_mem_fst, foldl_canon_fst, Option.getD, canon_sSet, SOut.All, Body.All, SVal.All, Mv.All, MvEnd.All, Rows.All]

theorem stl_canon (s : State) (e) (b) (m) (hs : Canon s.mem) :
    ((s.stl e b m)).All (fun t => Canon t.mem) := by
  unfold State.stl
  grind [core_mem, core_canon, modEng_mem, stl_mem, foldl_mem, foldl_canon, foldl_mem_snd, foldl_canon_snd, foldl_mem_fst, foldl_canon_fst, Option.getD, canon_sSet, SOut.All, Body.All, SVal.All, Mv.All, MvEnd.All, Rows.All]

theorem readSr_mem (s : State) (e) (b) (n) (t) (ht : (s.readSr e b n) = some t) :
    t.2.mem = s.mem := by
  unfold State.readSr at ht
  grind [fresh_mem, syncVal_mem, modBank_mem]

theorem execLdl_mem (e) (b) (m) (s : State) (t : State) (ht : (execLdl e b m s) = .next t) :
    t.mem = s.mem := by
  unfold execLdl at ht
  grind [→ stitch_mem, → stitch_canon, ldl_mem, ldl_canon]

theorem execStl_mem (e) (b) (m) (s : State) (t : State) (ht : (execStl e b m s) = .next t) :
    t.mem = s.mem := by
  unfold execStl at ht
  grind [→ stitch_mem, → stitch_canon, stl_mem, stl_canon]

theorem execBr_mem (e) (b) (m) (s : State) (t : State) (ht : (execBr e b m s) = .next t) :
    t.mem = s.mem := by
  unfold execBr at ht
  grind [→ stitch_mem, → stitch_canon, foldl_mem, foldl_canon, foldl_mem_snd, foldl_canon_snd, foldl_mem_fst, foldl_canon_fst, Option.getD, canon_sSet, SOut.All, Body.All, SVal.All, Mv.All, MvEnd.All, Rows.All]

theorem execBrl_mem (e) (b) (m) (w) (s : State) (t : State) (ht : (execBrl e b m w s) = .next t) :
    t.mem = s.mem := by
  unfold execBrl at ht
  grind [→ stitch_mem, → stitch_canon, foldl_mem, foldl_canon, foldl_mem_snd, foldl_canon_snd, foldl_mem_fst, foldl_canon_fst, Option.getD, canon_sSet, SOut.All, Body.All, SVal.All, Mv.All, MvEnd.All, Rows.All]

theorem pushRet_mem (s : State) (e) (b) (ret) (t : State) (ht : (s.pushRet e b ret) = some t) :
    t.mem = s.mem := by
  unfold State.pushRet at ht
  grind [modBank_mem, modEng_mem]

theorem callTo_mem (s : State) (e) (b) (ret) (target) :
    ((s.callTo e b ret target)).All (fun t => t.mem = s.mem) := by
  unfold State.callTo
  grind [→ pushRet_mem, foldl_mem, foldl_canon, foldl_mem_snd, foldl_canon_snd, foldl_mem_fst, foldl_canon_fst, Option.getD, canon_sSet, SOut.All, Body.All, SVal.All, Mv.All, MvEnd.All, Rows.All]

theorem callTo_canon (s : State) (e) (b) (ret) (target) (hs : Canon s.mem) :
    ((s.callTo e b ret target)).All (fun t => Canon t.mem) := by
  unfold State.callTo
  grind [→ pushRet_mem, callTo_mem, foldl_mem, foldl_canon, foldl_mem_snd, foldl_canon_snd, foldl_mem_fst, foldl_canon_fst, Option.getD, canon_sSet, SOut.All, Body.All, SVal.All, Mv.All, MvEnd.All, Rows.All]

theorem execCall_mem (e) (b) (m) (w) (s : State) (t : State) (ht : (execCall e b m w s) = .next t) :
    t.mem = s.mem := by
  unfold execCall at ht
  grind [→ stitch_mem, → stitch_canon, callTo_mem, callTo_canon, foldl_mem, foldl_canon, foldl_mem_snd, foldl_canon_snd, foldl_mem_fst, foldl_canon_fst, Option.getD, canon_sSet, SOut.All, Body.All, SVal.All, Mv.All, MvEnd.All, Rows.All]

theorem execCalli_mem (e) (b) (m) (s : State) (t : State) (ht : (execCalli e b m s) = .next t) :
    t.mem = s.mem := by
  unfold execCalli at ht
  grind [→ stitch_mem, → stitch_canon, core_mem, core_canon, callTo_mem, callTo_canon, foldl_mem, foldl_canon, foldl_mem_snd, foldl_canon_snd, foldl_mem_fst, foldl_canon_fst, Option.getD, canon_sSet, SOut.All, Body.All, SVal.All, Mv.All, MvEnd.All, Rows.All]

theorem execJmpi_mem (e) (b) (m) (s : State) (t : State) (ht : (execJmpi e b m s) = .next t) :
    t.mem = s.mem := by
  unfold execJmpi at ht
  grind [→ stitch_mem, → stitch_canon, core_mem, core_canon, foldl_mem, foldl_canon, foldl_mem_snd, foldl_canon_snd, foldl_mem_fst, foldl_canon_fst, Option.getD, canon_sSet, SOut.All, Body.All, SVal.All, Mv.All, MvEnd.All, Rows.All]

theorem execRet_mem (e) (b) (m) (s : State) (t : State) (ht : (execRet e b m s) = .next t) :
    t.mem = s.mem := by
  unfold execRet at ht
  grind [→ stitch_mem, → stitch_canon, modBank_mem, foldl_mem, foldl_canon, foldl_mem_snd, foldl_canon_snd, foldl_mem_fst, foldl_canon_fst, Option.getD, canon_sSet, SOut.All, Body.All, SVal.All, Mv.All, MvEnd.All, Rows.All]

theorem execBcc_mem (e) (b) (c) (m) (s : State) (t : State) (ht : (execBcc e b c m s) = .next t) :
    t.mem = s.mem := by
  unfold execBcc at ht
  grind [→ stitch_mem, → stitch_canon, foldl_mem, foldl_canon, foldl_mem_snd, foldl_canon_snd, foldl_mem_fst, foldl_canon_fst, Option.getD, canon_sSet, SOut.All, Body.All, SVal.All, Mv.All, MvEnd.All, Rows.All]

theorem execReti_mem (e) (b) (m) (s : State) (t : State) (ht : execReti e b m s = .next t) :
    t.mem = s.mem := by
  unfold execReti at ht
  grind [→ fastEntry_mem, fastEntryD_mem, modEng_mem, modBank_mem, → stitch_mem, → stitch_canon, foldl_mem, foldl_canon, foldl_mem_snd, foldl_canon_snd, foldl_mem_fst, foldl_canon_fst, Option.getD, canon_sSet, SOut.All, Body.All, SVal.All, Mv.All, Rows.All]

theorem writeSr_mem (s : State) (e) (b) (n) (v) (t : State) (ht : (s.writeSr e b n v) = some t) :
    t.mem = s.mem := by
  unfold State.writeSr at ht
  grind [modBank_mem, modEng_mem]

theorem rdsr_mem (s : State) (e) (b) (m) :
    (s.rdsr e b m).All (fun t => t.mem = s.mem) := by
  unfold State.rdsr
  grind [core_mem, core_canon, → readSr_mem, foldl_mem, foldl_canon, foldl_mem_snd, foldl_canon_snd, foldl_mem_fst, foldl_canon_fst, Option.getD, canon_sSet, SOut.All, Body.All, SVal.All, Mv.All, Rows.All]

theorem rdsr_canon (s : State) (e) (b) (m) (hs : Canon s.mem) :
    (s.rdsr e b m).All (fun t => Canon t.mem) := by
  unfold State.rdsr
  grind [core_mem, core_canon, → readSr_mem, foldl_mem, foldl_canon, foldl_mem_snd, foldl_canon_snd, foldl_mem_fst, foldl_canon_fst, Option.getD, canon_sSet, SOut.All, Body.All, SVal.All, Mv.All, Rows.All]

theorem execRdsr_mem (e) (b) (m) (s : State) (t : State) (ht : (execRdsr e b m s) = .next t) :
    t.mem = s.mem := by
  unfold execRdsr at ht
  grind [→ stitch_mem, → stitch_canon, rdsr_mem, rdsr_canon]

theorem execWrsr_mem (e) (b) (m) (s : State) (t : State) (ht : (execWrsr e b m s) = .next t) :
    t.mem = s.mem := by
  unfold execWrsr at ht
  grind [→ stitch_mem, → stitch_canon, core_mem, core_canon, → writeSr_mem, foldl_mem, foldl_canon, foldl_mem_snd, foldl_canon_snd, foldl_mem_fst, foldl_canon_fst, Option.getD, canon_sSet, SOut.All, Body.All, SVal.All, Mv.All, MvEnd.All, Rows.All]

theorem execSync_mem (e) (b) (m) (s : State) (t : State) (ht : (execSync e b m s) = .next t) :
    t.mem = s.mem := by
  unfold execSync at ht
  grind [→ stitch_mem, → stitch_canon, modEng_mem, foldl_mem, foldl_canon, foldl_mem_snd, foldl_canon_snd, foldl_mem_fst, foldl_canon_fst, Option.getD, canon_sSet, SOut.All, Body.All, SVal.All, Mv.All, MvEnd.All, Rows.All]

theorem execSWait_mem (e) (b) (m) (s : State) (t : State) (ht : (execSWait e b m s) = .next t) :
    t.mem = s.mem := by
  unfold execSWait at ht
  grind [→ stitch_mem, → stitch_canon, modBank_mem, foldl_mem, foldl_canon, foldl_mem_snd, foldl_canon_snd, foldl_mem_fst, foldl_canon_fst, Option.getD, canon_sSet, SOut.All, Body.All, SVal.All, Mv.All, MvEnd.All, Rows.All]

theorem execSwi_mem (e) (b) (m) (s : State) (t : State) (ht : (execSwi e b m s) = .next t) :
    t.mem = s.mem := by
  unfold execSwi at ht
  grind [→ stitch_mem, → stitch_canon, raiseS_mem, foldl_mem, foldl_canon, foldl_mem_snd, foldl_canon_snd, foldl_mem_fst, foldl_canon_fst, Option.getD, canon_sSet, SOut.All, Body.All, SVal.All, Mv.All, MvEnd.All, Rows.All]

theorem execDcinv_mem (e) (b) (m) (s : State) (t : State) (ht : (execDcinv e b m s) = .next t) :
    t.mem = s.mem := by
  unfold execDcinv at ht
  grind [→ stitch_mem, → stitch_canon, modEng_mem, foldl_mem, foldl_canon, foldl_mem_snd, foldl_canon_snd, foldl_mem_fst, foldl_canon_fst, Option.getD, canon_sSet, SOut.All, Body.All, SVal.All, Mv.All, MvEnd.All, Rows.All]

theorem execIllegal_mem (e) (b) (w) (s : State) (t : State) (ht : execIllegal e b w s = .next t) :
    t.mem = s.mem := by
  unfold execIllegal at ht
  grind [→ stitch_mem, → stitch_canon, foldl_mem, foldl_canon, foldl_mem_snd, foldl_canon_snd, foldl_mem_fst, foldl_canon_fst, Option.getD, canon_sSet, SOut.All, Body.All, SVal.All, Mv.All, Rows.All]

theorem execEvent_mem (e) (b) (s : State) (t : State) (ht : execEvent e b s = .next t) :
    t.mem = s.mem := by
  unfold execEvent at ht
  grind [→ boundary_mem, boundaryD_mem]

theorem execStreamFault_mem (e) (b) (s : State) (t : State) (ht : execStreamFault e b s = .next t) :
    t.mem = s.mem := by
  unfold execStreamFault at ht
  grind [→ boundary_mem, boundaryD_mem]

theorem execFastInterrupt_mem (e) (s : State) (t : State) (ht : execFastInterrupt e s = .next t) :
    t.mem = s.mem := by
  unfold execFastInterrupt at ht
  grind [→ fastEntry_mem, fastEntryD_mem, modEng_mem]

theorem execBankTimerExpiry_mem (e) (b) (s : State) (t : State) (ht : (execBankTimerExpiry e b s) = .next t) :
    t.mem = s.mem := by
  unfold execBankTimerExpiry at ht
  grind [modBank_mem]

end Sys2Proof.Machine
end

