-- ==== Sys2Proof/Laws/MemMovers.lean ====
section
/-!
SUPPORT. What a mover leaves of memory: all of it, or its canonical form.
-/
namespace Sys2Proof.Machine

set_option Elab.async false

theorem stickyFlags_mem (s : State) (e) (fl) :
    (s.stickyFlags e fl).mem = s.mem := by
  unfold State.stickyFlags
  grind [modEng_mem]

theorem recordTo_canon (s : State) (id) (x) (va) (bs) (hs : Canon s.mem) :
    (s.recordTo id x va bs).All (fun t => Canon t.mem) := by
  unfold State.recordTo
  grind [xlateStreamBytes_mem, ctxEntry_mem, → request_mem, dmaWrite_canon, hostWrite_mem, RecEnd.All]

theorem progRecords_canon (s : State) (id) (l) (hs : Canon s.mem) :
    Canon (s.progRecords id l).mem := by
  induction l generalizing s with
  | nil => exact (setStream_mem _ _ _).symm ▸ hs
  | cons p r ih =>
    unfold State.progRecords
    have h := recordTo_canon s id (s.stream id) ((s.stream id).caddr + 0x10) (leBytes 8 p) hs
    split <;> rename_i e <;> rw [e] at h
    · exact ih _ h
    · exact ih _ h
    · exact (setStream_mem _ _ _).symm ▸ h

theorem advance_canon (s : State) (id) (n) (hs : Canon s.mem) :
    Canon (s.advance id n).mem := by
  have h : Canon (s.setStream id ((s.stream id).put 0x18 8 ((s.stream id).prog + n))).mem := (setStream_mem _ _ _).symm ▸ hs
  have k (due : List Nat) : Canon (if due.isEmpty then s.setStream id ((s.stream id).put 0x18 8 ((s.stream id).prog + n))
      else (s.setStream id ((s.stream id).put 0x18 8 ((s.stream id).prog + n))).progRecords id due).mem := by
    split
    · exact h
    · exact progRecords_canon _ _ _ h
  exact k _

theorem xfqPending_mem (s : State) :
    (s.xfqPending).mem = s.mem := by
  unfold State.xfqPending
  grind [setFld_mem]

theorem xfqWrite_canon (s : State) (r) (hs : Canon s.mem) :
    Canon (s.xfqWrite r).mem := by
  unfold State.xfqWrite
  grind [dmaWrite_canon, setFld_mem, raiseIrqN_mem]

theorem xfqStep_canon (s : State) (hs : Canon s.mem) :
    Canon (s.xfqStep).mem := by
  unfold State.xfqStep
  grind [xfqPending_mem, xfqWrite_canon]

theorem putOp_mem (s : State) (o) (new) :
    (s.putOp o new).mem = s.mem := by
  unfold State.putOp
  grind [setFrame_mem]

theorem xlateStall_canon (s : State) (o) (va) (f) (acc) (hs : Canon s.mem) :
    Canon (s.xlateStall o va f acc).mem := by
  unfold State.xlateStall
  grind [putOp_mem, setStream_mem, emit_mem, countEvent_mem, xfqPending_mem, xfqStep_canon]

theorem mvRead_mem (s : State) (x) (va) (n) :
    ((s.mvRead x va n)).All (fun t => t.mem = s.mem) := by
  unfold State.mvRead
  grind [xlateStreamBytes_mem, dmaRead_mem, logErr_mem, hostRead_mem, foldl_mem, foldl_canon, foldl_mem_snd, foldl_canon_snd, foldl_mem_fst, foldl_canon_fst, Option.getD, canon_sSet, SOut.All, Body.All, SVal.All, Mv.All, MvEnd.All, RecEnd.All, Rows.All]

theorem mvRead_canon (s : State) (x) (va) (n) (hs : Canon s.mem) :
    ((s.mvRead x va n)).All (fun t => Canon t.mem) := by
  unfold State.mvRead
  grind [xlateStreamBytes_mem, dmaRead_mem, logErr_mem, hostRead_mem, mvRead_mem, foldl_mem, foldl_canon, foldl_mem_snd, foldl_canon_snd, foldl_mem_fst, foldl_canon_fst, Option.getD, canon_sSet, SOut.All, Body.All, SVal.All, Mv.All, MvEnd.All, RecEnd.All, Rows.All]

theorem mvWrite_canon (s : State) (x) (va) (bs) (poison) (hs : Canon s.mem) :
    ((s.mvWrite x va bs poison)).All (fun t => Canon t.mem) := by
  unfold State.mvWrite
  grind [xlateStreamBytes_mem, logErr_mem, dmaWriteAt_canon, hostWrite_mem, setPoison_mem, foldl_mem, foldl_canon, foldl_mem_snd, foldl_canon_snd, foldl_mem_fst, foldl_canon_fst, Option.getD, canon_sSet, SOut.All, Body.All, SVal.All, Mv.All, MvEnd.All, RecEnd.All, Rows.All]

theorem mvIndex_mem (s : State) (x) (o) :
    ((s.mvIndex x o)).All (fun t => t.mem = s.mem) := by
  unfold State.mvIndex
  grind [mvRead_mem, mvRead_canon, foldl_mem, foldl_canon, foldl_mem_snd, foldl_canon_snd, foldl_mem_fst, foldl_canon_fst, Option.getD, canon_sSet, SOut.All, Body.All, SVal.All, Mv.All, MvEnd.All, RecEnd.All, Rows.All]

theorem mvIndex_canon (s : State) (x) (o) (hs : Canon s.mem) :
    ((s.mvIndex x o)).All (fun t => Canon t.mem) := by
  unfold State.mvIndex
  grind [mvRead_mem, mvRead_canon, mvIndex_mem, foldl_mem, foldl_canon, foldl_mem_snd, foldl_canon_snd, foldl_mem_fst, foldl_canon_fst, Option.getD, canon_sSet, SOut.All, Body.All, SVal.All, Mv.All, MvEnd.All, RecEnd.All, Rows.All]

theorem mvBytes_mem (s : State) (x) (o) (ix) (w) :
    ((s.mvBytes x o ix w)).All (fun t => t.mem = s.mem) := by
  unfold State.mvBytes
  grind [mvRead_mem, mvRead_canon, foldl_mem, foldl_canon, foldl_mem_snd, foldl_canon_snd, foldl_mem_fst, foldl_canon_fst, Option.getD, canon_sSet, SOut.All, Body.All, SVal.All, Mv.All, MvEnd.All, RecEnd.All, Rows.All]

theorem mvBytes_canon (s : State) (x) (o) (ix) (w) (hs : Canon s.mem) :
    ((s.mvBytes x o ix w)).All (fun t => Canon t.mem) := by
  unfold State.mvBytes
  grind [mvRead_mem, mvRead_canon, mvBytes_mem, foldl_mem, foldl_canon, foldl_mem_snd, foldl_canon_snd, foldl_mem_fst, foldl_canon_fst, Option.getD, canon_sSet, SOut.All, Body.All, SVal.All, Mv.All, MvEnd.All, RecEnd.All, Rows.All]

theorem settle_canon (s : State) (id) (pos) (n) (adv) (hs : Canon s.mem) :
    Canon (s.settle id pos n adv).mem := by
  unfold State.settle
  grind [advance_canon, setFrame_mem, streamEvent_mem]

theorem landMove_mem (s : State) (id) (x2) :
    (s.landMove id x2).mem = s.mem := by
  fun_induction (s.landMove id x2) <;> grind [setStream_mem, setFrame_mem]

theorem landPut_mem (s : State) (id) (pos) (bs) :
    (s.landPut id pos bs).mem = s.mem := by
  unfold State.landPut
  grind [landMove_mem]

theorem landNext_mem (s : State) (f) :
    (s.landNext f).mem = s.mem := by
  unfold State.landNext
  grind [landMove_mem, foldl_mem, foldl_canon, foldl_mem_snd, foldl_canon_snd, foldl_mem_fst, foldl_canon_fst, Option.getD, canon_sSet, SOut.All, Body.All, SVal.All, Mv.All, MvEnd.All, RecEnd.All, Rows.All]

theorem collLevel_mem (op fmt) (engOf) (l : List (Nat × Option Nat)) (s : State) : (collLevel op fmt engOf l s).2.mem = s.mem := by
  fun_induction collLevel op fmt engOf l s
  · rename_i c t ih
    show t.2.mem = _
    rw [ih]
    simp only [c]
    split
    · simp only []
      split
      · exact stickyFlags_mem _ _ _
      · rfl
    · rfl
    · rfl
  · rfl

theorem collTree_mem (op) (fmt) (engOf) (x3) (x4) (x5 : State) :
    (collTree op fmt engOf x3 x4 x5).2.mem = x5.mem := by
  fun_induction (collTree op fmt engOf x3 x4 x5) <;> grind [collLevel_mem]

theorem collTake_mem (s : State) (ids) (x0) (pos) (x4) :
    (s.collTake ids x0 pos x4).2.mem = s.mem := by
  fun_induction (s.collTake ids x0 pos x4) <;> grind [collTree_mem, setStream_mem, foldl_mem, foldl_canon, foldl_mem_snd, foldl_canon_snd, foldl_mem_fst, foldl_canon_fst, Option.getD, canon_sSet, SOut.All, Body.All, SVal.All, Mv.All, MvEnd.All, RecEnd.All, Rows.All]

theorem collRun_mem (s : State) (id) (x2) :
    (s.collRun id x2).mem = s.mem := by
  fun_induction (s.collRun id x2) <;> grind [collTake_mem, landPut_mem]

theorem collate_mem (s : State) (id) :
    (s.collate id).mem = s.mem := by
  unfold State.collate
  grind [fresh_mem, endStream_mem, collRun_mem, foldl_mem, foldl_canon, foldl_mem_snd, foldl_canon_snd, foldl_mem_fst, foldl_canon_fst, Option.getD, canon_sSet, SOut.All, Body.All, SVal.All, Mv.All, MvEnd.All, RecEnd.All, Rows.All]

theorem sendColl_mem (s : State) (x) (rank) (level) (pos) (bs) :
    (s.sendColl x rank level pos bs).mem = s.mem := by
  unfold State.sendColl
  grind [ctxEntry_mem, send_mem]

theorem sendDown_mem (s : State) (x) (pos) (bs) :
    (s.sendDown x pos bs).mem = s.mem := by
  unfold State.sendDown
  grind [sendColl_mem, foldl_mem, foldl_canon, foldl_mem_snd, foldl_canon_snd, foldl_mem_fst, foldl_canon_fst, Option.getD, canon_sSet, SOut.All, Body.All, SVal.All, Mv.All, MvEnd.All, RecEnd.All, Rows.All]

theorem collChunk_canon (s : State) (id) (pos) (n) (hs : Canon s.mem) (t : State) (ht : (s.collChunk id pos n) = some t) :
    Canon t.mem := by
  unfold State.collChunk at ht
  grind [setStream_mem, landPut_mem, sendDown_mem, stickyFlags_mem, sendColl_mem, settle_canon]

theorem collChunkD_canon (s : State) (id pos n) (d : State) (hs : Canon s.mem) (hd : Canon d.mem) :
    Canon ((s.collChunk id pos n).getD d).mem := by
  cases h : s.collChunk id pos n with
  | none => exact hd
  | some t => exact collChunk_canon s id pos n hs t h

theorem collectAll_canon (s : State) (id) (x2) (x3) (hs : Canon s.mem) :
    Canon (s.collectAll id x2 x3).mem := by
  fun_induction (s.collectAll id x2 x3) <;> grind [collChunkD_canon]

theorem sendBlocks_canon (s : State) (id) (x2) (hs : Canon s.mem) :
    Canon (s.sendBlocks id x2).mem := by
  fun_induction (s.sendBlocks id x2) <;> grind [ctxEntry_mem, setStream_mem, send_mem, advance_canon]

theorem mvFetch_mem (s : State) (o) (what) (pa) (n) :
    (s.mvFetch o what pa n).All (fun t => t.mem = s.mem) := by
  unfold State.mvFetch
  grind [→ request_mem, ctxEntry_mem, MvEnd.All]

theorem mvFetch_canon (s : State) (o) (what) (pa) (n) (hs : Canon s.mem) :
    (s.mvFetch o what pa n).All (fun t => Canon t.mem) := by
  unfold State.mvFetch
  grind [→ request_mem, ctxEntry_mem, MvEnd.All]

theorem mvGather_mem (s : State) (x) (o) (ix) (x4) :
    ((s.mvGather x o ix x4)).All (fun t => t.mem = s.mem) := by
  fun_induction (s.mvGather x o ix x4) <;> grind [mvBytes_mem, mvBytes_canon, foldl_mem, foldl_canon, foldl_mem_snd, foldl_canon_snd, foldl_mem_fst, foldl_canon_fst, Option.getD, canon_sSet, SOut.All, Body.All, SVal.All, Mv.All, MvEnd.All, RecEnd.All, Rows.All]

theorem mvGather_canon (s : State) (x) (o) (ix) (x4) (hs : Canon s.mem) :
    ((s.mvGather x o ix x4)).All (fun t => Canon t.mem) := by
  fun_induction (s.mvGather x o ix x4) <;> grind [mvBytes_mem, mvBytes_canon, mvGather_mem, foldl_mem, foldl_canon, foldl_mem_snd, foldl_canon_snd, foldl_mem_fst, foldl_canon_fst, Option.getD, canon_sSet, SOut.All, Body.All, SVal.All, Mv.All, MvEnd.All, RecEnd.All, Rows.All]

theorem mvPut_mem (s : State) (o) (pa) (bs) :
    (s.mvPut o pa bs).All (fun t => t.mem = s.mem) := by
  unfold State.mvPut
  grind [→ request_mem, ctxEntry_mem, foldl_mem, foldl_canon, foldl_mem_snd, foldl_canon_snd, foldl_mem_fst, foldl_canon_fst, Option.getD, canon_sSet, SOut.All, Body.All, SVal.All, Mv.All, MvEnd.All, Rows.All]

theorem mvPut_canon (s : State) (o) (pa) (bs) (hs : Canon s.mem) :
    (s.mvPut o pa bs).All (fun t => Canon t.mem) := by
  unfold State.mvPut
  grind [→ request_mem, ctxEntry_mem, foldl_mem, foldl_canon, foldl_mem_snd, foldl_canon_snd, foldl_mem_fst, foldl_canon_fst, Option.getD, canon_sSet, SOut.All, Body.All, SVal.All, Mv.All, MvEnd.All, Rows.All]

theorem mvCount_mem (s : State) (o) (wrote) :
    (s.mvCount o wrote).mem = s.mem := by
  unfold State.mvCount
  grind [countEvent_mem]

theorem landed_canon (s : State) (o) (n) (adv) (hs : Canon s.mem) :
    Canon (s.landed o n adv).mem := by
  unfold State.landed
  grind [settle_canon, advance_canon, foldl_mem, foldl_canon, foldl_mem_snd, foldl_canon_snd, foldl_mem_fst, foldl_canon_fst, Option.getD, canon_sSet, SOut.All, Body.All, SVal.All, Mv.All, MvEnd.All, RecEnd.All, Rows.All]

theorem mvDone_canon (s : State) (o) (hs : Canon s.mem) :
    ((s.mvDone o)).All (fun t => Canon t.mem) := by
  unfold State.mvDone
  grind [mvCount_mem, landed_canon, foldl_mem, foldl_canon, foldl_mem_snd, foldl_canon_snd, foldl_mem_fst, foldl_canon_fst, Option.getD, canon_sSet, SOut.All, Body.All, SVal.All, Mv.All, MvEnd.All, RecEnd.All, Rows.All]

theorem mvPrior_mem (s : State) (x) (o) (va) :
    ((s.mvPrior x o va)).All (fun t => t.mem = s.mem) := by
  unfold State.mvPrior
  grind [mvRead_mem, mvRead_canon, foldl_mem, foldl_canon, foldl_mem_snd, foldl_canon_snd, foldl_mem_fst, foldl_canon_fst, Option.getD, canon_sSet, SOut.All, Body.All, SVal.All, Mv.All, MvEnd.All, RecEnd.All, Rows.All]

theorem mvPrior_canon (s : State) (x) (o) (va) (hs : Canon s.mem) :
    ((s.mvPrior x o va)).All (fun t => Canon t.mem) := by
  unfold State.mvPrior
  grind [mvRead_mem, mvRead_canon, mvPrior_mem, foldl_mem, foldl_canon, foldl_mem_snd, foldl_canon_snd, foldl_mem_fst, foldl_canon_fst, Option.getD, canon_sSet, SOut.All, Body.All, SVal.All, Mv.All, MvEnd.All, RecEnd.All, Rows.All]

theorem sendResult_mem (s : State) (id) (pos) (n) :
    (s.sendResult id pos n).mem = s.mem := by
  unfold State.sendResult
  grind [setStream_mem, sendDown_mem]

theorem mvReduce_canon (s : State) (x) (o) (va) (b) (hs : Canon s.mem) :
    (s.mvReduce x o va b).All (fun t => Canon t.mem) := by
  unfold State.mvReduce
  grind [mvDone_canon, mvPut_canon, stickyFlags_mem, setStream_mem, mvWrite_canon, mvFetch_canon, mvPrior_canon, Mv.All, MvEnd.All]

theorem mvStore_canon (s : State) (x) (o) (ix) (va) (b) (poison) (hs : Canon s.mem) :
    (s.mvStore x o ix va b poison).All (fun t => Canon t.mem) := by
  unfold State.mvStore
  grind [mvDone_canon, mvFetch_canon, mvPut_canon, mvGather_canon, mvWrite_canon, Mv.All, MvEnd.All]

theorem mvElem_canon (s : State) (o) (hs : Canon s.mem) :
    (s.mvElem o).All (fun t => Canon t.mem) := by
  unfold State.mvElem
  grind [mvStore_canon, mvReduce_canon, mvIndex_canon, setStream_mem, mvCount_mem, mvFetch_canon, mvBytes_canon, Mv.All, MvEnd.All]

theorem mvRun_canon (s : State) (x1) (x2) (hs : Canon s.mem) :
    (s.mvRun x1 x2).All (fun t => Canon t.mem) := by
  fun_induction (s.mvRun x1 x2) <;> grind [mvElem_canon, MvEnd.All]

theorem opFeeds_canon (s : State) (o) (hs : Canon s.mem) :
    Canon (s.opFeeds o).mem := by
  unfold State.opFeeds
  dsimp only
  repeat' split
  · rw [sendResult_mem]; exact hs
  · exact hs
  · exact sendBlocks_canon _ _ _ hs
  · rw [collate_mem]; exact hs
  · exact collectAll_canon _ _ _ _ hs
  · exact hs

theorem opEnded_canon (s : State) (o) (hs : Canon s.mem) :
    Canon (s.opEnded o).mem := by
  unfold State.opEnded
  grind [opFeeds_canon, landNext_mem, putOp_mem, streamEvent_mem]

theorem opFailed_canon (s : State) (o) (pa) (status) (ref) (hs : Canon s.mem) :
    Canon (s.opFailed o pa status ref).mem := by
  unfold State.opFailed
  grind [emit_mem, modBank_mem, setStream_mem, putOp_mem, landNext_mem, landed_canon, streamEvent_mem]

theorem performOp_canon (s : State) (o) (hs : Canon s.mem) :
    Canon (s.performOp o).mem := by
  unfold State.performOp
  grind [putOp_mem, xlateStall_canon, opFailed_canon, opEnded_canon, mvRun_canon, MvEnd.All]

theorem performAll_canon (s : State) (id) (x2) (hs : Canon s.mem) :
    Canon (s.performAll id x2).mem := by
  fun_induction (s.performAll id x2) <;> grind [performOp_canon]

theorem checkStall_canon (s : State) (id) (hs : Canon s.mem) :
    Canon (s.checkStall id).mem := by
  unfold State.checkStall
  grind [performAll_canon]

end Sys2Proof.Machine
end

