-- ==== Sys2Proof/Laws/MemStreams.lean ====
section
/-!
SUPPORT. What a stream command leaves of memory: all of it, or its canonical form.
-/
namespace Sys2Proof.Machine

set_option Elab.async false

theorem createStream_mem (s : State) (f) (raw) (owner) (pl1) (origin) :
    (s.createStream f raw owner pl1 origin).2.mem = s.mem := by
  unfold State.createStream
  grind [ctxEntry_mem, latchUnits_mem, setStream_mem]

theorem screate_canon (s : State) (f) (src) (q) (v) (hs : Canon s.mem) :
    Canon (s.screate f src q v).mem := by
  unfold State.screate
  grind [reject_mem, logErr_mem, dmaRead_mem, createStream_mem, dmaWrite_canon]

theorem execSfScreate_canon (f) (src) (q) (v) (s : State) (hs : Canon s.mem) (t : State) (ht : (execSfScreate f src q v s) = .next t) :
    Canon t.mem := by
  unfold execSfScreate at ht
  grind [→ inOrder_mem, → inOrder_canon, gate_mem, gate_canon, screate_canon]

theorem cancel_mem (s : State) (id) :
    (s.cancel id).mem = s.mem := by
  unfold State.cancel
  grind [fresh_mem, endStream_mem]

theorem doorbell_mem (s : State) (id) :
    (s.doorbell id).mem = s.mem := by
  unfold State.doorbell
  grind [streamEvent_mem, setStream_mem]

theorem sctl_mem (s : State) (ctx) (id) (cancel) :
    (s.sctl ctx id cancel).mem = s.mem := by
  unfold State.sctl
  grind [cancel_mem, doorbell_mem]

theorem sctlWrite_mem (s : State) (f) (src) (q) (ctx) (id) (cancel) :
    (s.sctlWrite f src q ctx id cancel).mem = s.mem := by
  unfold State.sctlWrite
  grind [sctl_mem, cancel_mem]

theorem execCancel_mem (f) (src) (q) (ctx) (id) (s : State) (t : State) (ht : (execCancel f src q ctx id s) = .next t) :
    t.mem = s.mem := by
  unfold execCancel at ht
  grind [→ inOrder_mem, → inOrder_canon, gate_mem, gate_canon, sctlWrite_mem]

theorem execDoorbell_mem (f) (src) (q) (ctx) (id) (s : State) (t : State) (ht : (execDoorbell f src q ctx id s) = .next t) :
    t.mem = s.mem := by
  unfold execDoorbell at ht
  grind [→ inOrder_mem, → inOrder_canon, gate_mem, gate_canon, sctlWrite_mem]

theorem dispatch_mem (s : State) (id) (e) (b) :
    (s.dispatch id e b).mem = s.mem := by
  unfold State.dispatch
  grind [syncVal_mem, modBank_mem, setStream_mem, doorbell_mem, emit_mem, bankEvent_mem]

theorem execStreamDispatch_mem (f) (s : State) (t : State) (ht : (execStreamDispatch f s) = .next t) :
    t.mem = s.mem := by
  unfold execStreamDispatch at ht
  grind [wakeDomain_mem, dispatch_mem, fresh_mem, endStream_mem]

theorem execMoverOperationComplete_canon (id) (fail) (s : State) (hs : Canon s.mem) (t : State) (ht : (execMoverOperationComplete id fail s) = .next t) :
    Canon t.mem := by
  unfold execMoverOperationComplete at ht
  grind [performOp_canon, logErr_mem, opFailed_canon]

theorem completionRecord_canon (s : State) (id) (x) (status) (detail) (hs : Canon s.mem) (t : State) (ht : (s.completionRecord id x status detail) = some t) :
    Canon t.mem := by
  unfold State.completionRecord at ht
  grind [recordTo_canon, logErr_mem, foldl_mem, foldl_canon, foldl_mem_snd, foldl_canon_snd, foldl_mem_fst, foldl_canon_fst, Option.getD, canon_sSet, SOut.All, Body.All, SVal.All, Mv.All, MvEnd.All, RecEnd.All, Rows.All]

theorem streamToQueue_canon (s : State) (id) (x) (o) (status) (hs : Canon s.mem) :
    Canon (s.streamToQueue id x o status).mem := by
  unfold State.streamToQueue
  grind [writeSnapshot_canon, fresh_mem, writeCompletion_canon]

theorem streamLeaves_canon (s : State) (id) (o) (hs : Canon s.mem) :
    Canon (s.streamLeaves id o).mem := by
  unfold State.streamLeaves
  grind [setQueue_mem, settle_canon]

theorem onStream_mem (s : State) (e) (b) (f) (h_f : ∀ a0, (f a0).All (fun t => t.mem = s.mem)) :
    (s.onStream e b f).All (fun t => t.mem = s.mem) := by
  unfold State.onStream
  grind [foldl_mem, foldl_canon, foldl_mem_snd, foldl_canon_snd, foldl_mem_fst, foldl_canon_fst, Option.getD, canon_sSet, SOut.All, Body.All, SVal.All, Mv.All, MvEnd.All, Rows.All]

theorem onStream_canon (s : State) (e) (b) (f) (hs : Canon s.mem) (h_f : ∀ a0, (f a0).All (fun t => Canon t.mem)) :
    (s.onStream e b f).All (fun t => Canon t.mem) := by
  unfold State.onStream
  grind [foldl_mem, foldl_canon, foldl_mem_snd, foldl_canon_snd, foldl_mem_fst, foldl_canon_fst, Option.getD, canon_sSet, SOut.All, Body.All, SVal.All, Mv.All, MvEnd.All, Rows.All]

theorem execSld_mem (e) (b) (m) (s : State) (t : State) (ht : (execSld e b m s) = .next t) :
    t.mem = s.mem := by
  unfold execSld at ht
  grind [→ stitch_mem, → stitch_canon, onStream_mem, onStream_canon, core_mem, core_canon]

theorem execSst_mem (e) (b) (m) (s : State) (t : State) (ht : (execSst e b m s) = .next t) :
    t.mem = s.mem := by
  unfold execSst at ht
  grind [→ stitch_mem, → stitch_canon, onStream_mem, onStream_canon, core_mem, core_canon, setStream_mem, foldl_mem, foldl_canon, foldl_mem_snd, foldl_canon_snd, foldl_mem_fst, foldl_canon_fst, Option.getD, canon_sSet, SOut.All, Body.All, SVal.All, Mv.All, MvEnd.All, RecEnd.All, Rows.All]

theorem mvgo_canon (s : State) (e) (b) (id) (n) (hs : Canon s.mem) (t : State) (ht : (s.mvgo e b id n) = some t) :
    Canon t.mem := by
  unfold State.mvgo at ht
  grind [setStream_mem, setFrame_mem, modBank_mem, checkStall_canon]

theorem execMvgo_canon (e) (b) (m) (s : State) (hs : Canon s.mem) (t : State) (ht : (execMvgo e b m s) = .next t) :
    Canon t.mem := by
  unfold execMvgo at ht
  grind [→ stitch_mem, → stitch_canon, onStream_mem, onStream_canon, core_mem, core_canon, → mvgo_canon, modBank_mem, foldl_mem, foldl_canon, foldl_mem_snd, foldl_canon_snd, foldl_mem_fst, foldl_canon_fst, Option.getD, canon_sSet, SOut.All, Body.All, SVal.All, Mv.All, MvEnd.All, RecEnd.All, Rows.All]

theorem execMvgoResume_canon (e) (b) (s : State) (hs : Canon s.mem) (t : State) (ht : (execMvgoResume e b s) = .next t) :
    Canon t.mem := by
  unfold execMvgoResume at ht
  grind [→ mvgo_canon, modBank_mem]

theorem execMvset_mem (e) (b) (m) (s : State) (t : State) (ht : (execMvset e b m s) = .next t) :
    t.mem = s.mem := by
  unfold execMvset at ht
  grind [→ stitch_mem, → stitch_canon, onStream_mem, onStream_canon, core_mem, core_canon]

theorem execMvpend_mem (e) (b) (m) (s : State) (t : State) (ht : (execMvpend e b m s) = .next t) :
    t.mem = s.mem := by
  unfold execMvpend at ht
  grind [→ stitch_mem, → stitch_canon, onStream_mem, onStream_canon, core_mem, core_canon]

theorem creditReturn_mem (s : State) (id) (n) :
    (s.creditReturn id n).mem = s.mem := by
  unfold State.creditReturn
  grind [setStream_mem, ctxEntry_mem, send_mem]

theorem execSdone_mem (e) (b) (m) (s : State) (t : State) (ht : (execSdone e b m s) = .next t) :
    t.mem = s.mem := by
  unfold execSdone at ht
  grind [→ stitch_mem, → stitch_canon, onStream_mem, onStream_canon, core_mem, core_canon, modBank_mem, endStream_mem, foldl_mem, foldl_canon, foldl_mem_snd, foldl_canon_snd, foldl_mem_fst, foldl_canon_fst, Option.getD, canon_sSet, SOut.All, Body.All, SVal.All, Mv.All, MvEnd.All, RecEnd.All, Rows.All]

theorem execSignal_mem (e) (b) (m) (s : State) (t : State) (ht : (execSignal e b m s) = .next t) :
    t.mem = s.mem := by
  unfold execSignal at ht
  grind [→ stitch_mem, → stitch_canon, core_mem, core_canon, bankEvent_mem, foldl_mem, foldl_canon, foldl_mem_snd, foldl_canon_snd, foldl_mem_fst, foldl_canon_fst, Option.getD, canon_sSet, SOut.All, Body.All, SVal.All, Mv.All, MvEnd.All, RecEnd.All, Rows.All]

theorem execBkill_mem (e) (b) (m) (s : State) (t : State) (ht : (execBkill e b m s) = .next t) :
    t.mem = s.mem := by
  unfold execBkill at ht
  grind [→ stitch_mem, → stitch_canon, core_mem, core_canon, endStream_mem, freeBank_mem, foldl_mem, foldl_canon, foldl_mem_snd, foldl_canon_snd, foldl_mem_fst, foldl_canon_fst, Option.getD, canon_sSet, SOut.All, Body.All, SVal.All, Mv.All, MvEnd.All, RecEnd.All, Rows.All]

theorem invalidate_mem (s : State) (v) :
    (s.invalidate v).mem = s.mem := by
  unfold State.invalidate
  grind

theorem xlatInvWrite_mem (s : State) (src) (v) :
    (s.xlatInvWrite src v).mem = s.mem := by
  unfold State.xlatInvWrite
  grind [setFld_mem]

theorem execXlatInvAll_mem (s : State) (t : State) (ht : (execXlatInvAll s) = .next t) :
    t.mem = s.mem := by
  unfold execXlatInvAll at ht
  grind [xlatInvWrite_mem]

theorem execXlatInvCtx_mem (ctx) (s : State) (t : State) (ht : (execXlatInvCtx ctx s) = .next t) :
    t.mem = s.mem := by
  unfold execXlatInvCtx at ht
  grind [xlatInvWrite_mem]

theorem execXlatInvSeg_mem (ctx) (seg) (s : State) (t : State) (ht : (execXlatInvSeg ctx seg s) = .next t) :
    t.mem = s.mem := by
  unfold execXlatInvSeg at ht
  grind [xlatInvWrite_mem]

theorem execXlatInvPage_mem (ctx) (seg) (vpn) (s : State) (t : State) (ht : (execXlatInvPage ctx seg vpn s) = .next t) :
    t.mem = s.mem := by
  unfold execXlatInvPage at ht
  grind [xlatInvWrite_mem]

theorem execXlatInvCtxtbl_mem (ctx) (s : State) (t : State) (ht : (execXlatInvCtxtbl ctx s) = .next t) :
    t.mem = s.mem := by
  unfold execXlatInvCtxtbl at ht
  grind [xlatInvWrite_mem]

theorem execXlatInvComplete_canon (s : State) (hs : Canon s.mem) (t : State) (ht : (execXlatInvComplete s) = .next t) :
    Canon t.mem := by
  unfold execXlatInvComplete at ht
  grind [drain_canon, invalidate_mem, setFld_mem, foldl_mem, foldl_canon, foldl_mem_snd, foldl_canon_snd, foldl_mem_fst, foldl_canon_fst, Option.getD, canon_sSet, SOut.All, Body.All, SVal.All, Mv.All, MvEnd.All, RecEnd.All, Rows.All]

theorem execXfqRecordWrite_canon (s : State) (hs : Canon s.mem) (t : State) (ht : (execXfqRecordWrite s) = .next t) :
    Canon t.mem := by
  unfold execXfqRecordWrite at ht
  grind [xfqStep_canon]

theorem execXfqRetry_canon (ctx) (id) (s : State) (hs : Canon s.mem) (t : State) (ht : (execXfqRetry ctx id s) = .next t) :
    Canon t.mem := by
  unfold execXfqRetry at ht
  grind [setFrame_mem, setStream_mem, checkStall_canon]

theorem execXfqFail_mem (ctx) (id) (s : State) (t : State) (ht : (execXfqFail ctx id s) = .next t) :
    t.mem = s.mem := by
  unfold execXfqFail at ht
  grind [fresh_mem, endStream_mem]

theorem modFrameEngs_mem (s : State) (f) (g) :
    (s.modFrameEngs f g).mem = s.mem := by
  unfold State.modFrameEngs
  grind [modEng_mem, foldl_mem, foldl_canon, foldl_mem_snd, foldl_canon_snd, foldl_mem_fst, foldl_canon_fst, Option.getD, canon_sSet, SOut.All, Body.All, SVal.All, Mv.All, MvEnd.All, RecEnd.All, Rows.All]

theorem refusesImage_mem (s : State) (fr) :
    (s.refusesImage fr).2.mem = s.mem := by
  unfold State.refusesImage
  grind [fresh_mem]

theorem patchGo_mem (s : State) (f) (fr) :
    (s.patchGo f fr).mem = s.mem := by
  unfold State.patchGo
  grind [reject_mem, setFrame_mem, modFrameEngs_mem]

theorem patchStart_mem (s : State) (f) (src) (countm1) :
    (s.patchStart f src countm1).mem = s.mem := by
  unfold State.patchStart
  grind [reject_mem, patchGo_mem, refusesImage_mem]

theorem execPatchStart_mem (f) (src) (countm1) (s : State) (t : State) (ht : (execPatchStart f src countm1 s) = .next t) :
    t.mem = s.mem := by
  unfold execPatchStart at ht
  grind [→ inOrder_mem, → inOrder_canon, gate_mem, gate_canon, patchStart_mem]

theorem execPatchApply_mem (f) (s : State) (t : State) (ht : execPatchApply f s = .next t) :
    t.mem = s.mem := by
  unfold execPatchApply at ht
  grind [→ fastEntry_mem, fastEntryD_mem, emit_mem, setFrame_mem, modFrameEngs_mem, fresh_mem, foldl_mem, foldl_canon, foldl_mem_snd, foldl_canon_snd, foldl_mem_fst, foldl_canon_fst, Option.getD, canon_sSet, SOut.All, Body.All, SVal.All, Mv.All, MvEnd.All, Rows.All]

theorem streamTells_canon (s : State) (id) (x) (status) (detail) (hs : Canon s.mem) (t : State) (ht : s.streamTells id x status detail = some t) :
    Canon t.mem := by
  have irq (u : State) (h : Canon u.mem) :
      Canon (if bit x.raw 51 then u.raiseIrqN (bits x.raw 141 136) (x.u 0x10 1) else u).mem := by
    grind [raiseIrqN_mem]
  unfold State.streamTells at ht
  dsimp only at ht
  split at ht
  · obtain ⟨u, hu, rfl⟩ := Option.map_eq_some_iff.mp ht
    exact irq u (completionRecord_canon s id x status detail hs u hu)
  · exact Option.some.inj ht ▸ irq s hs

theorem execStreamCompletion_canon (id) (s : State) (hs : Canon s.mem) (t : State) (ht : execStreamCompletion id s = .next t) :
    Canon t.mem := by
  unfold execStreamCompletion at ht
  grind [progRecords_canon, streamToQueue_canon, streamLeaves_canon, setStream_mem, → streamTells_canon]

theorem execCrret_mem (e) (b) (m) (s : State) (t : State) (ht : execCrret e b m s = .next t) : t.mem = s.mem := by
  unfold execCrret at ht
  refine stitch_mem s e b _ (fun u => onStream_mem u e b _ (fun id => ?_)) t ht
  have hc := core_mem u e b 2 (legal (m = 0) (popOp 1 (fun k => k)))
  revert hc
  dsimp only
  generalize ((u.coreOf e b).at 0) = c
  cases u.core e b 2 (legal (m = 0) (popOp 1 (fun k => k))) with
  | done t pc =>
    intro hc
    show SOut.All _ (if _ then _ else if _ then _ else _)
    split
    · exact hc
    · split
      · rfl
      · exact (creditReturn_mem t id _).trans hc
  | fault t c a => exact fun h => h
  | stay t => exact fun h => h

end Sys2Proof.Machine
end

