-- ==== Sys2Proof/Laws/MemLinks.lean ====
section
/-!
SUPPORT. What a link command leaves of memory: all of it, or its canonical form.
-/
namespace Sys2Proof.Machine

set_option Elab.async false

theorem portState_mem (s : State) (p) (v) :
    (s.portState p v).mem = s.mem := by
  unfold State.portState
  grind [modPort_mem, emit_mem]

theorem availLink_canon (s : State) (p) (lanes) (hs : Canon s.mem) :
    Canon (s.availLink p lanes).mem := by
  unfold State.availLink
  grind [colophon_mem, colophon_canon, setFld_mem, availEvent_canon]

theorem discardHold_mem (s : State) (p) :
    (s.discardHold p).mem = s.mem := by
  unfold State.discardHold
  grind [setPort_mem, send_mem, foldl_mem, foldl_canon, foldl_mem_snd, foldl_canon_snd, foldl_mem_fst, foldl_canon_fst, Option.getD, canon_sSet, SOut.All, Body.All, SVal.All, Mv.All, MvEnd.All, RecEnd.All, Rows.All]

theorem dropTraffic_mem (s : State) (p) :
    (s.dropTraffic p).mem = s.mem := by
  unfold State.dropTraffic
  grind [setPort_mem, send_mem, discardHold_mem, foldl_mem, foldl_canon, foldl_mem_snd, foldl_canon_snd, foldl_mem_fst, foldl_canon_fst, Option.getD, canon_sSet, SOut.All, Body.All, SVal.All, Mv.All, MvEnd.All, RecEnd.All, Rows.All]

theorem leaveFor_mem (s : State) (p) (v) (reason) :
    (s.leaveFor p v reason).mem = s.mem := by
  unfold State.leaveFor
  grind [modPort_mem, portState_mem, dropTraffic_mem]

theorem portDown_canon (s : State) (p) (v) (reason) (hs : Canon s.mem) :
    Canon (s.portDown p v reason).mem := by
  unfold State.portDown
  grind [leaveFor_mem, modPort_mem, availLink_canon]

theorem backoff_mem (s : State) (p) :
    (s.backoff p).mem = s.mem := by
  unfold State.backoff
  grind [setPort_mem]

theorem enterCapex_mem (s : State) (p) :
    (s.enterCapex p).mem = s.mem := by
  unfold State.enterCapex
  grind [portState_mem, modPort_mem, backoff_mem]

theorem notReady_mem (s : State) (p) (hint) :
    (s.notReady p hint).mem = s.mem := by
  unfold State.notReady
  grind [modPort_mem, backoff_mem]

theorem sendCap_mem (s : State) (p) (kind) (status) (hint) :
    (s.sendCap p kind status hint).mem = s.mem := by
  unfold State.sendCap
  grind [modPort_mem]

theorem heardCap_mem (s : State) (p) (kind) (m) :
    (s.heardCap p kind m).mem = s.mem := by
  unfold State.heardCap
  grind [modPort_mem, emit_mem]

theorem resendList_mem (s : State) (p) (l) :
    (s.resendList p l).mem = s.mem := by
  unfold State.resendList
  grind [modPort_mem, countEvent_mem, mark_mem, foldl_mem, foldl_canon, foldl_mem_snd, foldl_canon_snd, foldl_mem_fst, foldl_canon_fst, Option.getD, canon_sSet, SOut.All, Body.All, SVal.All, Mv.All, MvEnd.All, RecEnd.All, Rows.All]

theorem activate_mem (s : State) (p) (m) :
    (s.activate p m).mem = s.mem := by
  unfold State.activate
  grind [discardHold_mem, setPort_mem, portState_mem, resendList_mem, modPort_mem, pump_mem, foldl_mem, foldl_canon, foldl_mem_snd, foldl_canon_snd, foldl_mem_fst, foldl_canon_fst, Option.getD, canon_sSet, SOut.All, Body.All, SVal.All, Mv.All, MvEnd.All, RecEnd.All, Rows.All]

theorem execLaneSignalDetect_mem (p) (s : State) (t : State) (ht : (execLaneSignalDetect p s) = .next t) :
    t.mem = s.mem := by
  unfold execLaneSignalDetect at ht
  grind [wakeDomain_mem, modPort_mem, portState_mem]

theorem execLaneLock_mem (p) (lane) (s : State) (t : State) (ht : (execLaneLock p lane s) = .next t) :
    t.mem = s.mem := by
  unfold execLaneLock at ht
  grind [fresh_mem, modPort_mem, portState_mem]

theorem execLaneTrainingTimeout_canon (p) (lane) (s : State) (hs : Canon s.mem) (t : State) (ht : (execLaneTrainingTimeout p lane s) = .next t) :
    Canon t.mem := by
  unfold execLaneTrainingTimeout at ht
  grind [modPort_mem, portDown_canon]

theorem execAlignComplete_canon (p) (s : State) (hs : Canon s.mem) (t : State) (ht : (execAlignComplete p s) = .next t) :
    Canon t.mem := by
  unfold execAlignComplete at ht
  grind [modPort_mem, availLink_canon, enterCapex_mem, portState_mem]

theorem releasePorts_mem (s : State) :
    (s.releasePorts).mem = s.mem := by
  unfold State.releasePorts
  grind [emit_mem, enterCapex_mem, setFld_mem, foldl_mem, foldl_canon, foldl_mem_snd, foldl_canon_snd, foldl_mem_fst, foldl_canon_fst, Option.getD, canon_sSet, SOut.All, Body.All, SVal.All, Mv.All, MvEnd.All, RecEnd.All, Rows.All]

theorem execPortRelease_mem (src) (s : State) (t : State) (ht : (execPortRelease src s) = .next t) :
    t.mem = s.mem := by
  unfold execPortRelease at ht
  grind [→ inOrder_mem, → inOrder_canon, gate_mem, gate_canon, releasePorts_mem, reject_mem]

theorem execBackoffExpiry_mem (p) (s : State) (t : State) (ht : (execBackoffExpiry p s) = .next t) :
    t.mem = s.mem := by
  unfold execBackoffExpiry at ht
  grind [modPort_mem, sendCap_mem]

theorem execCapReq_canon (p) (m) (s : State) (hs : Canon s.mem) (t : State) (ht : (execCapReq p m s) = .next t) :
    Canon t.mem := by
  unfold execCapReq at ht
  grind [heardCap_mem, sendCap_mem, activate_mem, modPort_mem, portState_mem, portDown_canon]

theorem execCapRsp_mem (p) (m) (s : State) (t : State) (ht : (execCapRsp p m s) = .next t) :
    t.mem = s.mem := by
  unfold execCapRsp at ht
  grind [heardCap_mem, modPort_mem, portState_mem, activate_mem, notReady_mem]

theorem execBootNak_mem (p) (s : State) (t : State) (ht : (execBootNak p s) = .next t) :
    t.mem = s.mem := by
  unfold execBootNak at ht
  grind [leaveFor_mem, enterCapex_mem, notReady_mem]

theorem takeReturns_mem (s : State) (p) (raw) :
    (s.takeReturns p raw).mem = s.mem := by
  unfold State.takeReturns
  grind [setPort_mem, pump_mem]

theorem countBad_mem (s : State) (p) (crcBad) (unc) :
    (s.countBad p crcBad unc).mem = s.mem := by
  unfold State.countBad
  grind [errCount_mem, logErr_mem]

theorem askRetry_mem (s : State) (p) :
    (s.askRetry p).mem = s.mem := by
  unfold State.askRetry
  grind [setPort_mem]

theorem arrived_mem (s : State) (p) (v) (k) (frees) :
    (s.arrived p v k frees).mem = s.mem := by
  unfold State.arrived
  grind [refused_mem, modPort_mem]

theorem cutPackets_mem (s : State) (p) (v) (sh) (x4) (x5) :
    (s.cutPackets p v sh x4 x5).mem = s.mem := by
  fun_induction (s.cutPackets p v sh x4 x5) <;> grind [modPort_mem, arrived_mem]

theorem takePackets_mem (s : State) (p) (raw) :
    (s.takePackets p raw).mem = s.mem := by
  unfold State.takePackets
  grind [cutPackets_mem, modPort_mem, arrived_mem]

theorem execDataFlit_mem (p) (raw) (unc) (s : State) (t : State) (ht : (execDataFlit p raw unc s) = .next t) :
    t.mem = s.mem := by
  unfold execDataFlit at ht
  grind [countBad_mem, askRetry_mem, sendCap_mem, takeReturns_mem, setPort_mem, countEvent_mem, mark_mem, takePackets_mem, pump_mem]

theorem execNullFlit_mem (p) (raw) (unc) (s : State) (t : State) (ht : (execNullFlit p raw unc s) = .next t) :
    t.mem = s.mem := by
  unfold execNullFlit at ht
  grind [countBad_mem, takeReturns_mem]

theorem resendFrom_mem (s : State) (p) (seq) (timeout) :
    (s.resendFrom p seq timeout).mem = s.mem := by
  unfold State.resendFrom
  grind [modPort_mem, errCount_mem, emit_mem, resendList_mem]

theorem execRetryReq_mem (p) (raw) (unc) (s : State) (t : State) (ht : (execRetryReq p raw unc s) = .next t) :
    t.mem = s.mem := by
  unfold execRetryReq at ht
  grind [countBad_mem, takeReturns_mem, resendFrom_mem]

theorem execRetryTimeout_mem (p) (s : State) (t : State) (ht : (execRetryTimeout p s) = .next t) :
    t.mem = s.mem := by
  unfold execRetryTimeout at ht
  grind [resendFrom_mem]

theorem execRetrain_mem (p) (failed) (s : State) (t : State) (ht : (execRetrain p failed s) = .next t) :
    t.mem = s.mem := by
  unfold execRetrain at ht
  grind [leaveFor_mem, modPort_mem, logErr_mem]

theorem execRetrainTimeout_canon (p) (s : State) (hs : Canon s.mem) (t : State) (ht : (execRetrainTimeout p s) = .next t) :
    Canon t.mem := by
  unfold execRetrainTimeout at ht
  grind [portDown_canon]

theorem execLossOfSignal_canon (p) (s : State) (hs : Canon s.mem) (t : State) (ht : (execLossOfSignal p s) = .next t) :
    Canon t.mem := by
  unfold execLossOfSignal at ht
  grind [portDown_canon]

theorem execLnkHoldExpiry_mem (p) (s : State) (t : State) (ht : (execLnkHoldExpiry p s) = .next t) :
    t.mem = s.mem := by
  unfold execLnkHoldExpiry at ht
  grind [discardHold_mem]

theorem lnkCtlApply_canon (s : State) (p) (v) (hs : Canon s.mem) :
    Canon (s.lnkCtlApply p v).mem := by
  unfold State.lnkCtlApply
  grind [applyWrite_mem, portDown_canon, portState_mem, leaveFor_mem]

theorem lnkCtlWrite_canon (s : State) (p) (src) (v) (hs : Canon s.mem) :
    Canon (s.lnkCtlWrite p src v).mem := by
  unfold State.lnkCtlWrite
  grind [reject_mem, lnkCtlApply_canon]

theorem execLnkCtl_canon (p) (src) (v) (s : State) (hs : Canon s.mem) (t : State) (ht : (execLnkCtl p src v s) = .next t) :
    Canon t.mem := by
  unfold execLnkCtl at ht
  grind [→ inOrder_mem, → inOrder_canon, gate_mem, gate_canon, lnkCtlWrite_canon]

theorem epochWrite_mem (s : State) (v) :
    (s.epochWrite v).mem = s.mem := by
  unfold State.epochWrite
  grind [setFld_mem, emit_mem]

theorem execFlip_mem (src) (v) (s : State) (t : State) (ht : (execFlip src v s) = .next t) :
    t.mem = s.mem := by
  unfold execFlip at ht
  grind [→ inOrder_mem, → inOrder_canon, gate_mem, gate_canon, reject_mem, epochWrite_mem]

theorem execOrderedHoldRelease_mem (s : State) (t : State) (ht : (execOrderedHoldRelease s) = .next t) :
    t.mem = s.mem := by
  unfold execOrderedHoldRelease at ht
  grind [send_mem, foldl_mem, foldl_canon, foldl_mem_snd, foldl_canon_snd, foldl_mem_fst, foldl_canon_fst, Option.getD, canon_sSet, SOut.All, Body.All, SVal.All, Mv.All, MvEnd.All, RecEnd.All, Rows.All]

theorem refuse_mem (s : State) (port) (k) :
    (s.refuse port k).mem = s.mem := by
  unfold State.refuse
  grind [refused_mem, send_mem]

theorem reply_mem (s : State) (k) (status) (data) :
    (s.reply k status data).mem = s.mem := by
  unfold State.reply
  grind [send_mem]

theorem streamTakes_mem (s : State) (x) (k) :
    (s.streamTakes x k).2.mem = s.mem := by
  unfold State.streamTakes
  grind [ctxEntry_mem]

theorem landsHere_mem (s : State) (k) :
    (s.landsHere k).2.mem = s.mem := by
  unfold State.landsHere
  grind [streamTakes_mem]

theorem takeColl_canon (s : State) (id) (x) (rank) (level) (pos) (bs) (hs : Canon s.mem) :
    Canon (s.takeColl id x rank level pos bs).mem := by
  unfold State.takeColl
  grind [streamEvent_mem, setStream_mem, collectAll_canon, landPut_mem, sendDown_mem, performAll_canon]

theorem takePacket_mem (s : State) (port) (type) (t) (ht : (s.takePacket port type) = some t) :
    t.2.mem = s.mem := by
  unfold State.takePacket at ht
  grind [modPort_mem, pump_mem]

theorem rspLoad_canon (s : State) (i) (tag) (st) (bs) (hs : Canon s.mem) :
    Canon (s.rspLoad i tag st bs).mem := by
  unfold State.rspLoad
  grind [finishLoad_canon, failLoad_canon]

theorem rspMover_canon (s : State) (id) (tag) (st) (bs) (hs : Canon s.mem) :
    Canon (s.rspMover id tag st bs).mem := by
  unfold State.rspMover
  grind [logErr_mem, opFailed_canon, countEvent_mem, putOp_mem, landed_canon]

theorem execTagHoldExpiry_mem (tag) (s : State) (t : State) (ht : (execTagHoldExpiry tag s) = .next t) :
    t.mem = s.mem := by
  unfold execTagHoldExpiry at ht
  grind

theorem withPacket_mem (s : State) (port) (type) (span) (local_) (h_local_ : ∀ a0 u, (local_ a0 u).mem = u.mem) (t : State) (ht : s.withPacket port type span local_ = .next t) :
    t.mem = s.mem := by
  unfold State.withPacket at ht
  grind [reply_mem, send_mem, refuse_mem, → takePacket_mem]

theorem withPacket_canon (s : State) (port) (type) (span) (local_) (hs : Canon s.mem) (h_local_ : ∀ a0 u, Canon u.mem → Canon (local_ a0 u).mem) (t : State) (ht : s.withPacket port type span local_ = .next t) :
    Canon t.mem := by
  unfold State.withPacket at ht
  grind [reply_mem, send_mem, refuse_mem, → takePacket_mem]

theorem execRd_mem (port) (s : State) (t : State) (ht : execRd port s = .next t) :
    t.mem = s.mem := by
  unfold execRd at ht
  grind [dmaRead_mem, reply_mem, wakeFor_mem, refuse_mem, fresh_mem, → withPacket_mem]

theorem execWr_canon (port) (s : State) (hs : Canon s.mem) (t : State) (ht : execWr port s = .next t) :
    Canon t.mem := by
  unfold execWr at ht
  grind [dmaWrite_canon, reply_mem, wakeFor_mem, → withPacket_canon]

theorem execWrbe_canon (port) (s : State) (hs : Canon s.mem) (t : State) (ht : execWrbe port s = .next t) :
    Canon t.mem := by
  unfold execWrbe at ht
  grind [clearCovered_mem, dmaWrite_canon, reply_mem, wakeFor_mem, → withPacket_canon, foldl_canon]

theorem execAtom_canon (port) (s : State) (hs : Canon s.mem) (t : State) (ht : execAtom port s = .next t) :
    Canon t.mem := by
  unfold execAtom at ht
  grind [runAtomicsTo_canon, execAtomic_canon, reply_mem, refuse_mem, wakeFor_mem, → withPacket_canon]

theorem execSdata_canon (port) (s : State) (hs : Canon s.mem) (t : State) (ht : execSdata port s = .next t) :
    Canon t.mem := by
  unfold execSdata at ht
  grind [refuse_mem, landPut_mem, performAll_canon, landsHere_mem, → withPacket_canon]

theorem execScred_mem (port) (s : State) (t : State) (ht : execScred port s = .next t) :
    t.mem = s.mem := by
  unfold execScred at ht
  grind [refuse_mem, setStream_mem, streamEvent_mem, streamTakes_mem, → withPacket_mem]

theorem execColl_canon (port) (s : State) (hs : Canon s.mem) (t : State) (ht : execColl port s = .next t) :
    Canon t.mem := by
  unfold execColl at ht
  grind [refuse_mem, endStream_mem, reply_mem, fresh_mem, takeColl_canon, streamTakes_mem, → withPacket_canon]

theorem execSnak_mem (port) (s : State) (t : State) (ht : execSnak port s = .next t) :
    t.mem = s.mem := by
  unfold execSnak at ht
  grind [endStream_mem, fresh_mem, ctxEntry_mem, → withPacket_mem]

theorem execRsp_canon (port) (s : State) (hs : Canon s.mem) (t : State) (ht : execRsp port s = .next t) :
    Canon t.mem := by
  unfold execRsp at ht
  grind [rspMover_canon, latchStoreErr_mem, logErr_mem, rspLoad_canon, → withPacket_canon]

theorem execMgmt_mem (port) (s : State) (t : State) (ht : execMgmt port s = .next t) :
    t.mem = s.mem := by
  unfold execMgmt at ht
  grind [emit_mem, → withPacket_mem]

theorem execStreamRequestTimeout_canon (tag) (s : State) (hs : Canon s.mem) (t : State) (ht : execStreamRequestTimeout tag s = .next t) :
    Canon t.mem := by
  unfold execStreamRequestTimeout at ht
  grind [opFailed_canon, logErr_mem]

end Sys2Proof.Machine
end

