-- ==== Sys2Proof/Laws/MemPower.lean ====
section
/-!
SUPPORT. What a power or clock command leaves of memory: all of it, or its canonical form.
-/
namespace Sys2Proof.Machine

set_option Elab.async false

theorem hold_mem (s : State) (off) (src) (v) :
    (s.hold off src v).mem = s.mem := by
  unfold State.hold
  grind

theorem unhold_mem (s : State) (off) (f : State → Source → W64 → State) (h_f : ∀ u y1 y2, (f u y1 y2).mem = u.mem) :
    (s.unhold off f).mem = s.mem := by
  unfold State.unhold
  grind [foldl_mem, foldl_canon, foldl_mem_snd, foldl_canon_snd, foldl_mem_fst, foldl_canon_fst, Option.getD, canon_sSet, SOut.All, Body.All, SVal.All, Mv.All, MvEnd.All, RecEnd.All, Rows.All]

theorem unhold_canon (s : State) (off) (f : State → Source → W64 → State) (hs : Canon s.mem) (h_f : ∀ u y1 y2, Canon u.mem → Canon (f u y1 y2).mem) :
    Canon (s.unhold off f).mem := by
  unfold State.unhold
  grind [unhold_mem, foldl_mem, foldl_canon, foldl_mem_snd, foldl_canon_snd, foldl_mem_fst, foldl_canon_fst, Option.getD, canon_sSet, SOut.All, Body.All, SVal.All, Mv.All, MvEnd.All, RecEnd.All, Rows.All]

theorem clkWrite_mem (s : State) (src) (v) :
    (s.clkWrite src v).mem = s.mem := by
  unfold State.clkWrite
  grind [reject_mem, hold_mem, applyWrite_mem]

theorem execClkPp_mem (src) (v) (s : State) (t : State) (ht : (execClkPp src v s) = .next t) :
    t.mem = s.mem := by
  unfold execClkPp at ht
  grind [→ inOrder_mem, → inOrder_canon, gate_mem, gate_canon, clkWrite_mem]

theorem ppMove_mem (s : State) (p) :
    (s.ppMove p).mem = s.mem := by
  unfold State.ppMove
  grind [setFld_mem]

theorem ppEnd_mem (s : State) :
    (s.ppEnd).mem = s.mem := by
  unfold State.ppEnd
  grind [setFld_mem, unhold_mem, unhold_canon, clkWrite_mem]

theorem execVoltageSettle_mem (s : State) (t : State) (ht : (execVoltageSettle s) = .next t) :
    t.mem = s.mem := by
  unfold execVoltageSettle at ht
  grind [setFld_mem, ppEnd_mem]

theorem execVoltageTimeout_mem (s : State) (t : State) (ht : (execVoltageTimeout s) = .next t) :
    t.mem = s.mem := by
  unfold execVoltageTimeout at ht
  grind [ppEnd_mem]

theorem applySteps_mem (s : State) :
    (s.applySteps).mem = s.mem := by
  unfold State.applySteps
  grind [setFld_mem, ppMove_mem]

theorem execGovernorLoop_mem (power) (s : State) (t : State) (ht : (execGovernorLoop power s) = .next t) :
    t.mem = s.mem := by
  unfold execGovernorLoop at ht
  grind [setFld_mem, applySteps_mem]

theorem execDroopAssert_mem (s : State) (t : State) (ht : (execDroopAssert s) = .next t) :
    t.mem = s.mem := by
  unfold execDroopAssert at ht
  grind [setFld_mem]

theorem execDroopRelease_mem (s : State) (t : State) (ht : (execDroopRelease s) = .next t) :
    t.mem = s.mem := by
  unfold execDroopRelease at ht
  grind

theorem execThermalSample_mem (temp) (s : State) (t : State) (ht : (execThermalSample temp s) = .next t) :
    t.mem = s.mem := by
  unfold execThermalSample at ht
  grind [setFld_mem, ppEnd_mem]

theorem resetRegs_mem (s : State) (lo) (hi) :
    (s.resetRegs lo hi).mem = s.mem := by
  unfold State.resetRegs
  grind

theorem coreLost_mem (s : State) (i) (all) :
    (s.coreLost i all).mem = s.mem := by
  unfold State.coreLost
  grind [setQ_mem, resetRegs_mem]

theorem loseRam_mem (s : State) (e) :
    (s.loseRam e).mem = s.mem := by
  unfold State.loseRam
  grind [modEng_mem]

theorem stitchLost_mem (s : State) (f) (all) :
    (s.stitchLost f all).mem = s.mem := by
  unfold State.stitchLost
  grind [modFrameEngs_mem, setFrame_mem, loseRam_mem, foldl_mem, foldl_canon, foldl_mem_snd, foldl_canon_snd, foldl_mem_fst, foldl_canon_fst, Option.getD, canon_sSet, SOut.All, Body.All, SVal.All, Mv.All, MvEnd.All, RecEnd.All, Rows.All]

theorem loseDomain_canon (s : State) (d) (all) (hs : Canon s.mem) :
    Canon (s.loseDomain d all).mem := by
  unfold State.loseDomain
  grind [coreLost_mem, stitchLost_mem, resetRegs_mem, loseRange_canon]

theorem leaveOn_canon (s : State) (d) (t) (hs : Canon s.mem) :
    Canon (s.leaveOn d t).mem := by
  unfold State.leaveOn
  grind [fresh_mem, portDown_canon, setUnitState_mem, foldl_mem, foldl_canon, foldl_mem_snd, foldl_canon_snd, foldl_mem_fst, foldl_canon_fst, Option.getD, canon_sSet, SOut.All, Body.All, SVal.All, Mv.All, MvEnd.All, RecEnd.All, Rows.All]

theorem trainUnit_canon (s : State) (r) (n) (hs : Canon s.mem) :
    Canon (s.trainUnit r n).mem := by
  unfold State.trainUnit
  grind [fresh_mem, setFld_mem, setUnitState_mem, colophon_mem, colophon_canon, availEvent_canon]

theorem unitsOn_canon (s : State) (d) (trained) (hs : Canon s.mem) :
    Canon (s.unitsOn d trained).mem := by
  unfold State.unitsOn
  grind [setUnitState_mem, trainUnit_canon, foldl_mem, foldl_canon, foldl_mem_snd, foldl_canon_snd, foldl_mem_fst, foldl_canon_fst, Option.getD, canon_sSet, SOut.All, Body.All, SVal.All, Mv.All, MvEnd.All, RecEnd.All, Rows.All]

theorem findLost_canon (s : State) (d) (hs : Canon s.mem) :
    Canon (s.findLost d).mem := by
  unfold State.findLost
  grind [loseDomain_canon, setFld_mem]

theorem switchDomain_canon (s : State) (d) (t) (hs : Canon s.mem) :
    Canon (s.switchDomain d t).mem := by
  unfold State.switchDomain
  grind [leaveOn_canon, pausePass_mem, loseDomain_canon, findLost_canon, setFld_mem, unitsOn_canon, ringStart_mem]

theorem domWrite_mem (s : State) (d) (src) (v) :
    (s.domWrite d src v).mem = s.mem := by
  unfold State.domWrite
  grind [reject_mem, hold_mem, applyWrite_mem, setFld_mem]

theorem execDomainRequest_mem (d) (src) (v) (s : State) (t : State) (ht : (execDomainRequest d src v s) = .next t) :
    t.mem = s.mem := by
  unfold execDomainRequest at ht
  grind [→ inOrder_mem, → inOrder_canon, gate_mem, gate_canon, domWrite_mem]

theorem domEnd_canon (s : State) (d) (t) (hs : Canon s.mem) :
    Canon (s.domEnd d t).mem := by
  unfold State.domEnd
  grind [switchDomain_canon, setFld_mem, unhold_mem, unhold_canon, domWrite_mem]

theorem execPressAutoGate_mem (q) (s : State) (t : State) (ht : (execPressAutoGate q s) = .next t) :
    t.mem = s.mem := by
  unfold execPressAutoGate at ht
  grind [setFld_mem]

theorem devResult_mem (s : State) (n) :
    (s.devResult n).mem = s.mem := by
  unfold State.devResult
  grind [setFld_mem]

theorem enterIdle_canon (s : State) (hs : Canon s.mem) :
    Canon (s.enterIdle).mem := by
  unfold State.enterIdle
  grind [domEnd_canon, switchDomain_canon, setFld_mem, foldl_mem, foldl_canon, foldl_mem_snd, foldl_canon_snd, foldl_mem_fst, foldl_canon_fst, Option.getD, canon_sSet, SOut.All, Body.All, SVal.All, Mv.All, MvEnd.All, RecEnd.All, Rows.All]

theorem leaveIdle_canon (s : State) (hs : Canon s.mem) :
    Canon (s.leaveIdle).mem := by
  unfold State.leaveIdle
  grind [switchDomain_canon, setFld_mem, foldl_mem, foldl_canon, foldl_mem_snd, foldl_canon_snd, foldl_mem_fst, foldl_canon_fst, Option.getD, canon_sSet, SOut.All, Body.All, SVal.All, Mv.All, MvEnd.All, RecEnd.All, Rows.All]

theorem startSleep_canon (s : State) (hs : Canon s.mem) :
    Canon (s.startSleep).mem := by
  unfold State.startSleep
  grind [switchDomain_canon, setFld_mem, foldl_mem, foldl_canon, foldl_mem_snd, foldl_canon_snd, foldl_mem_fst, foldl_canon_fst, Option.getD, canon_sSet, SOut.All, Body.All, SVal.All, Mv.All, MvEnd.All, RecEnd.All, Rows.All]

theorem recordWake_mem (s : State) (cause) (p) (abort) :
    (s.recordWake cause p abort).mem = s.mem := by
  unfold State.recordWake
  grind [setReg_mem]

theorem wakeUp_canon (s : State) (hs : Canon s.mem) :
    Canon (s.wakeUp).mem := by
  unfold State.wakeUp
  grind [switchDomain_canon, setFld_mem, dbReplay_mem, foldl_mem, foldl_canon, foldl_mem_snd, foldl_canon_snd, foldl_mem_fst, foldl_canon_fst, Option.getD, canon_sSet, SOut.All, Body.All, SVal.All, Mv.All, MvEnd.All, RecEnd.All, Rows.All]

theorem wake_canon (s : State) (cause) (p) (hs : Canon s.mem) :
    Canon (s.wake cause p).mem := by
  unfold State.wake
  grind [recordWake_mem, wakeUp_canon, setFld_mem, devResult_mem]

theorem devWrite_canon (s : State) (src) (v) (hs : Canon s.mem) :
    Canon (s.devWrite src v).mem := by
  unfold State.devWrite
  grind [reject_mem, hold_mem, devResult_mem, leaveIdle_canon, wake_canon, enterIdle_canon, startSleep_canon]

theorem execActive_canon (src) (s : State) (hs : Canon s.mem) (t : State) (ht : (execActive src s) = .next t) :
    Canon t.mem := by
  unfold execActive at ht
  grind [→ inOrder_mem, → inOrder_canon, gate_mem, gate_canon, devWrite_canon]

theorem execIdle_canon (src) (s : State) (hs : Canon s.mem) (t : State) (ht : (execIdle src s) = .next t) :
    Canon t.mem := by
  unfold execIdle at ht
  grind [→ inOrder_mem, → inOrder_canon, gate_mem, gate_canon, devWrite_canon]

theorem execSleep_canon (src) (s : State) (hs : Canon s.mem) (t : State) (ht : (execSleep src s) = .next t) :
    Canon t.mem := by
  unfold execSleep at ht
  grind [→ inOrder_mem, → inOrder_canon, gate_mem, gate_canon, devWrite_canon]

theorem sleepEnd_canon (s : State) (hs : Canon s.mem) :
    Canon (s.sleepEnd).mem := by
  unfold State.sleepEnd
  grind [switchDomain_canon, setFld_mem, devResult_mem, unhold_mem, unhold_canon, devWrite_canon]

theorem execDomainTransitionComplete_canon (d) (s : State) (hs : Canon s.mem) (t : State) (ht : (execDomainTransitionComplete d s) = .next t) :
    Canon t.mem := by
  unfold execDomainTransitionComplete at ht
  grind [sleepEnd_canon, domEnd_canon]

theorem execWake_canon (cause) (p) (s : State) (hs : Canon s.mem) (t : State) (ht : (execWake cause p s) = .next t) :
    Canon t.mem := by
  unfold execWake at ht
  grind [wake_canon, unhold_mem, unhold_canon, devWrite_canon]

theorem loseSave_mem (s : State) (d) :
    (s.loseSave d).mem = s.mem := by
  unfold State.loseSave
  grind

theorem calWrite_mem (s : State) (src) (action) :
    (s.calWrite src action).mem = s.mem := by
  unfold State.calWrite
  grind [reject_mem, setFld_mem]

theorem execFactoryRestore_mem (src) (s : State) (t : State) (ht : (execFactoryRestore src s) = .next t) :
    t.mem = s.mem := by
  unfold execFactoryRestore at ht
  grind [→ inOrder_mem, → inOrder_canon, gate_mem, gate_canon, calWrite_mem]

theorem execFactoryRestoreCommit_mem (ok) (s : State) (t : State) (ht : (execFactoryRestoreCommit ok s) = .next t) :
    t.mem = s.mem := by
  unfold execFactoryRestoreCommit at ht
  grind [setFld_mem]

end Sys2Proof.Machine
end

