-- ==== Sys2Proof/Laws/MemHost.lean ====
section
/-!
SUPPORT. What a host command leaves of memory: all of it, or its canonical form.
-/
namespace Sys2Proof.Machine

set_option Elab.async false

theorem doorbellWrite_mem (s : State) (src) (n) (off) (v) :
    (s.doorbellWrite src n off v).mem = s.mem := by
  unfold State.doorbellWrite
  grind [dbBuffer_mem, gate_mem, gate_canon, dbWrite_mem]

theorem execHstDbSqtail_mem (src) (n) (v) (s : State) (t : State) (ht : (execHstDbSqtail src n v s) = .next t) :
    t.mem = s.mem := by
  unfold execHstDbSqtail at ht
  grind [→ inOrder_mem, → inOrder_canon, doorbellWrite_mem]

theorem execHstDbCqhead_mem (src) (n) (v) (s : State) (t : State) (ht : (execHstDbCqhead src n v s) = .next t) :
    t.mem = s.mem := by
  unfold execHstDbCqhead at ht
  grind [→ inOrder_mem, → inOrder_canon, doorbellWrite_mem]

theorem execHstDbQirq_mem (src) (n) (v) (s : State) (t : State) (ht : (execHstDbQirq src n v s) = .next t) :
    t.mem = s.mem := by
  unfold execHstDbQirq at ht
  grind [→ inOrder_mem, → inOrder_canon, doorbellWrite_mem]

theorem readQueueEntry_mem (s : State) (n) :
    (s.readQueueEntry n).2.mem = s.mem := by
  unfold State.readQueueEntry
  grind [logErr_mem, dmaRead_mem]

theorem qcmdResult_mem (s : State) (n) :
    (s.qcmdResult n).mem = s.mem := by
  unfold State.qcmdResult
  grind [setFld_mem]

theorem queueEnable_mem (s : State) (n) :
    (s.queueEnable n).mem = s.mem := by
  unfold State.queueEnable
  grind [qcmdResult_mem, readQueueEntry_mem, ctxEntry_mem, setQueue_mem]

theorem queueDisable_canon (s : State) (n) (hs : Canon s.mem) :
    Canon (s.queueDisable n).mem := by
  unfold State.queueDisable
  grind [qcmdResult_mem, setQueue_mem, settle_canon]

theorem queueReset_mem (s : State) (n) :
    (s.queueReset n).mem = s.mem := by
  unfold State.queueReset
  grind [qcmdResult_mem, setQueue_mem]

theorem queueRefresh_canon (s : State) (n) (hs : Canon s.mem) :
    Canon (s.queueRefresh n).mem := by
  unfold State.queueRefresh
  grind [qcmdResult_mem, readQueueEntry_mem, setQueue_mem, settle_canon]

theorem msiRefresh_mem (s : State) :
    (s.msiRefresh).mem = s.mem := by
  unfold State.msiRefresh
  grind [qcmdResult_mem]

theorem qcmdWrite_canon (s : State) (src) (action) (n) (hs : Canon s.mem) :
    Canon (s.qcmdWrite src action n).mem := by
  unfold State.qcmdWrite
  grind [queueEnable_mem, queueDisable_canon, queueReset_mem, queueRefresh_canon, msiRefresh_mem, reject_mem]

theorem execEnable_canon (src) (n) (s : State) (hs : Canon s.mem) (t : State) (ht : (execEnable src n s) = .next t) :
    Canon t.mem := by
  unfold execEnable at ht
  grind [→ inOrder_mem, → inOrder_canon, gate_mem, gate_canon, qcmdWrite_canon]

theorem execDisable_canon (src) (n) (s : State) (hs : Canon s.mem) (t : State) (ht : (execDisable src n s) = .next t) :
    Canon t.mem := by
  unfold execDisable at ht
  grind [→ inOrder_mem, → inOrder_canon, gate_mem, gate_canon, qcmdWrite_canon]

theorem execReset_canon (src) (n) (s : State) (hs : Canon s.mem) (t : State) (ht : (execReset src n s) = .next t) :
    Canon t.mem := by
  unfold execReset at ht
  grind [→ inOrder_mem, → inOrder_canon, gate_mem, gate_canon, qcmdWrite_canon]

theorem execRefresh_canon (src) (n) (s : State) (hs : Canon s.mem) (t : State) (ht : (execRefresh src n s) = .next t) :
    Canon t.mem := by
  unfold execRefresh at ht
  grind [→ inOrder_mem, → inOrder_canon, gate_mem, gate_canon, qcmdWrite_canon]

theorem execRefreshMsi_canon (src) (n) (s : State) (hs : Canon s.mem) (t : State) (ht : (execRefreshMsi src n s) = .next t) :
    Canon t.mem := by
  unfold execRefreshMsi at ht
  grind [→ inOrder_mem, → inOrder_canon, gate_mem, gate_canon, qcmdWrite_canon]

theorem judge_canon (s : State) (n) (e) (hs : Canon s.mem) :
    Canon (s.judge n e).mem := by
  unfold State.judge
  grind [writeCompletion_canon, countEvent_mem, setQueue_mem, leaveIdle_canon]

theorem execSubmissionFetch_canon (n) (fail) (s : State) (hs : Canon s.mem) (t : State) (ht : (execSubmissionFetch n fail s) = .next t) :
    Canon t.mem := by
  unfold execSubmissionFetch at ht
  grind [hostRead_mem, setQueue_mem, logErr_mem, writeCompletion_canon, dmaRead_mem, judge_canon]

theorem chooseQueue_mem (s : State) :
    (s.chooseQueue).2.mem = s.mem := by
  unfold State.chooseQueue
  grind [setQueue_mem]

theorem arbitrate_mem (s : State) :
    (s.arbitrate).2.mem = s.mem := by
  unfold State.arbitrate
  grind [chooseQueue_mem]

theorem doLaunch_canon (s : State) (n) (c) (hs : Canon s.mem) :
    Canon (s.doLaunch n c).mem := by
  unfold State.doLaunch
  grind [completeCmd_canon, modQ_mem, setReg_mem, ctxAction_canon, foldl_mem, foldl_canon, foldl_mem_snd, foldl_canon_snd, foldl_mem_fst, foldl_canon_fst, Option.getD, canon_sSet, SOut.All, Body.All, SVal.All, Mv.All, MvEnd.All, RecEnd.All, Rows.All]

theorem blockBytes_mem (s : State) (x1) :
    (s.blockBytes x1).2.mem = s.mem := by
  fun_induction (s.blockBytes x1) <;> grind [fresh_mem, dirSpan_mem]

theorem doStream_canon (s : State) (n) (c) (hs : Canon s.mem) :
    Canon (s.doStream n c).mem := by
  unfold State.doStream
  grind [xlateStreamBytes_mem, completeCmd_canon, logErr_mem, fresh_mem, hostReads_mem, blockBytes_mem, createStream_mem, ctxEntry_mem, setQueue_mem]

theorem saveBase_or_reject_mem (s : State) (i : QuireId) (n : Nat) (q : Fin 32) (base : Nat) :
    (if saveBaseOk (saveArea base q) then s.setReg (qwin i n) (BitVec.ofNat 64 (saveArea base q))
      else s.reject .headband (qwin i n)).mem = s.mem := by
  split
  · exact setReg_mem _ _ _
  · exact reject_mem _ _ _

theorem setSaveBase_mem (s : State) (i) (q) (base) : (s.setSaveBase i q base).mem = s.mem := by
  rw [State.setSaveBase]
  exact saveBase_or_reject_mem s i 0x18 q base

theorem actOn_canon (s : State) (c) (act) (base) (hs : Canon s.mem) :
    Canon (s.actOn c act base).mem := by
  unfold State.actOn
  refine foldl_canon _ _ _ (by rw [setQueue_mem]; exact hs) (fun u q h => ?_)
  grind [ctxRefuse_mem, ctxAction_canon, setSaveBase_mem, mgmtNote_canon]

theorem doSctl_canon (s : State) (n) (c) (hs : Canon s.mem) :
    Canon (s.doSctl n c).mem := by
  unfold State.doSctl
  grind [sctl_mem, completeCmd_canon]

theorem doBind_canon (s : State) (c) (hs : Canon s.mem) :
    Canon (s.doBind c).mem := by
  unfold State.doBind
  grind [completeCmd_canon]

theorem doRelease_canon (s : State) (c) (hs : Canon s.mem) :
    Canon (s.doRelease c).mem := by
  unfold State.doRelease
  grind [actOn_canon, completeCmd_canon]

theorem doRestore_canon (s : State) (c) (hs : Canon s.mem) :
    Canon (s.doRestore c).mem := by
  unfold State.doRestore
  grind [actOn_canon, completeCmd_canon]

theorem freeBytes_mem (s : State) (x1) :
    (s.freeBytes x1).2.mem = s.mem := by
  fun_induction (s.freeBytes x1) <;> grind [fresh_mem]

theorem doQuery_canon (s : State) (c) (hs : Canon s.mem) :
    Canon (s.doQuery c).mem := by
  unfold State.doQuery
  grind [completeCmd_canon, freeBytes_mem, dmaWrite_canon, hostWrite_mem]

theorem doKill_canon (s : State) (c) (hs : Canon s.mem) :
    Canon (s.doKill c).mem := by
  unfold State.doKill
  grind [contextFatal_canon, completeCmd_canon]

theorem latchOf_mem (s : State) (c) :
    (s.latchOf c).2.mem = s.mem := by
  unfold State.latchOf
  grind [latchUnits_mem]

theorem startCmd_canon (s : State) (n) (c) (hs : Canon s.mem) :
    Canon (s.startCmd n c).mem := by
  unfold State.startCmd
  grind [latchOf_mem, setQueue_mem, countEvent_mem, doLaunch_canon, doStream_canon, doSctl_canon, doBind_canon, doRelease_canon, doRestore_canon, doQuery_canon, doKill_canon, completeCmd_canon]

theorem execCommandStart_canon (s : State) (hs : Canon s.mem) (t : State) (ht : (execCommandStart s) = .next t) :
    Canon t.mem := by
  unfold execCommandStart at ht
  grind [arbitrate_mem, startCmd_canon]

theorem startIf_canon (s : State) (n) (ok) (hs : Canon s.mem) :
    Canon (s.startIf n ok).mem := by
  unfold State.startIf
  grind [arbitrate_mem, startCmd_canon]

theorem execNop_canon (n) (s : State) (hs : Canon s.mem) (t : State) (ht : (execNop n s) = .next t) :
    Canon t.mem := by
  unfold execNop at ht
  grind [startIf_canon]

theorem execLaunch_canon (n) (s : State) (hs : Canon s.mem) (t : State) (ht : (execLaunch n s) = .next t) :
    Canon t.mem := by
  unfold execLaunch at ht
  grind [startIf_canon]

theorem execStream_canon (n) (s : State) (hs : Canon s.mem) (t : State) (ht : (execStream n s) = .next t) :
    Canon t.mem := by
  unfold execStream at ht
  grind [startIf_canon]

theorem execSctl_canon (n) (s : State) (hs : Canon s.mem) (t : State) (ht : (execSctl n s) = .next t) :
    Canon t.mem := by
  unfold execSctl at ht
  grind [startIf_canon]

theorem execBind_canon (s : State) (hs : Canon s.mem) (t : State) (ht : (execBind s) = .next t) :
    Canon t.mem := by
  unfold execBind at ht
  grind [startIf_canon]

theorem execReleaseSave_canon (s : State) (hs : Canon s.mem) (t : State) (ht : (execReleaseSave s) = .next t) :
    Canon t.mem := by
  unfold execReleaseSave at ht
  grind [startIf_canon]

theorem execReleaseDiscard_canon (s : State) (hs : Canon s.mem) (t : State) (ht : (execReleaseDiscard s) = .next t) :
    Canon t.mem := by
  unfold execReleaseDiscard at ht
  grind [startIf_canon]

theorem execRestore_canon (s : State) (hs : Canon s.mem) (t : State) (ht : (execRestore s) = .next t) :
    Canon t.mem := by
  unfold execRestore at ht
  grind [startIf_canon]

theorem execQuery_canon (s : State) (hs : Canon s.mem) (t : State) (ht : (execQuery s) = .next t) :
    Canon t.mem := by
  unfold execQuery at ht
  grind [startIf_canon]

theorem execKill_canon (s : State) (hs : Canon s.mem) (t : State) (ht : (execKill s) = .next t) :
    Canon t.mem := by
  unfold execKill at ht
  grind [startIf_canon]

theorem launchEnd_canon (s : State) (ctx) (c) (n) (i) (code) (hs : Canon s.mem) :
    Canon (s.launchEnd ctx c n i code).mem := by
  unfold State.launchEnd
  grind [settleCounts_mem, stop_mem, setQueue_mem, completeCmd_canon]

theorem qEnd_canon (s : State) (i) (src) (writer) (code) (hs : Canon s.mem) :
    Canon (s.qEnd i src writer code).mem := by
  unfold State.qEnd
  grind [reject_mem, drain_canon, modQ_mem, actionEnd_canon, contextFatal_canon, launchEnd_canon]

theorem execQEnd_canon (q) (src) (writer) (code) (s : State) (hs : Canon s.mem) (t : State) (ht : (execQEnd q src writer code s) = .next t) :
    Canon t.mem := by
  unfold execQEnd at ht
  grind [→ inOrder_mem, → inOrder_canon, quireGate_mem, quireGate_canon, qEnd_canon]

theorem hostReturned_canon (s : State) (i) (tag) (err) (poison) (data) (hs : Canon s.mem) :
    Canon (s.hostReturned i tag err poison data).mem := by
  unfold State.hostReturned
  grind [failLoad_canon, finishLoad_canon]

theorem hostPostFailed_mem (s : State) (i) (err) (va) :
    (s.hostPostFailed i err va).mem = s.mem := by
  unfold State.hostPostFailed
  grind [logErr_mem, latchStoreErr_mem]

theorem execHostResponse_canon (tag) (err) (poison) (data) (s : State) (hs : Canon s.mem) (t : State) (ht : (execHostResponse tag err poison data s) = .next t) :
    Canon t.mem := by
  unfold execHostResponse at ht
  grind [emit_mem, hostPostFailed_mem, hostReturned_canon]

end Sys2Proof.Machine
end

