-- ==== Sys2Proof/Laws/MemTiers.lean ====
section
/-!
SUPPORT. What a tier command leaves of memory: all of it, or its canonical form.
-/
namespace Sys2Proof.Machine

set_option Elab.async false

theorem availMem_canon (s : State) (r) (n) (up) (hs : Canon s.mem) :
    Canon (s.availMem r n up).mem := by
  unfold State.availMem
  grind [colophon_mem, colophon_canon, setFld_mem, availEvent_canon]

theorem execCxlLinkUp_canon (x) (up) (s : State) (hs : Canon s.mem) (t : State) (ht : (execCxlLinkUp x up s) = .next t) :
    Canon t.mem := by
  unfold execCxlLinkUp at ht
  grind [setUnitState_mem, availMem_canon]

theorem resolveTier_mem (s : State) (r) (ways) (gran) :
    (s.resolveTier r ways gran).2.mem = s.mem := by
  unfold State.resolveTier
  grind [fresh_mem]

theorem admitTier_canon (s : State) (r) (hs : Canon s.mem) :
    Canon (s.admitTier r).mem := by
  unfold State.admitTier
  grind [loseIf_canon, setUnitState_mem, availMem_canon, foldl_mem, foldl_canon, foldl_mem_snd, foldl_canon_snd, foldl_mem_fst, foldl_canon_fst, Option.getD, canon_sSet, SOut.All, Body.All, SVal.All, Mv.All, MvEnd.All, RecEnd.All, Rows.All]

theorem dropDirty_canon (s : State) (r) (hs : Canon s.mem) :
    Canon (s.dropDirty r).mem := by
  unfold State.dropDirty
  grind [fresh_mem, loseWrite_canon, modQ_mem, foldl_mem, foldl_canon, foldl_mem_snd, foldl_canon_snd, foldl_mem_fst, foldl_canon_fst, Option.getD, canon_sSet, SOut.All, Body.All, SVal.All, Mv.All, MvEnd.All, RecEnd.All, Rows.All]

theorem tierWrite_canon (s : State) (t) (src) (v) (hs : Canon s.mem) :
    Canon (s.tierWrite t src v).mem := by
  unfold State.tierWrite
  grind [reject_mem, setFld_mem, dropDirty_canon, resolveTier_mem, applyWrite_mem, loseRange_canon, admitTier_canon]

theorem execTierEnable_canon (x) (src) (v) (s : State) (hs : Canon s.mem) (t : State) (ht : (execTierEnable x src v s) = .next t) :
    Canon t.mem := by
  refine inOrder_canon s src _ _ hs (fun u hu w hw => ?_) t ht
  cases hw
  exact gate_canon u src _ _ hu fun y hy => tierWrite_canon y x src _ hy

theorem execTierDisable_canon (x) (src) (v) (s : State) (hs : Canon s.mem) (t : State) (ht : (execTierDisable x src v s) = .next t) :
    Canon t.mem := by
  refine inOrder_canon s src _ _ hs (fun u hu w hw => ?_) t ht
  cases hw
  exact gate_canon u src _ _ hu fun y hy => tierWrite_canon y x src _ hy

theorem roleWrite_mem (s : State) (src) (v) :
    (s.roleWrite src v).mem = s.mem := by
  unfold State.roleWrite
  grind [reject_mem, setFld_mem]

theorem execRoleChange_mem (src) (v) (s : State) (t : State) (ht : (execRoleChange src v s) = .next t) :
    t.mem = s.mem := by
  unfold execRoleChange at ht
  grind [→ inOrder_mem, → inOrder_canon, gate_mem, gate_canon, roleWrite_mem]

theorem cxlCfgWrite_mem (s : State) (x) (src) (v) :
    (s.cxlCfgWrite x src v).mem = s.mem := by
  unfold State.cxlCfgWrite
  grind [reject_mem, applyWrite_mem, setFld_mem]

end Sys2Proof.Machine
end

