-- ==== Sys2Proof/Laws/MemReliability.lean ====
section
/-!
SUPPORT. What a reliability command leaves of memory: all of it, or its canonical form.
-/
namespace Sys2Proof.Machine

set_option Elab.async false

theorem setHb_mem (s : State) (h) (v) :
    (s.setHb h v).mem = s.mem := by
  unfold State.setHb
  grind [setFld_mem]

theorem setSync_mem (s : State) (v) :
    (s.setSync v).mem = s.mem := by
  unfold State.setSync
  grind [setFld_mem]

theorem enterSafeHold_canon (s : State) (cause) (hs : Canon s.mem) :
    Canon (s.enterSafeHold cause).mem := by
  unfold State.enterSafeHold
  grind [setFld_mem, logErr_mem, emit_mem, deviceEvent_canon, fresh_mem, portDown_canon, foldl_mem, foldl_canon, foldl_mem_snd, foldl_canon_snd, foldl_mem_fst, foldl_canon_fst, Option.getD, canon_sSet, SOut.All, Body.All, SVal.All, Mv.All, MvEnd.All, RecEnd.All, Rows.All]

theorem execSpineHang_canon (s : State) (hs : Canon s.mem) (t : State) (ht : (execSpineHang s) = .next t) :
    Canon t.mem := by
  unfold execSpineHang at ht
  grind [enterSafeHold_canon]

theorem execJournalAckTimeout_mem (s : State) (t : State) (ht : (execJournalAckTimeout s) = .next t) :
    t.mem = s.mem := by
  unfold execJournalAckTimeout at ht
  grind [setHb_mem, setSync_mem]

theorem execStandbySynced_mem (s : State) (t : State) (ht : (execStandbySynced s) = .next t) :
    t.mem = s.mem := by
  unfold execStandbySynced at ht
  grind [setSync_mem, emit_mem]

theorem execHeadbandReboot_mem (h) (s : State) (t : State) (ht : (execHeadbandReboot h s) = .next t) :
    t.mem = s.mem := by
  unfold execHeadbandReboot at ht
  grind [setHb_mem, setSync_mem, setEng_mem]

theorem failover_canon (s : State) (hs : Canon s.mem) :
    Canon (s.failover).mem := by
  unfold State.failover
  grind [setHb_mem, modEng_mem, setSync_mem, enterSafeHold_canon, setFld_mem, → execTipInFailure_canon, fresh_mem, logErr_mem, emit_mem]

theorem execHbFailover_canon (s : State) (hs : Canon s.mem) (t : State) (ht : (execHbFailover s) = .next t) :
    Canon t.mem := by
  unfold execHbFailover at ht
  grind [failover_canon]

theorem noteFailed_mem (s : State) (u) :
    (s.noteFailed u).mem = s.mem := by
  unfold State.noteFailed
  grind [logErr_mem]

theorem offlineQuire_canon (s : State) (i) (n) (spare) (hs : Canon s.mem) :
    Canon (s.offlineQuire i n spare).mem := by
  unfold State.offlineQuire
  grind [colophon_mem, colophon_canon, setQmap_mem, contextFatal_canon, modQ_mem, mgmtNote_canon]

theorem failQuire_canon (s : State) (i) (hs : Canon s.mem) :
    Canon (s.failQuire i).mem := by
  unfold State.failQuire
  grind [noteFailed_mem, colophon_mem, colophon_canon, setFld_mem, → execTipInFailure_canon, modQ_mem, offlineQuire_canon, → execTipIn_mem, availEvent_canon]

theorem failStitcher_canon (s : State) (e) (hs : Canon s.mem) :
    Canon (s.failStitcher e).mem := by
  unfold State.failStitcher
  grind [fresh_mem, noteFailed_mem, haltEngine_mem, colophon_mem, colophon_canon, setFld_mem, availEvent_canon]

theorem failFrame_canon (s : State) (f) (hs : Canon s.mem) :
    Canon (s.failFrame f).mem := by
  unfold State.failFrame
  grind [noteFailed_mem, endStream_mem, setFrame_mem, colophon_mem, colophon_canon, setFld_mem, availEvent_canon, foldl_mem, foldl_canon, foldl_mem_snd, foldl_canon_snd, foldl_mem_fst, foldl_canon_fst, Option.getD, canon_sSet, SOut.All, Body.All, SVal.All, Mv.All, MvEnd.All, RecEnd.All, Rows.All]

theorem failMover_mem (s : State) (f) (m) :
    (s.failMover f m).mem = s.mem := by
  unfold State.failMover
  grind [noteFailed_mem, setFrame_mem]

theorem failBank_canon (s : State) (r) (n) (hs : Canon s.mem) :
    Canon (s.failBank r n).mem := by
  unfold State.failBank
  grind [noteFailed_mem, availMem_canon]

theorem failMem_canon (s : State) (r) (n) (hs : Canon s.mem) :
    Canon (s.failMem r n).mem := by
  unfold State.failMem
  grind [noteFailed_mem, setUnitState_mem, availMem_canon]

theorem failPort_canon (s : State) (p) (hs : Canon s.mem) :
    Canon (s.failPort p).mem := by
  unfold State.failPort
  grind [fresh_mem, noteFailed_mem, portDown_canon]

theorem failHb_canon (s : State) (h) (hs : Canon s.mem) :
    Canon (s.failHb h).mem := by
  unfold State.failHb
  grind [failover_canon, noteFailed_mem, setHb_mem, setSync_mem, modEng_mem]

theorem failUnit_canon (s : State) (type) (inst) (mover) (hs : Canon s.mem) :
    Canon (s.failUnit type inst mover).mem := by
  unfold State.failUnit
  grind [failQuire_canon, failStitcher_canon, failMover_mem, failFrame_canon, failBank_canon, failMem_canon, failPort_canon, enterSafeHold_canon, failHb_canon]

theorem execUnitFailed_canon (type) (inst) (mover) (s : State) (hs : Canon s.mem) (t : State) (ht : (execUnitFailed type inst mover s) = .next t) :
    Canon t.mem := by
  unfold execUnitFailed at ht
  grind [refused_mem, failUnit_canon]

theorem svcResult_mem (s : State) (n) :
    (s.svcResult n).mem = s.mem := by
  unfold State.svcResult
  grind [setFld_mem]

theorem svcTest_mem (s : State) (type) (inst) :
    (s.svcTest type inst).mem = s.mem := by
  unfold State.svcTest
  grind [setFld_mem, setQ_mem, resetRegs_mem, setEng_mem, loseRam_mem, modFrameEngs_mem, setFrame_mem, stitchLost_mem]

theorem svcAdmit_canon (s : State) (type) (inst) (hs : Canon s.mem) :
    Canon (s.svcAdmit type inst).mem := by
  unfold State.svcAdmit
  grind [colophon_mem, colophon_canon, setFld_mem, setQmap_mem, modQ_mem, availEvent_canon, svcResult_mem, modEng_mem, modFrameEngs_mem, setFrame_mem]

theorem svcWrite_canon (s : State) (src) (act) (type) (inst) (hs : Canon s.mem) :
    Canon (s.svcWrite src act type inst).mem := by
  unfold State.svcWrite
  grind [reject_mem, svcResult_mem, svcTest_mem, svcAdmit_canon, failUnit_canon]

theorem execTest_canon (src) (type) (inst) (s : State) (hs : Canon s.mem) (t : State) (ht : (execTest src type inst s) = .next t) :
    Canon t.mem := by
  unfold execTest at ht
  grind [→ inOrder_mem, → inOrder_canon, gate_mem, gate_canon, svcWrite_canon]

theorem execAdmitUnit_canon (src) (type) (inst) (s : State) (hs : Canon s.mem) (t : State) (ht : (execAdmitUnit src type inst s) = .next t) :
    Canon t.mem := by
  unfold execAdmitUnit at ht
  grind [→ inOrder_mem, → inOrder_canon, gate_mem, gate_canon, svcWrite_canon]

theorem execRetire_canon (src) (type) (inst) (s : State) (hs : Canon s.mem) (t : State) (ht : (execRetire src type inst s) = .next t) :
    Canon t.mem := by
  unfold execRetire at ht
  grind [→ inOrder_mem, → inOrder_canon, gate_mem, gate_canon, svcWrite_canon]

theorem testTrained_mem (s : State) (r) (n) :
    (s.testTrained r n).mem = s.mem := by
  unfold State.testTrained
  grind [fresh_mem, setFld_mem]

theorem execTestComplete_mem (pass) (s : State) (t : State) (ht : (execTestComplete pass s) = .next t) :
    t.mem = s.mem := by
  unfold execTestComplete at ht
  grind [setFld_mem, svcResult_mem, testTrained_mem]

theorem execCalibration_mem (type) (inst) (forced) (ns) (s : State) (t : State) (ht : (execCalibration type inst forced ns s) = .next t) :
    t.mem = s.mem := by
  unfold execCalibration at ht
  grind [refused_mem, setUnitState_mem, emit_mem]

theorem execTargetedRowRefresh_mem (type) (inst) (s : State) (t : State) (ht : (execTargetedRowRefresh type inst s) = .next t) :
    t.mem = s.mem := by
  unfold execTargetedRowRefresh at ht
  grind [refused_mem]

theorem setLate_mem (s : State) (ch) (late) :
    (s.setLate ch late).mem = s.mem := by
  unfold State.setLate
  grind [setFld_mem]

theorem modTxb_mem (s : State) (ch) (f) :
    (s.modTxb ch f).mem = s.mem := by
  unfold State.modTxb
  grind

theorem retireAdvice_mem (s : State) (ch) (addrs) (synd) :
    (s.retireAdvice ch addrs synd).mem = s.mem := by
  unfold State.retireAdvice
  grind [logErr_mem, modTxb_mem, foldl_mem, foldl_canon, foldl_mem_snd, foldl_canon_snd, foldl_mem_fst, foldl_canon_fst, Option.getD, canon_sSet, SOut.All, Body.All, SVal.All, Mv.All, MvEnd.All, RecEnd.All, Rows.All]

theorem logBitline_mem (s : State) (ch) (synd) (repaired) :
    (s.logBitline ch synd repaired).mem = s.mem := by
  unfold State.logBitline
  grind [fresh_mem, logErr_mem]

theorem classify_mem (s : State) (ch) (row) (col) (sym) :
    (s.classify ch row col sym).mem = s.mem := by
  unfold State.classify
  grind [modTxb_mem, emit_mem, logBitline_mem, retireAdvice_mem]

theorem scrubCe_mem (s : State) (ch) (row) (word) (col) (sym) :
    (s.scrubCe ch row word col sym).mem = s.mem := by
  unfold State.scrubCe
  grind [logErr_mem, modTxb_mem, classify_mem]

theorem scrubUe_mem (s : State) (ch) (row) (word) :
    (s.scrubUe ch row word).mem = s.mem := by
  unfold State.scrubUe
  grind [fresh_mem, logErr_mem, setPoison_mem, emit_mem]

theorem execScrubRowStep_mem (ch) (ces) (ues) (s : State) (t : State) (ht : (execScrubRowStep ch ces ues s) = .next t) :
    t.mem = s.mem := by
  unfold execScrubRowStep at ht
  grind [refused_mem, modTxb_mem, scrubCe_mem, scrubUe_mem, countEvent_mem, setFld_mem, setLate_mem, foldl_mem, foldl_canon, foldl_mem_snd, foldl_canon_snd, foldl_mem_fst, foldl_canon_fst, Option.getD, canon_sSet, SOut.All, Body.All, SVal.All, Mv.All, MvEnd.All, RecEnd.All, Rows.All]

theorem execRepairRowStep_mem (ch) (s : State) (t : State) (ht : (execRepairRowStep ch s) = .next t) :
    t.mem = s.mem := by
  unfold execRepairRowStep at ht
  grind [modTxb_mem, logBitline_mem]

theorem execRowSpared_mem (ch) (s : State) (t : State) (ht : (execRowSpared ch s) = .next t) :
    t.mem = s.mem := by
  unfold execRowSpared at ht
  grind [modTxb_mem, fresh_mem, logErr_mem, emit_mem, retireAdvice_mem]

theorem execScrubLate_mem (ch) (s : State) (t : State) (ht : (execScrubLate ch s) = .next t) :
    t.mem = s.mem := by
  unfold execScrubLate at ht
  grind [setLate_mem]

end Sys2Proof.Machine
end

