-- ==== Sys2Proof/Laws/MemReset.lean ====
section
/-!
SUPPORT. What a reset leaves of memory: all of it, or its canonical form.
-/
namespace Sys2Proof.Machine

set_option Elab.async false

theorem afterReset_canon (s : State) (cold) (hs : Canon s.mem) :
    Canon (s.afterReset cold).mem := by
  unfold State.afterReset
  grind [fresh_mem, loseRange_canon, setFld_mem]

theorem bootHeadbands_mem (s : State) (env) :
    (s.bootHeadbands env).mem = s.mem := by
  unfold State.bootHeadbands
  grind [setFld_mem, setHb_mem, setSync_mem]

theorem bootUnit_mem (s : State) (env) (r) (n) :
    (s.bootUnit env r n).mem = s.mem := by
  unfold State.bootUnit
  grind [setFld_mem]

theorem bootTiers_mem (s : State) (env) :
    (s.bootTiers env).mem = s.mem := by
  unfold State.bootTiers
  grind [bootUnit_mem, setFld_mem, foldl_mem, foldl_canon, foldl_mem_snd, foldl_canon_snd, foldl_mem_fst, foldl_canon_fst, Option.getD, canon_sSet, SOut.All, Body.All, SVal.All, Mv.All, MvEnd.All, RecEnd.All, Rows.All]

theorem bootQuires_mem (s : State) (env) :
    (s.bootQuires env).mem = s.mem := by
  unfold State.bootQuires
  grind [setQ_mem, setQmap_mem, setReg_mem, foldl_mem, foldl_canon, foldl_mem_snd, foldl_canon_snd, foldl_mem_fst, foldl_canon_fst, Option.getD, canon_sSet, SOut.All, Body.All, SVal.All, Mv.All, MvEnd.All, RecEnd.All, Rows.All]

theorem bootStitch_mem (s : State) (env) :
    (s.bootStitch env).mem = s.mem := by
  unfold State.bootStitch
  grind [setReg_mem]

theorem bootNode_mem (s : State) :
    (s.bootNode).mem = s.mem := by
  unfold State.bootNode
  grind [setReg_mem, setFld_mem]

theorem bootStep_mem (s : State) (n) :
    (s.bootStep n).mem = s.mem := by
  unfold State.bootStep
  grind [record_mem]

theorem boot_mem (s : State) (env) :
    (s.boot env).mem = s.mem := by
  unfold State.boot
  grind [setFld_mem, bootHeadbands_mem, ringStart_mem, bootStep_mem, bootTiers_mem, bootQuires_mem, bootStitch_mem, fresh_mem, bootNode_mem, ppMove_mem, foldl_mem, foldl_canon, foldl_mem_snd, foldl_canon_snd, foldl_mem_fst, foldl_canon_fst, Option.getD, canon_sSet, SOut.All, Body.All, SVal.All, Mv.All, MvEnd.All, RecEnd.All, Rows.All]

theorem blockReset_canon (s : State) (env) (clear) (hs : Canon s.mem) :
    Canon (s.blockReset env clear).mem := by
  unfold State.blockReset
  grind [hold_mem, afterReset_canon, setFld_mem, boot_mem]

theorem rstCause_mem (s : State) (b) :
    (s.rstCause b).mem = s.mem := by
  unfold State.rstCause
  grind [setFld_mem]

theorem coldReset_canon (s : State) (cause) (env) (hs : Canon s.mem) :
    Canon (s.coldReset cause env).mem := by
  unfold State.coldReset
  grind [afterReset_canon, rstCause_mem, boot_mem]

theorem loseCause_mem (s : State) :
    (s.loseCause).mem = s.mem := by
  unfold State.loseCause
  grind [fresh_mem, setReg_mem]

theorem execColdReset_canon (cause) (straps) (env) (s : State) (hs : Canon s.mem) (t : State) (ht : (execColdReset cause straps env s) = .next t) :
    Canon t.mem := by
  unfold execColdReset at ht
  grind [coldReset_canon, fresh_mem, loseCause_mem]

theorem execBlockReset_canon (env) (s : State) (hs : Canon s.mem) (t : State) (ht : (execBlockReset env s) = .next t) :
    Canon t.mem := by
  unfold execBlockReset at ht
  grind [blockReset_canon]

theorem execRailFailure_canon (rail) (env) (s : State) (hs : Canon s.mem) (t : State) (ht : (execRailFailure rail env s) = .next t) :
    Canon t.mem := by
  unfold execRailFailure at ht
  grind [loseCause_mem, coldReset_canon, loseSave_mem, rstCause_mem, blockReset_canon, foldl_mem, foldl_canon, foldl_mem_snd, foldl_canon_snd, foldl_mem_fst, foldl_canon_fst, Option.getD, canon_sSet, SOut.All, Body.All, SVal.All, Mv.All, MvEnd.All, RecEnd.All, Rows.All]

theorem hbCtlWrite_canon (s : State) (src) (v) (env) (hs : Canon s.mem) :
    Canon (s.hbCtlWrite src v env).mem := by
  unfold State.hbCtlWrite
  grind [rstCause_mem, blockReset_canon, reject_mem]

theorem execMresetArm_canon (src) (s : State) (hs : Canon s.mem) (t : State) (ht : (execMresetArm src s) = .next t) :
    Canon t.mem := by
  unfold execMresetArm at ht
  grind [→ inOrder_mem, → inOrder_canon, gate_mem, gate_canon, hbCtlWrite_canon]

theorem execManagementReset_canon (src) (env) (s : State) (hs : Canon s.mem) (t : State) (ht : (execManagementReset src env s) = .next t) :
    Canon t.mem := by
  unfold execManagementReset at ht
  grind [→ inOrder_mem, → inOrder_canon, gate_mem, gate_canon, hbCtlWrite_canon]

theorem execMresetArmExpiry_mem (s : State) (t : State) (ht : (execMresetArmExpiry s) = .next t) :
    t.mem = s.mem := by
  unfold execMresetArmExpiry at ht
  grind

theorem loadWir_canon (s : State) (w) (env) (hs : Canon s.mem) :
    Canon (s.loadWir w env).mem := by
  unfold State.loadWir
  grind [blockReset_canon]

theorem execWsBypass_canon (env) (s : State) (hs : Canon s.mem) (t : State) (ht : (execWsBypass env s) = .next t) :
    Canon t.mem := by
  unfold execWsBypass at ht
  grind [loadWir_canon]

theorem execWsIjtag_canon (env) (s : State) (hs : Canon s.mem) (t : State) (ht : (execWsIjtag env s) = .next t) :
    Canon t.mem := by
  unfold execWsIjtag at ht
  grind [loadWir_canon]

theorem execWsPreload_canon (env) (s : State) (hs : Canon s.mem) (t : State) (ht : (execWsPreload env s) = .next t) :
    Canon t.mem := by
  unfold execWsPreload at ht
  grind [loadWir_canon]

theorem execWsExtest_canon (env) (s : State) (hs : Canon s.mem) (t : State) (ht : (execWsExtest env s) = .next t) :
    Canon t.mem := by
  unfold execWsExtest at ht
  grind [loadWir_canon]

theorem execWsIntest_canon (env) (s : State) (hs : Canon s.mem) (t : State) (ht : (execWsIntest env s) = .next t) :
    Canon t.mem := by
  unfold execWsIntest at ht
  grind [loadWir_canon]

theorem execWsClamp_canon (env) (s : State) (hs : Canon s.mem) (t : State) (ht : (execWsClamp env s) = .next t) :
    Canon t.mem := by
  unfold execWsClamp at ht
  grind [loadWir_canon]

theorem execWsSafe_canon (env) (s : State) (hs : Canon s.mem) (t : State) (ht : (execWsSafe env s) = .next t) :
    Canon t.mem := by
  unfold execWsSafe at ht
  grind [loadWir_canon]

end Sys2Proof.Machine
end

