-- ==== Sys2Proof/Laws/MemWindow.lean ====
section
/-!
SUPPORT. What a window access leaves of memory: all of it, or its canonical form.
-/
namespace Sys2Proof.Machine

set_option Elab.async false

theorem winLook_mem (s : State) (debug) (off) (n) :
    (s.winLook debug off n).mem = s.mem := by
  unfold State.winLook
  grind [settleCounts_mem]

theorem putIf_mem (s : State) (ok) (src) (off) (v) :
    (s.putIf ok src off v).mem = s.mem := by
  unfold State.putIf
  grind [applyWrite_mem, reject_mem]

theorem freeEnv_mem (s : State) :
    (s.freeEnv).2.mem = s.mem := by
  unfold State.freeEnv
  grind [fresh_mem]

theorem writeGlb_canon (s : State) (src) (off) (v) (hs : Canon s.mem) :
    Canon (s.writeGlb src off v).mem := by
  unfold State.writeGlb
  grind [applyWrite_mem, setFld_mem, putIf_mem, reject_mem, xlatInvWrite_mem, → execXfqRetry_canon, → execXfqFail_mem, roleWrite_mem]

theorem writeHst_canon (s : State) (src) (off) (v) (hs : Canon s.mem) :
    Canon (s.writeHst src off v).mem := by
  unfold State.writeHst
  grind [putIf_mem, qcmdWrite_canon, applyWrite_mem]

theorem writePwr_canon (s : State) (src) (off) (v) (hs : Canon s.mem) :
    Canon (s.writePwr src off v).mem := by
  unfold State.writePwr
  dsimp only
  (repeat' split) <;> (repeat first | with_reducible exact hs | rw [domWrite_mem] | rw [calWrite_mem] | rw [putIf_mem] | rw [clkWrite_mem] | with_reducible apply devWrite_canon | rw [reject_mem] | rw [applyWrite_mem] | with_reducible apply svcWrite_canon | with_reducible apply hbCtlWrite_canon | rw [freeEnv_mem])

theorem writeErr_mem (s : State) (src) (off) (v) :
    (s.writeErr src off v).mem = s.mem := by
  unfold State.writeErr
  grind [putIf_mem]

theorem writeDbg_mem (s : State) (src) (off) (v) :
    (s.writeDbg src off v).mem = s.mem := by
  unfold State.writeDbg
  grind [reject_mem, applyWrite_mem, ringCtl_mem, emit_mem, putIf_mem, countCfg_mem, countWrite_mem]

theorem quireReg_canon (s : State) (src) (writer) (i) (w) (off) (v) (hs : Canon s.mem) :
    Canon (s.quireReg src writer i w off v).mem := by
  unfold State.quireReg
  grind [ctxWrite_canon, putIf_mem, reject_mem, raiseIrq_mem, qEnd_canon, cacheCtlWrite_mem, applyWrite_mem]

theorem writeQuire_canon (s : State) (src) (writer) (off) (v) (hs : Canon s.mem) :
    Canon (s.writeQuire src writer off v).mem := by
  unfold State.writeQuire
  grind [quireReg_canon]

theorem frameReg_canon (s : State) (src) (writer) (f) (w) (off) (v) (hs : Canon s.mem) :
    Canon (s.frameReg src writer f w off v).mem := by
  unfold State.frameReg
  grind [screate_canon, reject_mem, sctlWrite_mem, patchStart_mem]

theorem writeFrame_canon (s : State) (src) (writer) (off) (v) (hs : Canon s.mem) :
    Canon (s.writeFrame src writer off v).mem := by
  unfold State.writeFrame
  grind [frameReg_canon]

theorem writeMem_canon (s : State) (src) (off) (v) (hs : Canon s.mem) :
    Canon (s.writeMem src off v).mem := by
  unfold State.writeMem
  grind [tierWrite_canon, cxlCfgWrite_mem, putIf_mem, applyWrite_mem]

theorem portReg_canon (s : State) (src) (p) (w) (off) (v) (hs : Canon s.mem) :
    Canon (s.portReg src p w off v).mem := by
  unfold State.portReg
  grind [lnkCtlWrite_canon, putIf_mem, applyWrite_mem]

theorem nodeWrite_mem (s : State) (off) (v) :
    (s.nodeWrite off v).mem = s.mem := by
  unfold State.nodeWrite
  grind [fresh_mem, applyWrite_mem, setFld_mem]

theorem rteBootWrite_mem (s : State) (off) (v) :
    (s.rteBootWrite off v).mem = s.mem := by
  unfold State.rteBootWrite
  grind [setFld_mem, releasePorts_mem]

theorem routerReg_mem (s : State) (src) (w) (off) (v) :
    (s.routerReg src w off v).mem = s.mem := by
  unfold State.routerReg
  grind [reject_mem, nodeWrite_mem, rteBootWrite_mem, putIf_mem, epochWrite_mem, applyWrite_mem]

theorem writeLnk_canon (s : State) (src) (off) (v) (hs : Canon s.mem) :
    Canon (s.writeLnk src off v).mem := by
  unfold State.writeLnk
  grind [portReg_canon, routerReg_mem]

theorem writeReg_canon (s : State) (src) (writer) (off) (v) (hs : Canon s.mem) :
    Canon (s.writeReg src writer off v).mem := by
  unfold State.writeReg
  grind [writeGlb_canon, writeHst_canon, writePwr_canon, writeErr_mem, writeDbg_mem, writeQuire_canon, writeFrame_canon, writeMem_canon, writeLnk_canon]

theorem putRte_mem (s : State) (off) (bs) :
    (s.putRte off bs).mem = s.mem := by
  unfold State.putRte
  grind

theorem routeReg_mem (s : State) (src) (x) (off) (v) :
    (s.routeReg src x off v).mem = s.mem := by
  unfold State.routeReg
  grind [reject_mem, putRte_mem]

theorem writeRoute_mem (s : State) (src) (off) (v) :
    (s.writeRoute src off v).mem = s.mem := by
  unfold State.writeRoute
  grind [routeReg_mem]

theorem writeKey_mem (s : State) (src) (off) (n) (v) :
    (s.writeKey src off n v).mem = s.mem := by
  unfold State.writeKey
  grind [reject_mem, putRte_mem]

theorem writeOther_mem (s : State) (src) (off) (n) (v) :
    (s.writeOther src off n v).mem = s.mem := by
  unfold State.writeOther
  grind [writeKey_mem, writeRoute_mem, setFrame_mem, reject_mem]

theorem writeHalf_canon (s : State) (src) (writer) (r) (base) (high) (v) (hs : Canon s.mem) :
    Canon (s.writeHalf src writer r base high v).mem := by
  unfold State.writeHalf
  grind [reject_mem, applyWrite_mem, writeReg_canon]

theorem winWrite32_canon (s : State) (src) (writer) (off) (v) (hs : Canon s.mem) :
    Canon (s.winWrite32 src writer off v).mem := by
  unfold State.winWrite32
  grind [writeReg_canon, writeHalf_canon, writeOther_mem]

theorem writePage_mem (s : State) (src) (off) (v) :
    (s.writePage src off v).mem = s.mem := by
  unfold State.writePage
  grind [doorbellWrite_mem, gate_mem, gate_canon, reject_mem]

theorem winWrite_canon (s : State) (src) (writer) (off) (wide) (v) (hs : Canon s.mem) :
    Canon (s.winWrite src writer off wide v).mem := by
  unfold State.winWrite
  grind [gate_mem, gate_canon, reject_mem, writePage_mem, winWrite32_canon, writeReg_canon, writeOther_mem]

theorem answer_mem (s : State) (tag) (data) (err) :
    (s.answer tag data err).mem = s.mem := by
  unfold State.answer
  grind

theorem hostWriteReg_canon (s : State) (tag) (off) (wide) (v) (hs : Canon s.mem) :
    Canon (s.hostWriteReg tag off wide v).mem := by
  unfold State.hostWriteReg
  grind [winWrite_canon, answer_mem]

theorem hostReadReg_mem (s : State) (tag) (off) (wide) :
    (s.hostReadReg tag off wide).mem = s.mem := by
  unfold State.hostReadReg
  grind [answer_mem, winLook_mem]

theorem execRegisterWrite_canon (src) (who) (addr) (wide) (v) (s : State) (hs : Canon s.mem) (t : State) (ht : (execRegisterWrite src who addr wide v s) = .next t) :
    Canon t.mem := by
  unfold execRegisterWrite at ht
  grind [→ inOrder_mem, → inOrder_canon, hostWriteReg_canon, winWrite_canon]

theorem execHostRead_mem (tag) (addr) (wide) (s : State) (t : State) (ht : (execHostRead tag addr wide s) = .next t) :
    t.mem = s.mem := by
  unfold execHostRead at ht
  grind [→ inOrder_mem, → inOrder_canon, hostReadReg_mem]

theorem hostPerform_canon (s : State) (x1) (hs : Canon s.mem) :
    Canon (s.hostPerform x1).mem := by
  unfold State.hostPerform
  grind [hostReadReg_mem, hostWriteReg_canon, gate_mem, gate_canon, hbCtlWrite_canon]

theorem hostReplay_canon (s : State) (x1) (hs : Canon s.mem) :
    Canon (s.hostReplay x1).mem := by
  fun_induction (s.hostReplay x1) <;> grind [hostPerform_canon]

theorem execHostReadTimeout_mem (tag) (s : State) (t : State) (ht : (execHostReadTimeout tag s) = .next t) :
    t.mem = s.mem := by
  unfold execHostReadTimeout at ht
  grind [answer_mem]

theorem dbgAnswer_mem (s : State) (data) (err) :
    (s.dbgAnswer data err).mem = s.mem := by
  unfold State.dbgAnswer
  grind

theorem execDebugAccess_canon (we) (addr) (wdata) (s : State) (hs : Canon s.mem) (t : State) (ht : (execDebugAccess we addr wdata s) = .next t) :
    Canon t.mem := by
  unfold execDebugAccess at ht
  grind [dbgAnswer_mem, wake_canon, unhold_mem, unhold_canon, devWrite_canon, winWrite32_canon, winLook_mem]

theorem winStore_canon (i) (pas) (v) (s : State) (hs : Canon s.mem) :
    Canon (winStore i pas v s).mem := by
  unfold winStore
  grind [winWrite_canon]

end Sys2Proof.Machine
end

