-- ==== Sys2Proof/Laws/MemArrays.lean ====
section
/-!
SUPPORT. What an error of an array leaves of memory: all of it, or its canonical form.
-/
namespace Sys2Proof.Machine

set_option Elab.async false

theorem quireCe_canon (s : State) (i) (addr) (hs : Canon s.mem) :
    Canon (s.quireCe i addr).mem := by
  unfold State.quireCe
  grind [logErr_mem, failQuire_canon]

theorem unitCe_mem (s : State) (u) :
    (s.unitCe u).mem = s.mem := by
  unfold State.unitCe
  grind [logErr_mem]

theorem ueArray_mem (s : State) (sev) (u) (flags) (addr) (ctx) :
    (s.ueArray sev u flags addr ctx).2.mem = s.mem := by
  unfold State.ueArray
  grind [logBank_mem]

theorem ueRegs_canon (s : State) (i) (hs : Canon s.mem) :
    Canon (s.ueRegs i).mem := by
  unfold State.ueRegs
  grind [ueArray_mem, contextFatal_canon]

theorem ueTile_mem (s : State) (i) (n) (f) :
    (s.ueTile i n f).mem = s.mem := by
  unfold State.ueTile
  grind [ueArray_mem, modQ_mem]

theorem ueAcc_mem (s : State) (i) (a) (b) :
    (s.ueAcc i a b).mem = s.mem := by
  unfold State.ueAcc
  grind [ueArray_mem, modQ_mem]

theorem l1Ce_canon (s : State) (i) (line) (hs : Canon s.mem) :
    Canon (s.l1Ce i line).mem := by
  unfold State.l1Ce
  grind [quireCe_canon, modQ_mem]

theorem l2Data_canon (s : State) (i) (line) (dirty) (hs : Canon s.mem) :
    Canon (s.l2Data i line dirty).mem := by
  unfold State.l2Data
  grind [quireCe_canon, ueArray_mem, modQ_mem, setPoison_mem]

theorem l2Tag_canon (s : State) (i) (set) (hs : Canon s.mem) :
    Canon (s.l2Tag i set).mem := by
  unfold State.l2Tag
  grind [quireCe_canon, modQ_mem]

theorem ueMem_mem (s : State) (a) :
    (s.ueMem a).mem = s.mem := by
  unfold State.ueMem
  grind [ueArray_mem, setPoison_mem, logErr_mem]

theorem ueStream_mem (s : State) (id) :
    (s.ueStream id).mem = s.mem := by
  unfold State.ueStream
  grind [ueArray_mem, endStream_mem]

theorem ueEngine_mem (s : State) (e) (vec) :
    (s.ueEngine e vec).mem = s.mem := by
  unfold State.ueEngine
  grind [ueArray_mem, haltEngine_mem]

theorem arrayError_canon (s : State) (kind) (x) (hs : Canon s.mem) :
    Canon (s.arrayError kind x).mem := by
  unfold State.arrayError
  grind [quireCe_canon, unitCe_mem, ueRegs_canon, ueTile_mem, ueAcc_mem, l1Ce_canon, l2Data_canon, l2Tag_canon, enterSafeHold_canon, ueMem_mem, ueStream_mem, ueEngine_mem, failHb_canon, loseSave_mem]

theorem strike_canon (s : State) (hs : Canon s.mem) :
    Canon (s.strike).mem := by
  unfold State.strike
  grind [fresh_mem, arrayError_canon]

theorem idle_canon (s : State) (hs : Canon s.mem) :
    Canon (s.idle).mem := by
  unfold State.idle
  grind [hostReplay_canon, strike_canon]

end Sys2Proof.Machine
end

