-- ==== Sys2Proof/Laws/MemFloat.lean ====
section
/-!
SUPPORT. What a floating-point instruction leaves of memory: all of it, or its canonical form.
-/
namespace Sys2Proof.Machine

set_option Elab.async false

theorem fpRound_canon (q) (fd) (rm) (f) (s : State) (hs : Canon s.mem) (t : State) (ht : (fpRound q fd rm f s) = .next t) :
    Canon t.mem := by
  unfold fpRound at ht
  grind [→ tehus_canon, simple_canon, foldl_mem, foldl_canon, foldl_mem_snd, foldl_canon_snd, foldl_mem_fst, foldl_canon_fst, Option.getD, canon_sSet, SOut.All, Body.All, SVal.All, Mv.All, MvEnd.All, RecEnd.All, Rows.All]

theorem fpPlain_canon (q) (rm) (f) (s : State) (hs : Canon s.mem) (t : State) (ht : (fpPlain q rm f s) = .next t) :
    Canon t.mem := by
  unfold fpPlain at ht
  grind [→ tehus_canon, simple_canon, foldl_mem, foldl_canon, foldl_mem_snd, foldl_canon_snd, foldl_mem_fst, foldl_canon_fst, Option.getD, canon_sSet, SOut.All, Body.All, SVal.All, Mv.All, MvEnd.All, RecEnd.All, Rows.All]

theorem fpRR_canon (q) (dbl) (fd) (fs1) (fs2) (rm) (f) (s : State) (hs : Canon s.mem) (t : State) (ht : (fpRR q dbl fd fs1 fs2 rm f s) = .next t) :
    Canon t.mem := by
  unfold fpRR at ht
  grind [→ fpRound_canon]

theorem fpMinMax_canon (q) (dbl) (fd) (fs1) (fs2) (rm) (wantMax) (s : State) (hs : Canon s.mem) (t : State) (ht : (fpMinMax q dbl fd fs1 fs2 rm wantMax s) = .next t) :
    Canon t.mem := by
  unfold fpMinMax at ht
  grind [→ fpPlain_canon]

theorem fpSign_canon (q) (dbl) (fd) (fs1) (fs2) (rm) (f) (s : State) (hs : Canon s.mem) (t : State) (ht : (fpSign q dbl fd fs1 fs2 rm f s) = .next t) :
    Canon t.mem := by
  unfold fpSign at ht
  grind [→ fpPlain_canon]

theorem fpCmp_canon (q) (dbl) (rd) (fs1) (fs2) (rm) (quiet) (f) (s : State) (hs : Canon s.mem) (t : State) (ht : (fpCmp q dbl rd fs1 fs2 rm quiet f s) = .next t) :
    Canon t.mem := by
  unfold fpCmp at ht
  grind [→ fpPlain_canon]

theorem fpFma_canon (q) (dbl) (fd) (fs1) (fs2) (fs3) (rm) (negProd) (negAdd) (s : State) (hs : Canon s.mem) (t : State) (ht : (fpFma q dbl fd fs1 fs2 fs3 rm negProd negAdd s) = .next t) :
    Canon t.mem := by
  unfold fpFma at ht
  grind [→ fpRound_canon]

theorem execFadd_canon (q) (dbl) (fd) (fs1) (fs2) (rm) (s : State) (hs : Canon s.mem) (t : State) (ht : (execFadd q dbl fd fs1 fs2 rm s) = .next t) :
    Canon t.mem := by
  unfold execFadd at ht
  grind [→ fpRR_canon]

theorem execFsub_canon (q) (dbl) (fd) (fs1) (fs2) (rm) (s : State) (hs : Canon s.mem) (t : State) (ht : (execFsub q dbl fd fs1 fs2 rm s) = .next t) :
    Canon t.mem := by
  unfold execFsub at ht
  grind [→ fpRR_canon]

theorem execFmul_canon (q) (dbl) (fd) (fs1) (fs2) (rm) (s : State) (hs : Canon s.mem) (t : State) (ht : (execFmul q dbl fd fs1 fs2 rm s) = .next t) :
    Canon t.mem := by
  unfold execFmul at ht
  grind [→ fpRR_canon]

theorem execFdiv_canon (q) (dbl) (fd) (fs1) (fs2) (rm) (s : State) (hs : Canon s.mem) (t : State) (ht : (execFdiv q dbl fd fs1 fs2 rm s) = .next t) :
    Canon t.mem := by
  unfold execFdiv at ht
  grind [→ fpRR_canon]

theorem execFsqrt_canon (q) (dbl) (fd) (fs1) (rm) (s : State) (hs : Canon s.mem) (t : State) (ht : (execFsqrt q dbl fd fs1 rm s) = .next t) :
    Canon t.mem := by
  unfold execFsqrt at ht
  grind [→ fpRound_canon]

theorem execFmin_canon (q) (dbl) (fd) (fs1) (fs2) (rm) (s : State) (hs : Canon s.mem) (t : State) (ht : (execFmin q dbl fd fs1 fs2 rm s) = .next t) :
    Canon t.mem := by
  unfold execFmin at ht
  grind [→ fpMinMax_canon]

theorem execFmax_canon (q) (dbl) (fd) (fs1) (fs2) (rm) (s : State) (hs : Canon s.mem) (t : State) (ht : (execFmax q dbl fd fs1 fs2 rm s) = .next t) :
    Canon t.mem := by
  unfold execFmax at ht
  grind [→ fpMinMax_canon]

theorem execFsgn_canon (q) (dbl) (fd) (fs1) (fs2) (rm) (s : State) (hs : Canon s.mem) (t : State) (ht : (execFsgn q dbl fd fs1 fs2 rm s) = .next t) :
    Canon t.mem := by
  unfold execFsgn at ht
  grind [→ fpSign_canon]

theorem execFsgnn_canon (q) (dbl) (fd) (fs1) (fs2) (rm) (s : State) (hs : Canon s.mem) (t : State) (ht : (execFsgnn q dbl fd fs1 fs2 rm s) = .next t) :
    Canon t.mem := by
  unfold execFsgnn at ht
  grind [→ fpSign_canon]

theorem execFsgnx_canon (q) (dbl) (fd) (fs1) (fs2) (rm) (s : State) (hs : Canon s.mem) (t : State) (ht : (execFsgnx q dbl fd fs1 fs2 rm s) = .next t) :
    Canon t.mem := by
  unfold execFsgnx at ht
  grind [→ fpSign_canon]

theorem execFeq_canon (q) (dbl) (rd) (fs1) (fs2) (rm) (s : State) (hs : Canon s.mem) (t : State) (ht : (execFeq q dbl rd fs1 fs2 rm s) = .next t) :
    Canon t.mem := by
  unfold execFeq at ht
  grind [→ fpCmp_canon]

theorem execFlt_canon (q) (dbl) (rd) (fs1) (fs2) (rm) (s : State) (hs : Canon s.mem) (t : State) (ht : (execFlt q dbl rd fs1 fs2 rm s) = .next t) :
    Canon t.mem := by
  unfold execFlt at ht
  grind [→ fpCmp_canon]

theorem execFle_canon (q) (dbl) (rd) (fs1) (fs2) (rm) (s : State) (hs : Canon s.mem) (t : State) (ht : (execFle q dbl rd fs1 fs2 rm s) = .next t) :
    Canon t.mem := by
  unfold execFle at ht
  grind [→ fpCmp_canon]

theorem execFclass_canon (q) (dbl) (rd) (fs1) (rm) (s : State) (hs : Canon s.mem) (t : State) (ht : (execFclass q dbl rd fs1 rm s) = .next t) :
    Canon t.mem := by
  unfold execFclass at ht
  grind [→ fpPlain_canon]

theorem execFmvG_canon (q) (dbl) (rd) (fs1) (rm) (s : State) (hs : Canon s.mem) (t : State) (ht : (execFmvG q dbl rd fs1 rm s) = .next t) :
    Canon t.mem := by
  unfold execFmvG at ht
  grind [→ fpPlain_canon]

theorem execFmvF_canon (q) (dbl) (fd) (rs1) (rm) (s : State) (hs : Canon s.mem) (t : State) (ht : (execFmvF q dbl fd rs1 rm s) = .next t) :
    Canon t.mem := by
  unfold execFmvF at ht
  grind [→ fpPlain_canon]

theorem execFmadd_canon (q) (dbl) (fd) (fs1) (fs2) (fs3) (rm) (s : State) (hs : Canon s.mem) (t : State) (ht : (execFmadd q dbl fd fs1 fs2 fs3 rm s) = .next t) :
    Canon t.mem := by
  unfold execFmadd at ht
  grind [→ fpFma_canon]

theorem execFmsub_canon (q) (dbl) (fd) (fs1) (fs2) (fs3) (rm) (s : State) (hs : Canon s.mem) (t : State) (ht : (execFmsub q dbl fd fs1 fs2 fs3 rm s) = .next t) :
    Canon t.mem := by
  unfold execFmsub at ht
  grind [→ fpFma_canon]

theorem execFnmadd_canon (q) (dbl) (fd) (fs1) (fs2) (fs3) (rm) (s : State) (hs : Canon s.mem) (t : State) (ht : (execFnmadd q dbl fd fs1 fs2 fs3 rm s) = .next t) :
    Canon t.mem := by
  unfold execFnmadd at ht
  grind [→ fpFma_canon]

theorem execFnmsub_canon (q) (dbl) (fd) (fs1) (fs2) (fs3) (rm) (s : State) (hs : Canon s.mem) (t : State) (ht : (execFnmsub q dbl fd fs1 fs2 fs3 rm s) = .next t) :
    Canon t.mem := by
  unfold execFnmsub at ht
  grind [→ fpFma_canon]

theorem execFcvt_canon (q) (dst) (src) (rd) (rs1) (rm) (s : State) (hs : Canon s.mem) (t : State) (ht : (execFcvt q dst src rd rs1 rm s) = .next t) :
    Canon t.mem := by
  unfold execFcvt at ht
  grind [→ tehus_canon, simple_canon, foldl_mem, foldl_canon, foldl_mem_snd, foldl_canon_snd, foldl_mem_fst, foldl_canon_fst, Option.getD, canon_sSet, SOut.All, Body.All, SVal.All, Mv.All, MvEnd.All, RecEnd.All, Rows.All]

end Sys2Proof.Machine
end

