-- ==== Sys2Proof/Laws/MemMemory.lean ====
section
/-!
SUPPORT. What a load, a store or an atomic leaves of memory: all of it, or its canonical form.
-/
namespace Sys2Proof.Machine

set_option Elab.async false

theorem loadPoison_mem (s : State) (i) (pas) :
    (s.loadPoison i pas).2.mem = s.mem := by
  unfold State.loadPoison
  grind [fresh_mem, modQ_mem, foldl_mem, foldl_canon, foldl_mem_snd, foldl_canon_snd, foldl_mem_fst, foldl_canon_fst, Option.getD, canon_sSet, SOut.All, Body.All, SVal.All, Mv.All, MvEnd.All, RecEnd.All, Rows.All]

theorem access_mem (s : State) (i) (k) (acc) (index) (l1) (va) (n) :
    (s.access i k acc index l1 va n).2.mem = s.mem := by
  unfold State.access
  grind [xlateSpan_mem, loadPoison_mem, consumePoison_mem, awayEnds_mem]

theorem scalarAccess_mem (s : State) (i) (k) (acc) (base) (va) (n) (f : State → List Nat → Body) (h_f : ∀ u y1, (f u y1).All (fun t => t.mem = u.mem)) :
    ((s.scalarAccess i k acc base va n f)).All (fun t => t.mem = s.mem) := by
  unfold State.scalarAccess
  grind [access_mem, foldl_mem, foldl_canon, foldl_mem_snd, foldl_canon_snd, foldl_mem_fst, foldl_canon_fst, Option.getD, canon_sSet, SOut.All, Body.All, SVal.All, Mv.All, MvEnd.All, RecEnd.All, Rows.All]

theorem scalarAccess_canon (s : State) (i) (k) (acc) (base) (va) (n) (f : State → List Nat → Body) (hs : Canon s.mem) (h_f : ∀ u y1, Canon u.mem → (f u y1).All (fun t => Canon t.mem)) :
    ((s.scalarAccess i k acc base va n f)).All (fun t => Canon t.mem) := by
  unfold State.scalarAccess
  grind [access_mem, scalarAccess_mem, foldl_mem, foldl_canon, foldl_mem_snd, foldl_canon_snd, foldl_mem_fst, foldl_canon_fst, Option.getD, canon_sSet, SOut.All, Body.All, SVal.All, Mv.All, MvEnd.All, RecEnd.All, Rows.All]

theorem remoteLoad_mem (s : State) (i) (dst) (len) (va) (pa) :
    (s.remoteLoad i dst len va pa).mem = s.mem := by
  unfold State.remoteLoad
  grind [modQ_mem, → request_mem, ctxEntry_mem]

theorem hostLoad_mem (s : State) (i) (dst) (len) (va) (a) (n) :
    (s.hostLoad i dst len va a n).mem = s.mem := by
  unfold State.hostLoad
  grind [modQ_mem, hostSend_mem, → hostTag_mem]

theorem doLoad_canon (s : State) (i) (dst) (len) (va) (pas) (hs : Canon s.mem) :
    (s.doLoad i dst len va pas).All (fun t => Canon t.mem) := by
  have hd : Canon (s.drain i).mem := drain_canon s i hs
  have hl : ∀ u : State, Canon u.mem → Canon (u.loadAny i pas).2.mem := fun u h => loadAny_canon u i pas h
  unfold State.doLoad
  grind [modQ_mem, hostLoad_mem, remoteLoad_mem, winLook_mem, Body.All]

theorem scalarLoad_canon (q) (dst) (n) (rs1) (imm) (s : State) (hs : Canon s.mem) (t : State) (ht : scalarLoad q dst n rs1 imm s = .next t) :
    Canon t.mem := by
  unfold scalarLoad at ht
  grind [doLoad_canon, scalarAccess_canon, → tehus_canon]

theorem execLb_canon (q) (rd) (rs1) (imm) (s : State) (hs : Canon s.mem) (t : State) (ht : execLb q rd rs1 imm s = .next t) :
    Canon t.mem := by
  unfold execLb at ht
  grind [→ scalarLoad_canon]

theorem execLbu_canon (q) (rd) (rs1) (imm) (s : State) (hs : Canon s.mem) (t : State) (ht : execLbu q rd rs1 imm s = .next t) :
    Canon t.mem := by
  unfold execLbu at ht
  grind [→ scalarLoad_canon]

theorem execLh_canon (q) (rd) (rs1) (imm) (s : State) (hs : Canon s.mem) (t : State) (ht : execLh q rd rs1 imm s = .next t) :
    Canon t.mem := by
  unfold execLh at ht
  grind [→ scalarLoad_canon]

theorem execLhu_canon (q) (rd) (rs1) (imm) (s : State) (hs : Canon s.mem) (t : State) (ht : execLhu q rd rs1 imm s = .next t) :
    Canon t.mem := by
  unfold execLhu at ht
  grind [→ scalarLoad_canon]

theorem execLw_canon (q) (rd) (rs1) (imm) (s : State) (hs : Canon s.mem) (t : State) (ht : execLw q rd rs1 imm s = .next t) :
    Canon t.mem := by
  unfold execLw at ht
  grind [→ scalarLoad_canon]

theorem execLwu_canon (q) (rd) (rs1) (imm) (s : State) (hs : Canon s.mem) (t : State) (ht : execLwu q rd rs1 imm s = .next t) :
    Canon t.mem := by
  unfold execLwu at ht
  grind [→ scalarLoad_canon]

theorem execLd_canon (q) (rd) (rs1) (imm) (s : State) (hs : Canon s.mem) (t : State) (ht : execLd q rd rs1 imm s = .next t) :
    Canon t.mem := by
  unfold execLd at ht
  grind [→ scalarLoad_canon]

theorem execFlw_canon (q) (fd) (rs1) (imm) (s : State) (hs : Canon s.mem) (t : State) (ht : execFlw q fd rs1 imm s = .next t) :
    Canon t.mem := by
  unfold execFlw at ht
  grind [→ scalarLoad_canon]

theorem execFld_canon (q) (fd) (rs1) (imm) (s : State) (hs : Canon s.mem) (t : State) (ht : execFld q fd rs1 imm s = .next t) :
    Canon t.mem := by
  unfold execFld at ht
  grind [→ scalarLoad_canon]

theorem doStore_canon (s : State) (i) (len) (va) (pas) (v) (hs : Canon s.mem) :
    (s.doStore i len va pas v).All (fun t => Canon t.mem) := by
  have hd : Canon (s.drain i).mem := drain_canon s i hs
  unfold State.doStore
  dsimp only
  split
  · exact ⟨hd, fun t ht => winStore_canon i pas v t ht⟩
  · exact storeTo_canon _ _ _ _ _ _ hd

theorem scalarStore_canon (q) (n) (rs1) (imm) (v) (s : State) (hs : Canon s.mem) (t : State) (ht : (scalarStore q n rs1 imm v s) = .next t) :
    Canon t.mem := by
  unfold scalarStore at ht
  grind [→ tehus_canon, scalarAccess_mem, scalarAccess_canon, doStore_canon]

theorem execSb_canon (q) (rs2) (rs1) (imm) (s : State) (hs : Canon s.mem) (t : State) (ht : (execSb q rs2 rs1 imm s) = .next t) :
    Canon t.mem := by
  unfold execSb at ht
  grind [→ scalarStore_canon]

theorem execSh_canon (q) (rs2) (rs1) (imm) (s : State) (hs : Canon s.mem) (t : State) (ht : (execSh q rs2 rs1 imm s) = .next t) :
    Canon t.mem := by
  unfold execSh at ht
  grind [→ scalarStore_canon]

theorem execSw_canon (q) (rs2) (rs1) (imm) (s : State) (hs : Canon s.mem) (t : State) (ht : (execSw q rs2 rs1 imm s) = .next t) :
    Canon t.mem := by
  unfold execSw at ht
  grind [→ scalarStore_canon]

theorem execSd_canon (q) (rs2) (rs1) (imm) (s : State) (hs : Canon s.mem) (t : State) (ht : (execSd q rs2 rs1 imm s) = .next t) :
    Canon t.mem := by
  unfold execSd at ht
  grind [→ scalarStore_canon]

theorem execFsw_canon (q) (fs2) (rs1) (imm) (s : State) (hs : Canon s.mem) (t : State) (ht : (execFsw q fs2 rs1 imm s) = .next t) :
    Canon t.mem := by
  unfold execFsw at ht
  grind [→ scalarStore_canon]

theorem execFsd_canon (q) (fs2) (rs1) (imm) (s : State) (hs : Canon s.mem) (t : State) (ht : (execFsd q fs2 rs1 imm s) = .next t) :
    Canon t.mem := by
  unfold execFsd at ht
  grind [→ scalarStore_canon]

theorem hostAtomic_canon (s : State) (i) (rd) (x) (va) (pa) (hs : Canon s.mem) :
    (s.hostAtomic i rd x va pa).All (fun t => Canon t.mem) := by
  unfold State.hostAtomic
  split
  · grind [latchStoreErr_mem, logErr_mem, Body.All]
  · split
    · exact hs
    · rename_i tg u hu
      have hm : Canon u.mem := by rw [hostTag_mem s tg u hu]; exact hs
      have he := execAtomic_canon u (localOf pa) x.n x.op x.b x.cmp hm
      grind [hostSend_mem, modQ_mem, Body.All]

theorem remoteAtomic_canon (s : State) (i) (rd) (x) (va) (pa) (hs : Canon s.mem) :
    (s.remoteAtomic i rd x va pa).All (fun t => Canon t.mem) := by
  unfold State.remoteAtomic
  grind [modQ_mem, → request_mem, ctxEntry_mem, foldl_mem, foldl_canon, foldl_mem_snd, foldl_canon_snd, foldl_mem_fst, foldl_canon_fst, Option.getD, canon_sSet, SOut.All, Body.All, SVal.All, Mv.All, MvEnd.All, Rows.All]

theorem localAtomic_canon (s : State) (i) (rd) (x) (va) (a) (hs : Canon s.mem) :
    ((s.localAtomic i rd x va a)).All (fun t => Canon t.mem) := by
  unfold State.localAtomic
  grind [writeList_canon, l2Touch_canon, retire_canon, modQ_mem, foldl_mem, foldl_canon, foldl_mem_snd, foldl_canon_snd, foldl_mem_fst, foldl_canon_fst, Option.getD, canon_sSet, SOut.All, Body.All, SVal.All, Mv.All, MvEnd.All, RecEnd.All, Rows.All]

theorem atomicOp_canon (q) (rd) (rs1) (rs2) (dbl) (op) (s : State) (hs : Canon s.mem) (t : State) (ht : atomicOp q rd rs1 rs2 dbl op s = .next t) :
    Canon t.mem := by
  unfold atomicOp at ht
  grind [localAtomic_canon, hostAtomic_canon, modQ_mem, remoteAtomic_canon, drain_canon, scalarAccess_canon, → tehus_canon]

theorem execSwap_canon (q) (rd) (rs1) (rs2) (dbl) (s : State) (hs : Canon s.mem) (t : State) (ht : execSwap q rd rs1 rs2 dbl s = .next t) :
    Canon t.mem := by
  unfold execSwap at ht
  grind [→ atomicOp_canon]

theorem execAadd_canon (q) (rd) (rs1) (rs2) (dbl) (s : State) (hs : Canon s.mem) (t : State) (ht : execAadd q rd rs1 rs2 dbl s = .next t) :
    Canon t.mem := by
  unfold execAadd at ht
  grind [→ atomicOp_canon]

theorem execAand_canon (q) (rd) (rs1) (rs2) (dbl) (s : State) (hs : Canon s.mem) (t : State) (ht : execAand q rd rs1 rs2 dbl s = .next t) :
    Canon t.mem := by
  unfold execAand at ht
  grind [→ atomicOp_canon]

theorem execAor_canon (q) (rd) (rs1) (rs2) (dbl) (s : State) (hs : Canon s.mem) (t : State) (ht : execAor q rd rs1 rs2 dbl s = .next t) :
    Canon t.mem := by
  unfold execAor at ht
  grind [→ atomicOp_canon]

theorem execAxor_canon (q) (rd) (rs1) (rs2) (dbl) (s : State) (hs : Canon s.mem) (t : State) (ht : execAxor q rd rs1 rs2 dbl s = .next t) :
    Canon t.mem := by
  unfold execAxor at ht
  grind [→ atomicOp_canon]

theorem execAmin_canon (q) (rd) (rs1) (rs2) (dbl) (s : State) (hs : Canon s.mem) (t : State) (ht : execAmin q rd rs1 rs2 dbl s = .next t) :
    Canon t.mem := by
  unfold execAmin at ht
  grind [→ atomicOp_canon]

theorem execAmax_canon (q) (rd) (rs1) (rs2) (dbl) (s : State) (hs : Canon s.mem) (t : State) (ht : execAmax q rd rs1 rs2 dbl s = .next t) :
    Canon t.mem := by
  unfold execAmax at ht
  grind [→ atomicOp_canon]

theorem execAminu_canon (q) (rd) (rs1) (rs2) (dbl) (s : State) (hs : Canon s.mem) (t : State) (ht : execAminu q rd rs1 rs2 dbl s = .next t) :
    Canon t.mem := by
  unfold execAminu at ht
  grind [→ atomicOp_canon]

theorem execAmaxu_canon (q) (rd) (rs1) (rs2) (dbl) (s : State) (hs : Canon s.mem) (t : State) (ht : execAmaxu q rd rs1 rs2 dbl s = .next t) :
    Canon t.mem := by
  unfold execAmaxu at ht
  grind [→ atomicOp_canon]

theorem execCas_canon (q) (rd) (rs1) (rs2) (dbl) (s : State) (hs : Canon s.mem) (t : State) (ht : execCas q rd rs1 rs2 dbl s = .next t) :
    Canon t.mem := by
  unfold execCas at ht
  grind [→ atomicOp_canon]

theorem execAtomicFadd_canon (q) (rd) (rs1) (rs2) (dbl) (s : State) (hs : Canon s.mem) (t : State) (ht : execAtomicFadd q rd rs1 rs2 dbl s = .next t) :
    Canon t.mem := by
  unfold execAtomicFadd at ht
  grind [→ atomicOp_canon]

end Sys2Proof.Machine
end

