-- ==== Sys2Proof/Laws/MemPress.lean ====
section
/-!
SUPPORT. What a press instruction leaves of memory: all of it, or its canonical form.
-/
namespace Sys2Proof.Machine

set_option Elab.async false

theorem tileShape_mem (s : State) (i) (code) (index) :
    ((s.tileShape i code index)).All (fun t => t.mem = s.mem) := by
  unfold State.tileShape
  grind [modQ_mem, foldl_mem, foldl_canon, foldl_mem_snd, foldl_canon_snd, foldl_mem_fst, foldl_canon_fst, Option.getD, canon_sSet, SOut.All, Body.All, SVal.All, Mv.All, MvEnd.All, RecEnd.All, Rows.All]

theorem tileShape_canon (s : State) (i) (code) (index) (hs : Canon s.mem) :
    ((s.tileShape i code index)).All (fun t => Canon t.mem) := by
  unfold State.tileShape
  grind [modQ_mem, tileShape_mem, foldl_mem, foldl_canon, foldl_mem_snd, foldl_canon_snd, foldl_mem_fst, foldl_canon_fst, Option.getD, canon_sSet, SOut.All, Body.All, SVal.All, Mv.All, MvEnd.All, RecEnd.All, Rows.All]

theorem execMma_canon (q) (ovw) (fine) (sat) (sgna) (sgnb) (ta) (tb) (co) (ro) (acc) (rm) (s : State) (hs : Canon s.mem) (t : State) (ht : (execMma q ovw fine sat sgna sgnb ta tb co ro acc rm s) = .next t) :
    Canon t.mem := by
  unfold execMma at ht
  grind [→ tehusP_canon, tileCheck_mem, tileCheck_canon, tileShape_mem, tileShape_canon, simple_canon, foldl_mem, foldl_canon, foldl_mem_snd, foldl_canon_snd, foldl_mem_fst, foldl_canon_fst, Option.getD, canon_sSet, SOut.All, Body.All, SVal.All, Mv.All, MvEnd.All, RecEnd.All, Rows.All]

theorem execAccz_canon (q) (acc) (int32) (s : State) (hs : Canon s.mem) (t : State) (ht : (execAccz q acc int32 s) = .next t) :
    Canon t.mem := by
  unfold execAccz at ht
  grind [→ tehusP_canon, tileCheck_mem, tileCheck_canon, simple_canon]

end Sys2Proof.Machine
end

