-- ==== Sys2Proof/Laws/MemPlough.lean ====
section
/-!
SUPPORT. What a plough instruction leaves of memory: all of it, or its canonical form.
-/
namespace Sys2Proof.Machine

set_option Elab.async false

theorem plRows_mem (s : State) (i) (g) (base) (stride) (x5) (x6) :
    (s.plRows i g base stride x5 x6).2.mem = s.mem := by
  fun_induction (s.plRows i g base stride x5 x6) <;> grind [wideAccess_mem]

theorem plStoreRow_canon (s : State) (i) (g) (o) (va) (pas) (r) (x7) (hs : Canon s.mem) :
    Canon (s.plStoreRow i g o va pas r x7).2.mem := by
  fun_induction (s.plStoreRow i g o va pas r x7) <;> grind [storePoisoned_canon, storeTo_canon]

theorem plStore_canon (s : State) (i) (g) (o) (base) (stride) (x6) (x7) (hs : Canon s.mem) :
    Canon (s.plStore i g o base stride x6 x7).2.mem := by
  fun_induction (s.plStore i g o base stride x6 x7) <;> grind [plStoreRow_canon]

theorem plWrite_canon (s : State) (i) (g) (o) (rows) (x5) (hs : Canon s.mem) :
    Canon (s.plWrite i g o rows x5).2.mem := by
  unfold State.plWrite
  grind [modQ_mem, plStore_canon]

theorem plPoisoned_canon (s : State) (i) (len) (hs : Canon s.mem) :
    Canon (s.plPoisoned i len).mem := by
  unfold State.plPoisoned
  grind [logErr_mem, modQ_mem, raiseAt_canon]

theorem plFinish_canon (s : State) (i) (len) (g) (dst) (o) (f) (hs : Canon s.mem) :
    ((s.plFinish i len g dst o f)).All (fun t => Canon t.mem) := by
  unfold State.plFinish
  grind [plRows_mem, modQ_mem, plWrite_canon, plPoisoned_canon, retire_canon, foldl_mem, foldl_canon, foldl_mem_snd, foldl_canon_snd, foldl_mem_fst, foldl_canon_fst, Option.getD, canon_sSet, SOut.All, Body.All, SVal.All, Mv.All, MvEnd.All, RecEnd.All, Rows.All]

theorem execPlough_canon (q) (dst) (co) (ro) (acc) (rm) (s : State) (hs : Canon s.mem) (t : State) (ht : (execPlough q dst co ro acc rm s) = .next t) :
    Canon t.mem := by
  unfold execPlough at ht
  grind [→ tehusP_canon, tileCheck_mem, tileCheck_canon, tileShape_mem, tileShape_canon, plFinish_canon, foldl_mem, foldl_canon, foldl_mem_snd, foldl_canon_snd, foldl_mem_fst, foldl_canon_fst, Option.getD, canon_sSet, SOut.All, Body.All, SVal.All, Mv.All, MvEnd.All, RecEnd.All, Rows.All]

theorem execPloughN_canon (q) (dst) (co) (ro) (acc) (rm) (s : State) (hs : Canon s.mem) (t : State) (ht : (execPloughN q dst co ro acc rm s) = .next t) :
    Canon t.mem := by
  unfold execPloughN at ht
  grind [→ tehusP_canon, tileCheck_mem, tileCheck_canon, tileShape_mem, tileShape_canon, plFinish_canon, foldl_mem, foldl_canon, foldl_mem_snd, foldl_canon_snd, foldl_mem_fst, foldl_canon_fst, Option.getD, canon_sSet, SOut.All, Body.All, SVal.All, Mv.All, MvEnd.All, RecEnd.All, Rows.All]

end Sys2Proof.Machine
end

