-- ==== Sys2Proof/Laws/MemScalar.lean ====
section
/-!
SUPPORT. What an integer instruction leaves of memory: all of it, or its canonical form.
-/
namespace Sys2Proof.Machine

set_option Elab.async false

theorem opRR_canon (q) (rd) (rs1) (rs2) (f) (s : State) (hs : Canon s.mem) (t : State) (ht : (opRR q rd rs1 rs2 f s) = .next t) :
    Canon t.mem := by
  unfold opRR at ht
  grind [→ tehus_canon, simple_canon]

theorem opR_canon (q) (rd) (rs1) (f) (s : State) (hs : Canon s.mem) (t : State) (ht : (opR q rd rs1 f s) = .next t) :
    Canon t.mem := by
  unfold opR at ht
  grind [→ tehus_canon, simple_canon]

theorem opRI_canon (q) (rd) (rs1) (imm) (f) (s : State) (hs : Canon s.mem) (t : State) (ht : (opRI q rd rs1 imm f s) = .next t) :
    Canon t.mem := by
  unfold opRI at ht
  grind [→ tehus_canon, simple_canon]

theorem checked_canon (q) (rd) (w) (f) (s : State) (hs : Canon s.mem) (t : State) (ht : (checked q rd w f s) = .next t) :
    Canon t.mem := by
  unfold checked at ht
  grind [→ tehus_canon, simple_canon, foldl_mem, foldl_canon, foldl_mem_snd, foldl_canon_snd, foldl_mem_fst, foldl_canon_fst, Option.getD, canon_sSet, SOut.All, Body.All, SVal.All, Mv.All, MvEnd.All, RecEnd.All, Rows.All]

theorem divide_canon (q) (rd) (rs1) (rs2) (w) (signed) (quot) (s : State) (hs : Canon s.mem) (t : State) (ht : (divide q rd rs1 rs2 w signed quot s) = .next t) :
    Canon t.mem := by
  unfold divide at ht
  grind [→ tehus_canon, simple_canon, foldl_mem, foldl_canon, foldl_mem_snd, foldl_canon_snd, foldl_mem_fst, foldl_canon_fst, Option.getD, canon_sSet, SOut.All, Body.All, SVal.All, Mv.All, MvEnd.All, RecEnd.All, Rows.All]

theorem branch_canon (q) (rs1) (rs2) (off) (cond) (s : State) (hs : Canon s.mem) (t : State) (ht : (branch q rs1 rs2 off cond s) = .next t) :
    Canon t.mem := by
  unfold branch at ht
  grind [→ tehus_canon, retire_canon, foldl_mem, foldl_canon, foldl_mem_snd, foldl_canon_snd, foldl_mem_fst, foldl_canon_fst, Option.getD, canon_sSet, SOut.All, Body.All, SVal.All, Mv.All, MvEnd.All, RecEnd.All, Rows.All]

theorem execAdd_canon (q) (rd) (rs1) (rs2) (s : State) (hs : Canon s.mem) (t : State) (ht : (execAdd q rd rs1 rs2 s) = .next t) :
    Canon t.mem := by
  unfold execAdd at ht
  grind [→ opRR_canon]

theorem execSub_canon (q) (rd) (rs1) (rs2) (s : State) (hs : Canon s.mem) (t : State) (ht : (execSub q rd rs1 rs2 s) = .next t) :
    Canon t.mem := by
  unfold execSub at ht
  grind [→ opRR_canon]

theorem execAnd_canon (q) (rd) (rs1) (rs2) (s : State) (hs : Canon s.mem) (t : State) (ht : (execAnd q rd rs1 rs2 s) = .next t) :
    Canon t.mem := by
  unfold execAnd at ht
  grind [→ opRR_canon]

theorem execOr_canon (q) (rd) (rs1) (rs2) (s : State) (hs : Canon s.mem) (t : State) (ht : (execOr q rd rs1 rs2 s) = .next t) :
    Canon t.mem := by
  unfold execOr at ht
  grind [→ opRR_canon]

theorem execXor_canon (q) (rd) (rs1) (rs2) (s : State) (hs : Canon s.mem) (t : State) (ht : (execXor q rd rs1 rs2 s) = .next t) :
    Canon t.mem := by
  unfold execXor at ht
  grind [→ opRR_canon]

theorem execAndn_canon (q) (rd) (rs1) (rs2) (s : State) (hs : Canon s.mem) (t : State) (ht : (execAndn q rd rs1 rs2 s) = .next t) :
    Canon t.mem := by
  unfold execAndn at ht
  grind [→ opRR_canon]

theorem execSll_canon (q) (rd) (rs1) (rs2) (s : State) (hs : Canon s.mem) (t : State) (ht : (execSll q rd rs1 rs2 s) = .next t) :
    Canon t.mem := by
  unfold execSll at ht
  grind [→ opRR_canon]

theorem execSrl_canon (q) (rd) (rs1) (rs2) (s : State) (hs : Canon s.mem) (t : State) (ht : (execSrl q rd rs1 rs2 s) = .next t) :
    Canon t.mem := by
  unfold execSrl at ht
  grind [→ opRR_canon]

theorem execSra_canon (q) (rd) (rs1) (rs2) (s : State) (hs : Canon s.mem) (t : State) (ht : (execSra q rd rs1 rs2 s) = .next t) :
    Canon t.mem := by
  unfold execSra at ht
  grind [→ opRR_canon]

theorem execRor_canon (q) (rd) (rs1) (rs2) (s : State) (hs : Canon s.mem) (t : State) (ht : (execRor q rd rs1 rs2 s) = .next t) :
    Canon t.mem := by
  unfold execRor at ht
  grind [→ opRR_canon]

theorem execSlt_canon (q) (rd) (rs1) (rs2) (s : State) (hs : Canon s.mem) (t : State) (ht : (execSlt q rd rs1 rs2 s) = .next t) :
    Canon t.mem := by
  unfold execSlt at ht
  grind [→ opRR_canon]

theorem execSltu_canon (q) (rd) (rs1) (rs2) (s : State) (hs : Canon s.mem) (t : State) (ht : (execSltu q rd rs1 rs2 s) = .next t) :
    Canon t.mem := by
  unfold execSltu at ht
  grind [→ opRR_canon]

theorem execMin_canon (q) (rd) (rs1) (rs2) (s : State) (hs : Canon s.mem) (t : State) (ht : (execMin q rd rs1 rs2 s) = .next t) :
    Canon t.mem := by
  unfold execMin at ht
  grind [→ opRR_canon]

theorem execMax_canon (q) (rd) (rs1) (rs2) (s : State) (hs : Canon s.mem) (t : State) (ht : (execMax q rd rs1 rs2 s) = .next t) :
    Canon t.mem := by
  unfold execMax at ht
  grind [→ opRR_canon]

theorem execMinu_canon (q) (rd) (rs1) (rs2) (s : State) (hs : Canon s.mem) (t : State) (ht : (execMinu q rd rs1 rs2 s) = .next t) :
    Canon t.mem := by
  unfold execMinu at ht
  grind [→ opRR_canon]

theorem execMaxu_canon (q) (rd) (rs1) (rs2) (s : State) (hs : Canon s.mem) (t : State) (ht : (execMaxu q rd rs1 rs2 s) = .next t) :
    Canon t.mem := by
  unfold execMaxu at ht
  grind [→ opRR_canon]

theorem execAddw_canon (q) (rd) (rs1) (rs2) (s : State) (hs : Canon s.mem) (t : State) (ht : (execAddw q rd rs1 rs2 s) = .next t) :
    Canon t.mem := by
  unfold execAddw at ht
  grind [→ opRR_canon]

theorem execSubw_canon (q) (rd) (rs1) (rs2) (s : State) (hs : Canon s.mem) (t : State) (ht : (execSubw q rd rs1 rs2 s) = .next t) :
    Canon t.mem := by
  unfold execSubw at ht
  grind [→ opRR_canon]

theorem execSllw_canon (q) (rd) (rs1) (rs2) (s : State) (hs : Canon s.mem) (t : State) (ht : (execSllw q rd rs1 rs2 s) = .next t) :
    Canon t.mem := by
  unfold execSllw at ht
  grind [→ opRR_canon]

theorem execSrlw_canon (q) (rd) (rs1) (rs2) (s : State) (hs : Canon s.mem) (t : State) (ht : (execSrlw q rd rs1 rs2 s) = .next t) :
    Canon t.mem := by
  unfold execSrlw at ht
  grind [→ opRR_canon]

theorem execSraw_canon (q) (rd) (rs1) (rs2) (s : State) (hs : Canon s.mem) (t : State) (ht : (execSraw q rd rs1 rs2 s) = .next t) :
    Canon t.mem := by
  unfold execSraw at ht
  grind [→ opRR_canon]

theorem execAddo_canon (q) (rd) (rs1) (rs2) (s : State) (hs : Canon s.mem) (t : State) (ht : (execAddo q rd rs1 rs2 s) = .next t) :
    Canon t.mem := by
  unfold execAddo at ht
  grind [→ checked_canon]

theorem execSubo_canon (q) (rd) (rs1) (rs2) (s : State) (hs : Canon s.mem) (t : State) (ht : (execSubo q rd rs1 rs2 s) = .next t) :
    Canon t.mem := by
  unfold execSubo at ht
  grind [→ checked_canon]

theorem execNego_canon (q) (rd) (rs1) (s : State) (hs : Canon s.mem) (t : State) (ht : (execNego q rd rs1 s) = .next t) :
    Canon t.mem := by
  unfold execNego at ht
  grind [→ checked_canon]

theorem execAddwo_canon (q) (rd) (rs1) (rs2) (s : State) (hs : Canon s.mem) (t : State) (ht : (execAddwo q rd rs1 rs2 s) = .next t) :
    Canon t.mem := by
  unfold execAddwo at ht
  grind [→ checked_canon]

theorem execClz_canon (q) (rd) (rs1) (s : State) (hs : Canon s.mem) (t : State) (ht : (execClz q rd rs1 s) = .next t) :
    Canon t.mem := by
  unfold execClz at ht
  grind [→ opR_canon]

theorem execCtz_canon (q) (rd) (rs1) (s : State) (hs : Canon s.mem) (t : State) (ht : (execCtz q rd rs1 s) = .next t) :
    Canon t.mem := by
  unfold execCtz at ht
  grind [→ opR_canon]

theorem execPopc_canon (q) (rd) (rs1) (s : State) (hs : Canon s.mem) (t : State) (ht : (execPopc q rd rs1 s) = .next t) :
    Canon t.mem := by
  unfold execPopc at ht
  grind [→ opR_canon]

theorem execBrev_canon (q) (rd) (rs1) (s : State) (hs : Canon s.mem) (t : State) (ht : (execBrev q rd rs1 s) = .next t) :
    Canon t.mem := by
  unfold execBrev at ht
  grind [→ opR_canon]

theorem execBswap_canon (q) (rd) (rs1) (s : State) (hs : Canon s.mem) (t : State) (ht : (execBswap q rd rs1 s) = .next t) :
    Canon t.mem := by
  unfold execBswap at ht
  grind [→ opR_canon]

theorem execAddi_canon (q) (rd) (rs1) (imm) (s : State) (hs : Canon s.mem) (t : State) (ht : (execAddi q rd rs1 imm s) = .next t) :
    Canon t.mem := by
  unfold execAddi at ht
  grind [→ opRI_canon]

theorem execAndi_canon (q) (rd) (rs1) (imm) (s : State) (hs : Canon s.mem) (t : State) (ht : (execAndi q rd rs1 imm s) = .next t) :
    Canon t.mem := by
  unfold execAndi at ht
  grind [→ opRI_canon]

theorem execOri_canon (q) (rd) (rs1) (imm) (s : State) (hs : Canon s.mem) (t : State) (ht : (execOri q rd rs1 imm s) = .next t) :
    Canon t.mem := by
  unfold execOri at ht
  grind [→ opRI_canon]

theorem execXori_canon (q) (rd) (rs1) (imm) (s : State) (hs : Canon s.mem) (t : State) (ht : (execXori q rd rs1 imm s) = .next t) :
    Canon t.mem := by
  unfold execXori at ht
  grind [→ opRI_canon]

theorem execSlti_canon (q) (rd) (rs1) (imm) (s : State) (hs : Canon s.mem) (t : State) (ht : (execSlti q rd rs1 imm s) = .next t) :
    Canon t.mem := by
  unfold execSlti at ht
  grind [→ opRI_canon]

theorem execSltiu_canon (q) (rd) (rs1) (imm) (s : State) (hs : Canon s.mem) (t : State) (ht : (execSltiu q rd rs1 imm s) = .next t) :
    Canon t.mem := by
  unfold execSltiu at ht
  grind [→ opRI_canon]

theorem execSlli_canon (q) (rd) (rs1) (sh) (s : State) (hs : Canon s.mem) (t : State) (ht : (execSlli q rd rs1 sh s) = .next t) :
    Canon t.mem := by
  unfold execSlli at ht
  grind [→ opR_canon]

theorem execSrli_canon (q) (rd) (rs1) (sh) (s : State) (hs : Canon s.mem) (t : State) (ht : (execSrli q rd rs1 sh s) = .next t) :
    Canon t.mem := by
  unfold execSrli at ht
  grind [→ opR_canon]

theorem execSrai_canon (q) (rd) (rs1) (sh) (s : State) (hs : Canon s.mem) (t : State) (ht : (execSrai q rd rs1 sh s) = .next t) :
    Canon t.mem := by
  unfold execSrai at ht
  grind [→ opR_canon]

theorem execRori_canon (q) (rd) (rs1) (sh) (s : State) (hs : Canon s.mem) (t : State) (ht : (execRori q rd rs1 sh s) = .next t) :
    Canon t.mem := by
  unfold execRori at ht
  grind [→ opR_canon]

theorem execLi_canon (q) (rd) (imm) (s : State) (hs : Canon s.mem) (t : State) (ht : (execLi q rd imm s) = .next t) :
    Canon t.mem := by
  unfold execLi at ht
  grind [→ opRI_canon]

theorem execLih_canon (q) (rd) (imm) (s : State) (hs : Canon s.mem) (t : State) (ht : (execLih q rd imm s) = .next t) :
    Canon t.mem := by
  unfold execLih at ht
  grind [→ tehus_canon, simple_canon]

theorem execMul_canon (q) (rd) (rs1) (rs2) (s : State) (hs : Canon s.mem) (t : State) (ht : (execMul q rd rs1 rs2 s) = .next t) :
    Canon t.mem := by
  unfold execMul at ht
  grind [→ opRR_canon]

theorem execMulh_canon (q) (rd) (rs1) (rs2) (s : State) (hs : Canon s.mem) (t : State) (ht : (execMulh q rd rs1 rs2 s) = .next t) :
    Canon t.mem := by
  unfold execMulh at ht
  grind [→ opRR_canon]

theorem execMulhu_canon (q) (rd) (rs1) (rs2) (s : State) (hs : Canon s.mem) (t : State) (ht : (execMulhu q rd rs1 rs2 s) = .next t) :
    Canon t.mem := by
  unfold execMulhu at ht
  grind [→ opRR_canon]

theorem execMulhsu_canon (q) (rd) (rs1) (rs2) (s : State) (hs : Canon s.mem) (t : State) (ht : (execMulhsu q rd rs1 rs2 s) = .next t) :
    Canon t.mem := by
  unfold execMulhsu at ht
  grind [→ opRR_canon]

theorem execMulo_canon (q) (rd) (rs1) (rs2) (s : State) (hs : Canon s.mem) (t : State) (ht : (execMulo q rd rs1 rs2 s) = .next t) :
    Canon t.mem := by
  unfold execMulo at ht
  grind [→ checked_canon]

theorem execMulw_canon (q) (rd) (rs1) (rs2) (s : State) (hs : Canon s.mem) (t : State) (ht : (execMulw q rd rs1 rs2 s) = .next t) :
    Canon t.mem := by
  unfold execMulw at ht
  grind [→ opRR_canon]

theorem execDiv_canon (q) (rd) (rs1) (rs2) (s : State) (hs : Canon s.mem) (t : State) (ht : (execDiv q rd rs1 rs2 s) = .next t) :
    Canon t.mem := by
  unfold execDiv at ht
  grind [→ divide_canon]

theorem execDivu_canon (q) (rd) (rs1) (rs2) (s : State) (hs : Canon s.mem) (t : State) (ht : (execDivu q rd rs1 rs2 s) = .next t) :
    Canon t.mem := by
  unfold execDivu at ht
  grind [→ divide_canon]

theorem execRem_canon (q) (rd) (rs1) (rs2) (s : State) (hs : Canon s.mem) (t : State) (ht : (execRem q rd rs1 rs2 s) = .next t) :
    Canon t.mem := by
  unfold execRem at ht
  grind [→ divide_canon]

theorem execRemu_canon (q) (rd) (rs1) (rs2) (s : State) (hs : Canon s.mem) (t : State) (ht : (execRemu q rd rs1 rs2 s) = .next t) :
    Canon t.mem := by
  unfold execRemu at ht
  grind [→ divide_canon]

theorem execDivw_canon (q) (rd) (rs1) (rs2) (s : State) (hs : Canon s.mem) (t : State) (ht : (execDivw q rd rs1 rs2 s) = .next t) :
    Canon t.mem := by
  unfold execDivw at ht
  grind [→ divide_canon]

theorem execDivuw_canon (q) (rd) (rs1) (rs2) (s : State) (hs : Canon s.mem) (t : State) (ht : (execDivuw q rd rs1 rs2 s) = .next t) :
    Canon t.mem := by
  unfold execDivuw at ht
  grind [→ divide_canon]

theorem execRemw_canon (q) (rd) (rs1) (rs2) (s : State) (hs : Canon s.mem) (t : State) (ht : (execRemw q rd rs1 rs2 s) = .next t) :
    Canon t.mem := by
  unfold execRemw at ht
  grind [→ divide_canon]

theorem execRemuw_canon (q) (rd) (rs1) (rs2) (s : State) (hs : Canon s.mem) (t : State) (ht : (execRemuw q rd rs1 rs2 s) = .next t) :
    Canon t.mem := by
  unfold execRemuw at ht
  grind [→ divide_canon]

theorem execBeq_canon (q) (rs1) (rs2) (off) (s : State) (hs : Canon s.mem) (t : State) (ht : (execBeq q rs1 rs2 off s) = .next t) :
    Canon t.mem := by
  unfold execBeq at ht
  grind [→ branch_canon]

theorem execBne_canon (q) (rs1) (rs2) (off) (s : State) (hs : Canon s.mem) (t : State) (ht : (execBne q rs1 rs2 off s) = .next t) :
    Canon t.mem := by
  unfold execBne at ht
  grind [→ branch_canon]

theorem execBlt_canon (q) (rs1) (rs2) (off) (s : State) (hs : Canon s.mem) (t : State) (ht : (execBlt q rs1 rs2 off s) = .next t) :
    Canon t.mem := by
  unfold execBlt at ht
  grind [→ branch_canon]

theorem execBge_canon (q) (rs1) (rs2) (off) (s : State) (hs : Canon s.mem) (t : State) (ht : (execBge q rs1 rs2 off s) = .next t) :
    Canon t.mem := by
  unfold execBge at ht
  grind [→ branch_canon]

theorem execBltu_canon (q) (rs1) (rs2) (off) (s : State) (hs : Canon s.mem) (t : State) (ht : (execBltu q rs1 rs2 off s) = .next t) :
    Canon t.mem := by
  unfold execBltu at ht
  grind [→ branch_canon]

theorem execBgeu_canon (q) (rs1) (rs2) (off) (s : State) (hs : Canon s.mem) (t : State) (ht : (execBgeu q rs1 rs2 off s) = .next t) :
    Canon t.mem := by
  unfold execBgeu at ht
  grind [→ branch_canon]

theorem execJal_canon (q) (rd) (off) (s : State) (hs : Canon s.mem) (t : State) (ht : (execJal q rd off s) = .next t) :
    Canon t.mem := by
  unfold execJal at ht
  grind [→ tehus_canon, retire_canon, modQ_mem, foldl_mem, foldl_canon, foldl_mem_snd, foldl_canon_snd, foldl_mem_fst, foldl_canon_fst, Option.getD, canon_sSet, SOut.All, Body.All, SVal.All, Mv.All, MvEnd.All, RecEnd.All, Rows.All]

theorem execJalr_canon (q) (rd) (rs1) (imm) (s : State) (hs : Canon s.mem) (t : State) (ht : (execJalr q rd rs1 imm s) = .next t) :
    Canon t.mem := by
  unfold execJalr at ht
  grind [→ tehus_canon, retire_canon, modQ_mem, foldl_mem, foldl_canon, foldl_mem_snd, foldl_canon_snd, foldl_mem_fst, foldl_canon_fst, Option.getD, canon_sSet, SOut.All, Body.All, SVal.All, Mv.All, MvEnd.All, RecEnd.All, Rows.All]

end Sys2Proof.Machine
end

