-- ==== Sys2Proof/Laws/MemSlice.lean ====
section
/-!
SUPPORT. What a slice command leaves of memory: all of it, or its canonical form.
-/
namespace Sys2Proof.Machine

set_option Elab.async false

theorem execSlc_canon (q) (tn) (vb) (s : State) (hs : Canon s.mem) (t : State) (ht : (execSlc q tn vb s) = .next t) :
    Canon t.mem := by
  unfold execSlc at ht
  grind [→ tehusP_canon, tileCheck_mem, tileCheck_canon, tileShape_mem, tileShape_canon, simple_canon]

theorem execMmaS_canon (q) (ovw) (ta) (tb) (co) (ro) (s : State) (hs : Canon s.mem) (t : State) (ht : (execMmaS q ovw ta tb co ro s) = .next t) :
    Canon t.mem := by
  unfold execMmaS at ht
  grind [→ tehusP_canon, tileCheck_mem, tileCheck_canon, tileShape_mem, tileShape_canon, simple_canon]

theorem execPloughS_canon (q) (dst) (co) (ro) (rm) (s : State) (hs : Canon s.mem) (t : State) (ht : (execPloughS q dst co ro rm s) = .next t) :
    Canon t.mem := by
  unfold execPloughS at ht
  grind [→ tehusP_canon, tileCheck_mem, tileCheck_canon, tileShape_mem, tileShape_canon, plFinish_canon, foldl_mem, foldl_canon, foldl_mem_snd, foldl_canon_snd, foldl_mem_fst, foldl_canon_fst, Option.getD, canon_sSet, SOut.All, Body.All, SVal.All, Mv.All, MvEnd.All, RecEnd.All, Rows.All]

end Sys2Proof.Machine
end

