-- ==== Sys2Proof/Laws/MemStitchMem.lean ====
section
/-!
SUPPORT. What a stitcher access leaves of memory: all of it, or its canonical form.
-/
namespace Sys2Proof.Machine

set_option Elab.async false

theorem farEnds_mem (s : State) (e) (p) :
    (s.farEnds e p).2.mem = s.mem := by
  unfold State.farEnds
  grind [hostRead_mem, awayFault_mem]

theorem dcachePut_mem (s : State) (e) (line) :
    (s.dcachePut e line).mem = s.mem := by
  unfold State.dcachePut
  grind [putWay_mem, modEng_mem]

theorem SVal.all_canon (r : SVal) (s : State) (hs : Canon s.mem) (h : r.All (fun t => t.mem = s.mem)) :
    r.All (fun t => Canon t.mem) := by
  cases r <;> grind [SVal.All]

theorem SOut.all_canon (r : SOut) (s : State) (hs : Canon s.mem) (h : r.All (fun t => t.mem = s.mem)) :
    r.All (fun t => Canon t.mem) := by
  cases r <;> grind [SOut.All]

theorem farFill_mem (s : State) (e) (p) (n) :
    ((s.farFill e p n)).All (fun t => t.mem = s.mem) := by
  unfold State.farFill
  grind [logErr_mem, farEnds_mem, dmaRead_mem, dcachePut_mem, foldl_mem, foldl_canon, foldl_mem_snd, foldl_canon_snd, foldl_mem_fst, foldl_canon_fst, Option.getD, canon_sSet, SOut.All, Body.All, SVal.All, Mv.All, MvEnd.All, RecEnd.All, Rows.All]

theorem farLoad_mem (s : State) (e) (p) (n) (now) :
    ((s.farLoad e p n now)).All (fun t => t.mem = s.mem) := by
  unfold State.farLoad
  grind [wakeFor_mem, farFill_mem, fresh_mem, modEng_mem, foldl_mem, foldl_canon, foldl_mem_snd, foldl_canon_snd, foldl_mem_fst, foldl_canon_fst, Option.getD, canon_sSet, SOut.All, Body.All, SVal.All, Mv.All, MvEnd.All, RecEnd.All, Rows.All]

theorem farStore_canon (s : State) (e) (p) (n) (v) (hs : Canon s.mem) :
    Canon (s.farStore e p n v).mem := by
  unfold State.farStore
  grind [wakeFor_mem, dmaWrite_canon, hostWrite_mem, modEng_mem]

theorem sPerform_canon (s : State) (e) (x2) (hs : Canon s.mem) :
    Canon (s.sPerform e x2).mem := by
  unfold State.sPerform
  grind [modEng_mem, farStore_canon, winWrite_canon]

theorem sPost_canon (s : State) (e) (b) (pc) (posts) (hs : Canon s.mem) :
    ((s.sPost e b pc posts)).All (fun t => Canon t.mem) := by
  unfold State.sPost
  grind [sPerform_canon, modBank_mem, foldl_mem, foldl_canon, foldl_mem_snd, foldl_canon_snd, foldl_mem_fst, foldl_canon_fst, Option.getD, canon_sSet, SOut.All, Body.All, SVal.All, Mv.All, MvEnd.All, RecEnd.All, Rows.All]

theorem sWin_mem (s : State) (posts) (off) :
    (s.sWin posts off).All (fun t => t.mem = s.mem) := by
  exact winLook_mem s false off 4

theorem sLoad_mem (s : State) (e) (a) (n) (now) (posts) :
    (s.sLoad e a n now posts).All (fun t => t.mem = s.mem) := by
  unfold State.sLoad
  have hw := fun off => sWin_mem s posts off
  have hf := fun p => farLoad_mem s e p n now
  repeat' split
  all_goals first
    | exact hw _
    | exact fresh_mem s
    | exact syncVal_mem s _ _ _
    | exact hf _
    | (simp only [SVal.All]; done)
    | grind [SVal.All]

theorem sLd_mem (s : State) (e) (b) (m) (now) (posts) :
    (s.sLd e b m now posts).All (fun t => t.mem = s.mem) := by
  unfold State.sLd
  have hc := core_mem s e b 2 (ldOp m 0)
  have hl := sLoad_mem s e ((s.coreOf e b).at 0).toNat (ldBytes m) now posts
  split
  · simp_all [SOut.All]
  · dsimp only
    split
    · simp_all [SVal.All, SOut.All]
    · simp_all [SVal.All, SOut.All, modBank_mem]
    · rename_i v t h
      have hk := core_mem t e b 2 (ldOp m v)
      have ht : t.mem = s.mem := by simp_all [SVal.All]
      rw [ht] at hk
      exact hk

theorem sSt_mem (s : State) (e) (b) (m) :
    ((s.sSt e b m).2).All (fun t => t.mem = s.mem) := by
  unfold State.sSt
  grind [core_mem, core_canon, foldl_mem, foldl_canon, foldl_mem_snd, foldl_canon_snd, foldl_mem_fst, foldl_canon_fst, Option.getD, canon_sSet, SOut.All, Body.All, SVal.All, Mv.All, MvEnd.All, RecEnd.All, Rows.All]

theorem sSt_canon (s : State) (e) (b) (m) (hs : Canon s.mem) :
    ((s.sSt e b m).2).All (fun t => Canon t.mem) := by
  unfold State.sSt
  grind [core_mem, core_canon, sSt_mem, foldl_mem, foldl_canon, foldl_mem_snd, foldl_canon_snd, foldl_mem_fst, foldl_canon_fst, Option.getD, canon_sSet, SOut.All, Body.All, SVal.All, Mv.All, MvEnd.All, RecEnd.All, Rows.All]

theorem sLdl_mem (s : State) (e) (b) (m) (posts) :
    ((s.sLdl e b m posts)).All (fun t => t.mem = s.mem) := by
  unfold State.sLdl
  grind [core_mem, core_canon]

theorem sStl_mem (s : State) (e) (b) (m) :
    ((s.sStl e b m).2).All (fun t => t.mem = s.mem) := by
  unfold State.sStl
  grind [core_mem, core_canon]

theorem execSLd_mem (e) (b) (m) (s : State) (t : State) (ht : execSLd e b m s = .next t) : t.mem = s.mem := by
  unfold execSLd at ht
  grind [→ stitch_mem, sLd_mem]

theorem execSSt_canon (e) (b) (m) (s : State) (hs : Canon s.mem) (t : State) (ht : (execSSt e b m s) = .next t) :
    Canon t.mem := by
  unfold execSSt at ht
  grind [→ stitch_mem, → stitch_canon, sSt_mem, sSt_canon, sPost_canon, foldl_mem, foldl_canon, foldl_mem_snd, foldl_canon_snd, foldl_mem_fst, foldl_canon_fst, Option.getD, canon_sSet, SOut.All, Body.All, SVal.All, Mv.All, MvEnd.All, RecEnd.All, Rows.All]

theorem execDataCacheFill_mem (e) (b) (s : State) (t : State) (ht : execDataCacheFill e b s = .next t) :
    t.mem = s.mem := by
  unfold execDataCacheFill at ht
  grind [sLd_mem, modBank_mem, raiseS_mem, SOut.All]

theorem landDue_mem (s : State) (e) (b) (τ) (x4) :
    (s.landDue e b τ x4).2.mem = s.mem := by
  fun_induction (s.landDue e b τ x4) <;> grind [modBank_mem, fresh_mem]

theorem microTime_mem (s : State) (e) (b) (js) (op) (m) (next) :
    (s.microTime e b js op m next).2.mem = s.mem := by
  unfold State.microTime
  grind [syncVal_mem, fresh_mem]

theorem micro_mem (s : State) (e) (b) (op) (m) (x) (posts) :
    (s.micro e b op m x posts).2.All (fun t => t.mem = s.mem) := by
  unfold State.micro
  split
  · exact crcS_mem s e b m
  · exact sLd_mem s e b m true posts
  · exact sSt_mem s e b m
  · exact sLdl_mem s e b m posts
  · exact sStl_mem s e b m
  · exact rdsr_mem s e b m
  · dsimp only
    split
    · exact core_mem s e b 2 _
    · rfl

theorem micros_mem (e) (b) (u) (l : List W32) (s : State) (τ) (js) (stores) (posts) :
    (s.micros e b u l τ js stores posts).2.All (fun t => t.mem = s.mem) := by
  induction l generalizing s τ js stores posts with
  | nil => rfl
  | cons w r ih =>
    unfold State.micros
    dsimp only
    have hl := landDue_mem s e b τ js
    split
    · exact hl
    · generalize hc : (s.landDue e b τ js).2.microTime e b _ _ _ _ = c
      have hcm : c.2.mem = s.mem := by rw [← hc, microTime_mem, hl]
      have hm := micro_mem c.2 e b (u.opOf w).1 (u.opOf w).2 u.x posts
      rw [hcm] at hm
      split
      · rename_i t pc h
        have ht : t.mem = s.mem := by simp_all [SOut.All]
        have hi := fun τ js st po => ih t τ js st po
        simp only [ht] at hi
        exact hi _ _ _ _
      · exact hm

theorem customUndo_mem (t : State) (s : State) (e) (b) :
    (t.customUndo s e b).mem = t.mem := by
  unfold State.customUndo
  grind [modBank_mem, modEng_mem]

theorem execCustomOpcode_canon (e) (b) (n) (m) (x) (s : State) (hs : Canon s.mem) (t : State) (ht : execCustomOpcode e b n m x s = .next t) :
    Canon t.mem := by
  unfold execCustomOpcode at ht
  refine stitch_canon s e b _ hs (fun u hu => ?_) t ht
  have hv : Canon (u.syncVal e 0x0B (u.eng e).decen).2.mem := by rw [syncVal_mem]; exact hu
  generalize hx : u.syncVal e 0x0B (u.eng e).decen = y at hv
  dsimp only
  split
  · exact hv
  · split
    · rename_i t v a h
      have hc := SOut.all_canon _ y.2 hv (core_mem y.2 e b 2 (need (bits (sGet (0 : W32) (y.2.decodeImage e) n.toNat) 15 12) (bits (sGet (0 : W32) (y.2.decodeImage e) n.toNat) 11 8) (fun c => .ok c)))
      rw [h] at hc
      exact hc
    · have hm := fun u l τ js st po => SOut.all_canon _ y.2 hv (micros_mem e b u l y.2 τ js st po)
      generalize hr : y.2.micros e b _ _ _ _ _ _ = r
      have hk : r.2.All (fun t => Canon t.mem) := hr ▸ hm _ _ _ _ _ _
      split <;> rename_i h <;> rw [h] at hk
      · exact sPost_canon _ _ _ _ _ hk
      · simpa only [SOut.All, customUndo_mem] using hk
      · exact hk

end Sys2Proof.Machine
end

