-- ==== Sys2Proof/Laws/MemVectorMem.lean ====
section
/-!
SUPPORT. What a vector load or store leaves of memory: all of it, or its canonical form.
-/
namespace Sys2Proof.Machine

set_option Elab.async false

theorem readVec_canon (s : State) (i) (pas) (hs : Canon s.mem) : Canon (s.readVec i pas).2.mem := by
  unfold State.readVec
  have h := loadWide_canon s i pas hs
  grind [winLook_mem]

theorem loadElem_canon (s : State) (i) (x) (c) (e) (x5) (x6) (hs : Canon s.mem) :
    Canon (s.loadElem i x c e x5 x6).2.mem := by
  fun_induction (s.loadElem i x c e x5 x6) with
  | case1 => exact hs
  | _ => grind [access_mem, readVec_canon]

theorem loadElems_canon (s : State) (i) (x) (c) (l) (hs : Canon s.mem) :
    Canon (s.loadElems i x c l).2.mem ∧ ∀ e y t, (s.loadElems i x c l).1.2 = some (e, y, t) → Canon t.mem := by
  induction l generalizing s with
  | nil => exact ⟨hs, fun e y t h => by simp [State.loadElems] at h⟩
  | cons e r ih =>
    have he := loadElem_canon s i x c e 0 x.nf hs
    have hr := ih (s.loadElem i x c e 0 x.nf).2 he
    unfold State.loadElems
    dsimp only
    split
    · exact ⟨hs, fun e y t h => by cases h; exact he⟩
    · exact hr

theorem putVld_mem (s : State) (q) (x) (vals) (hi) (tail) (vstart) :
    (s.putVld q x vals hi tail vstart).mem = s.mem := by
  unfold State.putVld
  grind [modQ_mem]

theorem endVld_canon (s : State) (q) (x) (ff) (r) (hr : Canon r.2.mem)
    (hf : ∀ e y t, r.1.2 = some (e, y, t) → Canon t.mem) : (s.endVld q x ff r).All (fun t => Canon t.mem) := by
  unfold State.endVld
  dsimp only
  split
  · show Canon _
    rw [putVld_mem]; exact hr
  · rename_i e y t h
    split
    · show Canon _
      rw [putVld_mem, modQ_mem]; exact hr
    · show Canon _
      rw [putVld_mem]; exact hf e y t h

theorem execVld_canon (q) (m) (mode) (ff) (w) (vd) (rs1) (rs2) (s : State) (hs : Canon s.mem) (t : State)
    (ht : execVld q m mode ff w vd rs1 rs2 s = .next t) : Canon t.mem := by
  unfold execVld at ht
  refine tehus_canon s q 4 _ _ hs (fun u hu => ?_) t ht
  have h := fun x => loadElems_canon (u.drain q) q x (u.q q) ((u.q q).active m) (drain_canon u q hu)
  split
  · exact hu
  · split
    · exact hu
    · exact endVld_canon _ _ _ _ _ (h _).1 (h _).2

theorem winPosts_canon (s : State) (i) (l) (hs : Canon s.mem) : Canon (s.winPosts i l).mem :=
  foldl_canon _ _ _ hs (fun u e h => winWrite_canon u .quire i e.1 e.2.1 e.2.2 h)

theorem writeVec_canon (s : State) (i) (va) (pas) (v) (hs : Canon s.mem) :
    Canon (s.writeVec i va pas v).2.mem := by
  unfold State.writeVec
  grind [storeTo_canon]

theorem checkElem_mem (s : State) (i) (x) (c) (e) (x5) (x6) :
    (s.checkElem i x c e x5 x6).2.mem = s.mem := by
  fun_induction (s.checkElem i x c e x5 x6) <;> grind [access_mem]

theorem storeElem_canon (s : State) (i) (x) (c) (e) (x5) (x6) (hs : Canon s.mem) :
    Canon (s.storeElem i x c e x5 x6).2.mem := by
  fun_induction (s.storeElem i x c e x5 x6) <;> grind [writeVec_canon]

theorem storeElems_canon (s : State) (i) (x) (c) (x4) (hs : Canon s.mem) :
    Canon (s.storeElems i x c x4).2.mem := by
  fun_induction (s.storeElems i x c x4) <;> grind [checkElem_mem, storeElem_canon]

theorem execVst_canon (q) (m) (mode) (ff) (w) (vd) (rs1) (rs2) (s : State) (hs : Canon s.mem) (t : State) (ht : (execVst q m mode ff w vd rs1 rs2 s) = .next t) :
    Canon t.mem := by
  unfold execVst at ht
  grind [→ tehus_canon, drain_canon, storeElems_canon, modQ_mem, winPosts_canon, Body.All]

theorem execMld_canon (q) (mr) (rs1) (s : State) (hs : Canon s.mem) (t : State) (ht : (execMld q mr rs1 s) = .next t) :
    Canon t.mem := by
  unfold execMld at ht
  grind [→ tehus_canon, drain_canon, access_mem, readVec_canon, modQ_mem, Body.All]

theorem execMst_canon (q) (mr) (rs1) (s : State) (hs : Canon s.mem) (t : State) (ht : (execMst q mr rs1 s) = .next t) :
    Canon t.mem := by
  unfold execMst at ht
  grind [→ tehus_canon, drain_canon, access_mem, writeVec_canon, winPosts_canon, Body.All]

end Sys2Proof.Machine
end

