-- ==== Sys2Proof/Laws/State.lean ====
section
/-!
SUPPORT. What each named update of a state leaves of every other field: the update is never unfolded for it.
-/
namespace Sys2Proof.Machine

section setQ
variable (s : State) (i : QuireId) (c : Quire)
@[simp] theorem setQ_keeps_mem : (s.setQ i c).mem = s.mem := rfl
@[simp] theorem setQ_keeps_poison : (s.setQ i c).poison = s.poison := rfl
@[simp] theorem setQ_keeps_win : (s.setQ i c).win = s.win := rfl
@[simp] theorem setQ_keeps_gtime : (s.setQ i c).gtime = s.gtime := rfl
@[simp] theorem setQ_keeps_atomics : (s.setQ i c).atomics = s.atomics := rfl
@[simp] theorem setQ_keeps_xlat : (s.setQ i c).xlat = s.xlat := rfl
@[simp] theorem setQ_keeps_ctxCache : (s.setQ i c).ctxCache = s.ctxCache := rfl
@[simp] theorem setQ_keeps_errBanks : (s.setQ i c).errBanks = s.errBanks := rfl
@[simp] theorem setQ_keeps_rings : (s.setQ i c).rings = s.rings := rfl
@[simp] theorem setQ_keeps_counters : (s.setQ i c).counters = s.counters := rfl
@[simp] theorem setQ_keeps_engines : (s.setQ i c).engines = s.engines := rfl
@[simp] theorem setQ_keeps_frames : (s.setQ i c).frames = s.frames := rfl
@[simp] theorem setQ_keeps_streams : (s.setQ i c).streams = s.streams := rfl
@[simp] theorem setQ_keeps_streamOrder : (s.setQ i c).streamOrder = s.streamOrder := rfl
@[simp] theorem setQ_keeps_lastOwner : (s.setQ i c).lastOwner = s.lastOwner := rfl
@[simp] theorem setQ_keeps_xfqHeld : (s.setQ i c).xfqHeld = s.xfqHeld := rfl
@[simp] theorem setQ_keeps_xlatInv : (s.setQ i c).xlatInv = s.xlatInv := rfl
@[simp] theorem setQ_keeps_queues : (s.setQ i c).queues = s.queues := rfl
@[simp] theorem setQ_keeps_bound : (s.setQ i c).bound = s.bound := rfl
@[simp] theorem setQ_keeps_hostOut : (s.setQ i c).hostOut = s.hostOut := rfl
@[simp] theorem setQ_keeps_hostHeld : (s.setQ i c).hostHeld = s.hostHeld := rfl
@[simp] theorem setQ_keeps_ceTimes : (s.setQ i c).ceTimes = s.ceTimes := rfl
@[simp] theorem setQ_keeps_notices : (s.setQ i c).notices = s.notices := rfl
@[simp] theorem setQ_keeps_msiCache : (s.setQ i c).msiCache = s.msiCache := rfl
@[simp] theorem setQ_keeps_evPhase : (s.setQ i c).evPhase = s.evPhase := rfl
@[simp] theorem setQ_keeps_hostReqs : (s.setQ i c).hostReqs = s.hostReqs := rfl
@[simp] theorem setQ_keeps_hostRsps : (s.setQ i c).hostRsps = s.hostRsps := rfl
@[simp] theorem setQ_keeps_folioFailed : (s.setQ i c).folioFailed = s.folioFailed := rfl
@[simp] theorem setQ_keeps_txbFailed : (s.setQ i c).txbFailed = s.txbFailed := rfl
@[simp] theorem setQ_keeps_folioMap : (s.setQ i c).folioMap = s.folioMap := rfl
@[simp] theorem setQ_keeps_txbMap : (s.setQ i c).txbMap = s.txbMap := rfl
@[simp] theorem setQ_keeps_tipin : (s.setQ i c).tipin = s.tipin := rfl
@[simp] theorem setQ_keeps_straps : (s.setQ i c).straps = s.straps := rfl
@[simp] theorem setQ_keeps_portFailed : (s.setQ i c).portFailed = s.portFailed := rfl
@[simp] theorem setQ_keeps_tierLast : (s.setQ i c).tierLast = s.tierLast := rfl
@[simp] theorem setQ_keeps_mgmt : (s.setQ i c).mgmt = s.mgmt := rfl
@[simp] theorem setQ_keeps_ports : (s.setQ i c).ports = s.ports := rfl
@[simp] theorem setQ_keeps_tags : (s.setQ i c).tags = s.tags := rfl
@[simp] theorem setQ_keeps_localQ : (s.setQ i c).localQ = s.localQ := rfl
@[simp] theorem setQ_keeps_ordHold : (s.setQ i c).ordHold = s.ordHold := rfl
@[simp] theorem setQ_keeps_ordHeld : (s.setQ i c).ordHeld = s.ordHeld := rfl
@[simp] theorem setQ_keeps_rte : (s.setQ i c).rte = s.rte := rfl
@[simp] theorem setQ_keeps_linkGen : (s.setQ i c).linkGen = s.linkGen := rfl
@[simp] theorem setQ_keeps_odrainEnd : (s.setQ i c).odrainEnd = s.odrainEnd := rfl
@[simp] theorem setQ_keeps_present : (s.setQ i c).present = s.present := rfl
@[simp] theorem setQ_keeps_wir : (s.setQ i c).wir = s.wir := rfl
@[simp] theorem setQ_keeps_heldWrites : (s.setQ i c).heldWrites = s.heldWrites := rfl
@[simp] theorem setQ_keeps_domMove : (s.setQ i c).domMove = s.domMove := rfl
@[simp] theorem setQ_keeps_domSaved : (s.setQ i c).domSaved = s.domSaved := rfl
@[simp] theorem setQ_keeps_domLost : (s.setQ i c).domLost = s.domLost := rfl
@[simp] theorem setQ_keeps_govSteps : (s.setQ i c).govSteps = s.govSteps := rfl
@[simp] theorem setQ_keeps_govLow : (s.setQ i c).govLow = s.govLow := rfl
@[simp] theorem setQ_keeps_vreq : (s.setQ i c).vreq = s.vreq := rfl
@[simp] theorem setQ_keeps_droop : (s.setQ i c).droop = s.droop := rfl
@[simp] theorem setQ_keeps_doorbells : (s.setQ i c).doorbells = s.doorbells := rfl
@[simp] theorem setQ_keeps_dbDrop : (s.setQ i c).dbDrop = s.dbDrop := rfl
@[simp] theorem setQ_keeps_armed : (s.setQ i c).armed = s.armed := rfl
@[simp] theorem setQ_keeps_tested : (s.setQ i c).tested = s.tested := rfl
@[simp] theorem setQ_keeps_admits : (s.setQ i c).admits = s.admits := rfl
@[simp] theorem setQ_keeps_svc : (s.setQ i c).svc = s.svc := rfl
@[simp] theorem setQ_keeps_calTrain : (s.setQ i c).calTrain = s.calTrain := rfl
@[simp] theorem setQ_keeps_calLink : (s.setQ i c).calLink = s.calLink := rfl
@[simp] theorem setQ_keeps_nodeRec : (s.setQ i c).nodeRec = s.nodeRec := rfl
@[simp] theorem setQ_keeps_txb : (s.setQ i c).txb = s.txb := rfl
@[simp] theorem setQ_keeps_calAt : (s.setQ i c).calAt = s.calAt := rfl
@[simp] theorem setQ_keeps_cxlUp : (s.setQ i c).cxlUp = s.cxlUp := rfl
@[simp] theorem setQ_keeps_dbgRingSel : (s.setQ i c).dbgRingSel = s.dbgRingSel := rfl
@[simp] theorem setQ_keeps_dbgCntSel : (s.setQ i c).dbgCntSel = s.dbgCntSel := rfl
@[simp] theorem setQ_keeps_dbgRsps : (s.setQ i c).dbgRsps = s.dbgRsps := rfl
@[simp] theorem setQ_keeps_free : (s.setQ i c).free = s.free := rfl
@[simp] theorem setQ_keeps_pending : (s.setQ i c).pending = s.pending := rfl
end setQ

section modQ
variable (s : State) (i : QuireId) (f : Quire → Quire)
@[simp] theorem modQ_keeps_mem : (s.modQ i f).mem = s.mem := rfl
@[simp] theorem modQ_keeps_poison : (s.modQ i f).poison = s.poison := rfl
@[simp] theorem modQ_keeps_win : (s.modQ i f).win = s.win := rfl
@[simp] theorem modQ_keeps_gtime : (s.modQ i f).gtime = s.gtime := rfl
@[simp] theorem modQ_keeps_atomics : (s.modQ i f).atomics = s.atomics := rfl
@[simp] theorem modQ_keeps_xlat : (s.modQ i f).xlat = s.xlat := rfl
@[simp] theorem modQ_keeps_ctxCache : (s.modQ i f).ctxCache = s.ctxCache := rfl
@[simp] theorem modQ_keeps_errBanks : (s.modQ i f).errBanks = s.errBanks := rfl
@[simp] theorem modQ_keeps_rings : (s.modQ i f).rings = s.rings := rfl
@[simp] theorem modQ_keeps_counters : (s.modQ i f).counters = s.counters := rfl
@[simp] theorem modQ_keeps_engines : (s.modQ i f).engines = s.engines := rfl
@[simp] theorem modQ_keeps_frames : (s.modQ i f).frames = s.frames := rfl
@[simp] theorem modQ_keeps_streams : (s.modQ i f).streams = s.streams := rfl
@[simp] theorem modQ_keeps_streamOrder : (s.modQ i f).streamOrder = s.streamOrder := rfl
@[simp] theorem modQ_keeps_lastOwner : (s.modQ i f).lastOwner = s.lastOwner := rfl
@[simp] theorem modQ_keeps_xfqHeld : (s.modQ i f).xfqHeld = s.xfqHeld := rfl
@[simp] theorem modQ_keeps_xlatInv : (s.modQ i f).xlatInv = s.xlatInv := rfl
@[simp] theorem modQ_keeps_queues : (s.modQ i f).queues = s.queues := rfl
@[simp] theorem modQ_keeps_bound : (s.modQ i f).bound = s.bound := rfl
@[simp] theorem modQ_keeps_hostOut : (s.modQ i f).hostOut = s.hostOut := rfl
@[simp] theorem modQ_keeps_hostHeld : (s.modQ i f).hostHeld = s.hostHeld := rfl
@[simp] theorem modQ_keeps_ceTimes : (s.modQ i f).ceTimes = s.ceTimes := rfl
@[simp] theorem modQ_keeps_notices : (s.modQ i f).notices = s.notices := rfl
@[simp] theorem modQ_keeps_msiCache : (s.modQ i f).msiCache = s.msiCache := rfl
@[simp] theorem modQ_keeps_evPhase : (s.modQ i f).evPhase = s.evPhase := rfl
@[simp] theorem modQ_keeps_hostReqs : (s.modQ i f).hostReqs = s.hostReqs := rfl
@[simp] theorem modQ_keeps_hostRsps : (s.modQ i f).hostRsps = s.hostRsps := rfl
@[simp] theorem modQ_keeps_folioFailed : (s.modQ i f).folioFailed = s.folioFailed := rfl
@[simp] theorem modQ_keeps_txbFailed : (s.modQ i f).txbFailed = s.txbFailed := rfl
@[simp] theorem modQ_keeps_folioMap : (s.modQ i f).folioMap = s.folioMap := rfl
@[simp] theorem modQ_keeps_txbMap : (s.modQ i f).txbMap = s.txbMap := rfl
@[simp] theorem modQ_keeps_tipin : (s.modQ i f).tipin = s.tipin := rfl
@[simp] theorem modQ_keeps_straps : (s.modQ i f).straps = s.straps := rfl
@[simp] theorem modQ_keeps_portFailed : (s.modQ i f).portFailed = s.portFailed := rfl
@[simp] theorem modQ_keeps_tierLast : (s.modQ i f).tierLast = s.tierLast := rfl
@[simp] theorem modQ_keeps_mgmt : (s.modQ i f).mgmt = s.mgmt := rfl
@[simp] theorem modQ_keeps_ports : (s.modQ i f).ports = s.ports := rfl
@[simp] theorem modQ_keeps_tags : (s.modQ i f).tags = s.tags := rfl
@[simp] theorem modQ_keeps_localQ : (s.modQ i f).localQ = s.localQ := rfl
@[simp] theorem modQ_keeps_ordHold : (s.modQ i f).ordHold = s.ordHold := rfl
@[simp] theorem modQ_keeps_ordHeld : (s.modQ i f).ordHeld = s.ordHeld := rfl
@[simp] theorem modQ_keeps_rte : (s.modQ i f).rte = s.rte := rfl
@[simp] theorem modQ_keeps_linkGen : (s.modQ i f).linkGen = s.linkGen := rfl
@[simp] theorem modQ_keeps_odrainEnd : (s.modQ i f).odrainEnd = s.odrainEnd := rfl
@[simp] theorem modQ_keeps_present : (s.modQ i f).present = s.present := rfl
@[simp] theorem modQ_keeps_wir : (s.modQ i f).wir = s.wir := rfl
@[simp] theorem modQ_keeps_heldWrites : (s.modQ i f).heldWrites = s.heldWrites := rfl
@[simp] theorem modQ_keeps_domMove : (s.modQ i f).domMove = s.domMove := rfl
@[simp] theorem modQ_keeps_domSaved : (s.modQ i f).domSaved = s.domSaved := rfl
@[simp] theorem modQ_keeps_domLost : (s.modQ i f).domLost = s.domLost := rfl
@[simp] theorem modQ_keeps_govSteps : (s.modQ i f).govSteps = s.govSteps := rfl
@[simp] theorem modQ_keeps_govLow : (s.modQ i f).govLow = s.govLow := rfl
@[simp] theorem modQ_keeps_vreq : (s.modQ i f).vreq = s.vreq := rfl
@[simp] theorem modQ_keeps_droop : (s.modQ i f).droop = s.droop := rfl
@[simp] theorem modQ_keeps_doorbells : (s.modQ i f).doorbells = s.doorbells := rfl
@[simp] theorem modQ_keeps_dbDrop : (s.modQ i f).dbDrop = s.dbDrop := rfl
@[simp] theorem modQ_keeps_armed : (s.modQ i f).armed = s.armed := rfl
@[simp] theorem modQ_keeps_tested : (s.modQ i f).tested = s.tested := rfl
@[simp] theorem modQ_keeps_admits : (s.modQ i f).admits = s.admits := rfl
@[simp] theorem modQ_keeps_svc : (s.modQ i f).svc = s.svc := rfl
@[simp] theorem modQ_keeps_calTrain : (s.modQ i f).calTrain = s.calTrain := rfl
@[simp] theorem modQ_keeps_calLink : (s.modQ i f).calLink = s.calLink := rfl
@[simp] theorem modQ_keeps_nodeRec : (s.modQ i f).nodeRec = s.nodeRec := rfl
@[simp] theorem modQ_keeps_txb : (s.modQ i f).txb = s.txb := rfl
@[simp] theorem modQ_keeps_calAt : (s.modQ i f).calAt = s.calAt := rfl
@[simp] theorem modQ_keeps_cxlUp : (s.modQ i f).cxlUp = s.cxlUp := rfl
@[simp] theorem modQ_keeps_dbgRingSel : (s.modQ i f).dbgRingSel = s.dbgRingSel := rfl
@[simp] theorem modQ_keeps_dbgCntSel : (s.modQ i f).dbgCntSel = s.dbgCntSel := rfl
@[simp] theorem modQ_keeps_dbgRsps : (s.modQ i f).dbgRsps = s.dbgRsps := rfl
@[simp] theorem modQ_keeps_free : (s.modQ i f).free = s.free := rfl
@[simp] theorem modQ_keeps_pending : (s.modQ i f).pending = s.pending := rfl
end modQ

section setReg
variable (s : State) (o : Nat) (x : W64)
@[simp] theorem setReg_keeps_quires : (s.setReg o x).quires = s.quires := rfl
@[simp] theorem setReg_keeps_mem : (s.setReg o x).mem = s.mem := rfl
@[simp] theorem setReg_keeps_poison : (s.setReg o x).poison = s.poison := rfl
@[simp] theorem setReg_keeps_gtime : (s.setReg o x).gtime = s.gtime := rfl
@[simp] theorem setReg_keeps_atomics : (s.setReg o x).atomics = s.atomics := rfl
@[simp] theorem setReg_keeps_xlat : (s.setReg o x).xlat = s.xlat := rfl
@[simp] theorem setReg_keeps_ctxCache : (s.setReg o x).ctxCache = s.ctxCache := rfl
@[simp] theorem setReg_keeps_errBanks : (s.setReg o x).errBanks = s.errBanks := rfl
@[simp] theorem setReg_keeps_rings : (s.setReg o x).rings = s.rings := rfl
@[simp] theorem setReg_keeps_counters : (s.setReg o x).counters = s.counters := rfl
@[simp] theorem setReg_keeps_engines : (s.setReg o x).engines = s.engines := rfl
@[simp] theorem setReg_keeps_frames : (s.setReg o x).frames = s.frames := rfl
@[simp] theorem setReg_keeps_streams : (s.setReg o x).streams = s.streams := rfl
@[simp] theorem setReg_keeps_streamOrder : (s.setReg o x).streamOrder = s.streamOrder := rfl
@[simp] theorem setReg_keeps_lastOwner : (s.setReg o x).lastOwner = s.lastOwner := rfl
@[simp] theorem setReg_keeps_xfqHeld : (s.setReg o x).xfqHeld = s.xfqHeld := rfl
@[simp] theorem setReg_keeps_xlatInv : (s.setReg o x).xlatInv = s.xlatInv := rfl
@[simp] theorem setReg_keeps_queues : (s.setReg o x).queues = s.queues := rfl
@[simp] theorem setReg_keeps_bound : (s.setReg o x).bound = s.bound := rfl
@[simp] theorem setReg_keeps_hostOut : (s.setReg o x).hostOut = s.hostOut := rfl
@[simp] theorem setReg_keeps_hostHeld : (s.setReg o x).hostHeld = s.hostHeld := rfl
@[simp] theorem setReg_keeps_ceTimes : (s.setReg o x).ceTimes = s.ceTimes := rfl
@[simp] theorem setReg_keeps_notices : (s.setReg o x).notices = s.notices := rfl
@[simp] theorem setReg_keeps_msiCache : (s.setReg o x).msiCache = s.msiCache := rfl
@[simp] theorem setReg_keeps_evPhase : (s.setReg o x).evPhase = s.evPhase := rfl
@[simp] theorem setReg_keeps_hostReqs : (s.setReg o x).hostReqs = s.hostReqs := rfl
@[simp] theorem setReg_keeps_hostRsps : (s.setReg o x).hostRsps = s.hostRsps := rfl
@[simp] theorem setReg_keeps_folioFailed : (s.setReg o x).folioFailed = s.folioFailed := rfl
@[simp] theorem setReg_keeps_txbFailed : (s.setReg o x).txbFailed = s.txbFailed := rfl
@[simp] theorem setReg_keeps_folioMap : (s.setReg o x).folioMap = s.folioMap := rfl
@[simp] theorem setReg_keeps_txbMap : (s.setReg o x).txbMap = s.txbMap := rfl
@[simp] theorem setReg_keeps_tipin : (s.setReg o x).tipin = s.tipin := rfl
@[simp] theorem setReg_keeps_straps : (s.setReg o x).straps = s.straps := rfl
@[simp] theorem setReg_keeps_portFailed : (s.setReg o x).portFailed = s.portFailed := rfl
@[simp] theorem setReg_keeps_tierLast : (s.setReg o x).tierLast = s.tierLast := rfl
@[simp] theorem setReg_keeps_mgmt : (s.setReg o x).mgmt = s.mgmt := rfl
@[simp] theorem setReg_keeps_ports : (s.setReg o x).ports = s.ports := rfl
@[simp] theorem setReg_keeps_tags : (s.setReg o x).tags = s.tags := rfl
@[simp] theorem setReg_keeps_localQ : (s.setReg o x).localQ = s.localQ := rfl
@[simp] theorem setReg_keeps_ordHold : (s.setReg o x).ordHold = s.ordHold := rfl
@[simp] theorem setReg_keeps_ordHeld : (s.setReg o x).ordHeld = s.ordHeld := rfl
@[simp] theorem setReg_keeps_rte : (s.setReg o x).rte = s.rte := rfl
@[simp] theorem setReg_keeps_linkGen : (s.setReg o x).linkGen = s.linkGen := rfl
@[simp] theorem setReg_keeps_odrainEnd : (s.setReg o x).odrainEnd = s.odrainEnd := rfl
@[simp] theorem setReg_keeps_present : (s.setReg o x).present = s.present := rfl
@[simp] theorem setReg_keeps_wir : (s.setReg o x).wir = s.wir := rfl
@[simp] theorem setReg_keeps_heldWrites : (s.setReg o x).heldWrites = s.heldWrites := rfl
@[simp] theorem setReg_keeps_domMove : (s.setReg o x).domMove = s.domMove := rfl
@[simp] theorem setReg_keeps_domSaved : (s.setReg o x).domSaved = s.domSaved := rfl
@[simp] theorem setReg_keeps_domLost : (s.setReg o x).domLost = s.domLost := rfl
@[simp] theorem setReg_keeps_govSteps : (s.setReg o x).govSteps = s.govSteps := rfl
@[simp] theorem setReg_keeps_govLow : (s.setReg o x).govLow = s.govLow := rfl
@[simp] theorem setReg_keeps_vreq : (s.setReg o x).vreq = s.vreq := rfl
@[simp] theorem setReg_keeps_droop : (s.setReg o x).droop = s.droop := rfl
@[simp] theorem setReg_keeps_doorbells : (s.setReg o x).doorbells = s.doorbells := rfl
@[simp] theorem setReg_keeps_dbDrop : (s.setReg o x).dbDrop = s.dbDrop := rfl
@[simp] theorem setReg_keeps_armed : (s.setReg o x).armed = s.armed := rfl
@[simp] theorem setReg_keeps_tested : (s.setReg o x).tested = s.tested := rfl
@[simp] theorem setReg_keeps_admits : (s.setReg o x).admits = s.admits := rfl
@[simp] theorem setReg_keeps_svc : (s.setReg o x).svc = s.svc := rfl
@[simp] theorem setReg_keeps_calTrain : (s.setReg o x).calTrain = s.calTrain := rfl
@[simp] theorem setReg_keeps_calLink : (s.setReg o x).calLink = s.calLink := rfl
@[simp] theorem setReg_keeps_nodeRec : (s.setReg o x).nodeRec = s.nodeRec := rfl
@[simp] theorem setReg_keeps_txb : (s.setReg o x).txb = s.txb := rfl
@[simp] theorem setReg_keeps_calAt : (s.setReg o x).calAt = s.calAt := rfl
@[simp] theorem setReg_keeps_cxlUp : (s.setReg o x).cxlUp = s.cxlUp := rfl
@[simp] theorem setReg_keeps_dbgRingSel : (s.setReg o x).dbgRingSel = s.dbgRingSel := rfl
@[simp] theorem setReg_keeps_dbgCntSel : (s.setReg o x).dbgCntSel = s.dbgCntSel := rfl
@[simp] theorem setReg_keeps_dbgRsps : (s.setReg o x).dbgRsps = s.dbgRsps := rfl
@[simp] theorem setReg_keeps_free : (s.setReg o x).free = s.free := rfl
@[simp] theorem setReg_keeps_pending : (s.setReg o x).pending = s.pending := rfl
end setReg

section setFld
variable (s : State) (o hi lo x : Nat)
@[simp] theorem setFld_keeps_quires : (s.setFld o hi lo x).quires = s.quires := rfl
@[simp] theorem setFld_keeps_mem : (s.setFld o hi lo x).mem = s.mem := rfl
@[simp] theorem setFld_keeps_poison : (s.setFld o hi lo x).poison = s.poison := rfl
@[simp] theorem setFld_keeps_gtime : (s.setFld o hi lo x).gtime = s.gtime := rfl
@[simp] theorem setFld_keeps_atomics : (s.setFld o hi lo x).atomics = s.atomics := rfl
@[simp] theorem setFld_keeps_xlat : (s.setFld o hi lo x).xlat = s.xlat := rfl
@[simp] theorem setFld_keeps_ctxCache : (s.setFld o hi lo x).ctxCache = s.ctxCache := rfl
@[simp] theorem setFld_keeps_errBanks : (s.setFld o hi lo x).errBanks = s.errBanks := rfl
@[simp] theorem setFld_keeps_rings : (s.setFld o hi lo x).rings = s.rings := rfl
@[simp] theorem setFld_keeps_counters : (s.setFld o hi lo x).counters = s.counters := rfl
@[simp] theorem setFld_keeps_engines : (s.setFld o hi lo x).engines = s.engines := rfl
@[simp] theorem setFld_keeps_frames : (s.setFld o hi lo x).frames = s.frames := rfl
@[simp] theorem setFld_keeps_streams : (s.setFld o hi lo x).streams = s.streams := rfl
@[simp] theorem setFld_keeps_streamOrder : (s.setFld o hi lo x).streamOrder = s.streamOrder := rfl
@[simp] theorem setFld_keeps_lastOwner : (s.setFld o hi lo x).lastOwner = s.lastOwner := rfl
@[simp] theorem setFld_keeps_xfqHeld : (s.setFld o hi lo x).xfqHeld = s.xfqHeld := rfl
@[simp] theorem setFld_keeps_xlatInv : (s.setFld o hi lo x).xlatInv = s.xlatInv := rfl
@[simp] theorem setFld_keeps_queues : (s.setFld o hi lo x).queues = s.queues := rfl
@[simp] theorem setFld_keeps_bound : (s.setFld o hi lo x).bound = s.bound := rfl
@[simp] theorem setFld_keeps_hostOut : (s.setFld o hi lo x).hostOut = s.hostOut := rfl
@[simp] theorem setFld_keeps_hostHeld : (s.setFld o hi lo x).hostHeld = s.hostHeld := rfl
@[simp] theorem setFld_keeps_ceTimes : (s.setFld o hi lo x).ceTimes = s.ceTimes := rfl
@[simp] theorem setFld_keeps_notices : (s.setFld o hi lo x).notices = s.notices := rfl
@[simp] theorem setFld_keeps_msiCache : (s.setFld o hi lo x).msiCache = s.msiCache := rfl
@[simp] theorem setFld_keeps_evPhase : (s.setFld o hi lo x).evPhase = s.evPhase := rfl
@[simp] theorem setFld_keeps_hostReqs : (s.setFld o hi lo x).hostReqs = s.hostReqs := rfl
@[simp] theorem setFld_keeps_hostRsps : (s.setFld o hi lo x).hostRsps = s.hostRsps := rfl
@[simp] theorem setFld_keeps_folioFailed : (s.setFld o hi lo x).folioFailed = s.folioFailed := rfl
@[simp] theorem setFld_keeps_txbFailed : (s.setFld o hi lo x).txbFailed = s.txbFailed := rfl
@[simp] theorem setFld_keeps_folioMap : (s.setFld o hi lo x).folioMap = s.folioMap := rfl
@[simp] theorem setFld_keeps_txbMap : (s.setFld o hi lo x).txbMap = s.txbMap := rfl
@[simp] theorem setFld_keeps_tipin : (s.setFld o hi lo x).tipin = s.tipin := rfl
@[simp] theorem setFld_keeps_straps : (s.setFld o hi lo x).straps = s.straps := rfl
@[simp] theorem setFld_keeps_portFailed : (s.setFld o hi lo x).portFailed = s.portFailed := rfl
@[simp] theorem setFld_keeps_tierLast : (s.setFld o hi lo x).tierLast = s.tierLast := rfl
@[simp] theorem setFld_keeps_mgmt : (s.setFld o hi lo x).mgmt = s.mgmt := rfl
@[simp] theorem setFld_keeps_ports : (s.setFld o hi lo x).ports = s.ports := rfl
@[simp] theorem setFld_keeps_tags : (s.setFld o hi lo x).tags = s.tags := rfl
@[simp] theorem setFld_keeps_localQ : (s.setFld o hi lo x).localQ = s.localQ := rfl
@[simp] theorem setFld_keeps_ordHold : (s.setFld o hi lo x).ordHold = s.ordHold := rfl
@[simp] theorem setFld_keeps_ordHeld : (s.setFld o hi lo x).ordHeld = s.ordHeld := rfl
@[simp] theorem setFld_keeps_rte : (s.setFld o hi lo x).rte = s.rte := rfl
@[simp] theorem setFld_keeps_linkGen : (s.setFld o hi lo x).linkGen = s.linkGen := rfl
@[simp] theorem setFld_keeps_odrainEnd : (s.setFld o hi lo x).odrainEnd = s.odrainEnd := rfl
@[simp] theorem setFld_keeps_present : (s.setFld o hi lo x).present = s.present := rfl
@[simp] theorem setFld_keeps_wir : (s.setFld o hi lo x).wir = s.wir := rfl
@[simp] theorem setFld_keeps_heldWrites : (s.setFld o hi lo x).heldWrites = s.heldWrites := rfl
@[simp] theorem setFld_keeps_domMove : (s.setFld o hi lo x).domMove = s.domMove := rfl
@[simp] theorem setFld_keeps_domSaved : (s.setFld o hi lo x).domSaved = s.domSaved := rfl
@[simp] theorem setFld_keeps_domLost : (s.setFld o hi lo x).domLost = s.domLost := rfl
@[simp] theorem setFld_keeps_govSteps : (s.setFld o hi lo x).govSteps = s.govSteps := rfl
@[simp] theorem setFld_keeps_govLow : (s.setFld o hi lo x).govLow = s.govLow := rfl
@[simp] theorem setFld_keeps_vreq : (s.setFld o hi lo x).vreq = s.vreq := rfl
@[simp] theorem setFld_keeps_droop : (s.setFld o hi lo x).droop = s.droop := rfl
@[simp] theorem setFld_keeps_doorbells : (s.setFld o hi lo x).doorbells = s.doorbells := rfl
@[simp] theorem setFld_keeps_dbDrop : (s.setFld o hi lo x).dbDrop = s.dbDrop := rfl
@[simp] theorem setFld_keeps_armed : (s.setFld o hi lo x).armed = s.armed := rfl
@[simp] theorem setFld_keeps_tested : (s.setFld o hi lo x).tested = s.tested := rfl
@[simp] theorem setFld_keeps_admits : (s.setFld o hi lo x).admits = s.admits := rfl
@[simp] theorem setFld_keeps_svc : (s.setFld o hi lo x).svc = s.svc := rfl
@[simp] theorem setFld_keeps_calTrain : (s.setFld o hi lo x).calTrain = s.calTrain := rfl
@[simp] theorem setFld_keeps_calLink : (s.setFld o hi lo x).calLink = s.calLink := rfl
@[simp] theorem setFld_keeps_nodeRec : (s.setFld o hi lo x).nodeRec = s.nodeRec := rfl
@[simp] theorem setFld_keeps_txb : (s.setFld o hi lo x).txb = s.txb := rfl
@[simp] theorem setFld_keeps_calAt : (s.setFld o hi lo x).calAt = s.calAt := rfl
@[simp] theorem setFld_keeps_cxlUp : (s.setFld o hi lo x).cxlUp = s.cxlUp := rfl
@[simp] theorem setFld_keeps_dbgRingSel : (s.setFld o hi lo x).dbgRingSel = s.dbgRingSel := rfl
@[simp] theorem setFld_keeps_dbgCntSel : (s.setFld o hi lo x).dbgCntSel = s.dbgCntSel := rfl
@[simp] theorem setFld_keeps_dbgRsps : (s.setFld o hi lo x).dbgRsps = s.dbgRsps := rfl
@[simp] theorem setFld_keeps_free : (s.setFld o hi lo x).free = s.free := rfl
@[simp] theorem setFld_keeps_pending : (s.setFld o hi lo x).pending = s.pending := rfl
end setFld

section setByte
variable (s : State) (a : Nat) (b : Byte)
@[simp] theorem setByte_keeps_quires : (s.setByte a b).quires = s.quires := rfl
@[simp] theorem setByte_keeps_poison : (s.setByte a b).poison = s.poison := rfl
@[simp] theorem setByte_keeps_win : (s.setByte a b).win = s.win := rfl
@[simp] theorem setByte_keeps_gtime : (s.setByte a b).gtime = s.gtime := rfl
@[simp] theorem setByte_keeps_atomics : (s.setByte a b).atomics = s.atomics := rfl
@[simp] theorem setByte_keeps_xlat : (s.setByte a b).xlat = s.xlat := rfl
@[simp] theorem setByte_keeps_ctxCache : (s.setByte a b).ctxCache = s.ctxCache := rfl
@[simp] theorem setByte_keeps_errBanks : (s.setByte a b).errBanks = s.errBanks := rfl
@[simp] theorem setByte_keeps_rings : (s.setByte a b).rings = s.rings := rfl
@[simp] theorem setByte_keeps_counters : (s.setByte a b).counters = s.counters := rfl
@[simp] theorem setByte_keeps_engines : (s.setByte a b).engines = s.engines := rfl
@[simp] theorem setByte_keeps_frames : (s.setByte a b).frames = s.frames := rfl
@[simp] theorem setByte_keeps_streams : (s.setByte a b).streams = s.streams := rfl
@[simp] theorem setByte_keeps_streamOrder : (s.setByte a b).streamOrder = s.streamOrder := rfl
@[simp] theorem setByte_keeps_lastOwner : (s.setByte a b).lastOwner = s.lastOwner := rfl
@[simp] theorem setByte_keeps_xfqHeld : (s.setByte a b).xfqHeld = s.xfqHeld := rfl
@[simp] theorem setByte_keeps_xlatInv : (s.setByte a b).xlatInv = s.xlatInv := rfl
@[simp] theorem setByte_keeps_queues : (s.setByte a b).queues = s.queues := rfl
@[simp] theorem setByte_keeps_bound : (s.setByte a b).bound = s.bound := rfl
@[simp] theorem setByte_keeps_hostOut : (s.setByte a b).hostOut = s.hostOut := rfl
@[simp] theorem setByte_keeps_hostHeld : (s.setByte a b).hostHeld = s.hostHeld := rfl
@[simp] theorem setByte_keeps_ceTimes : (s.setByte a b).ceTimes = s.ceTimes := rfl
@[simp] theorem setByte_keeps_notices : (s.setByte a b).notices = s.notices := rfl
@[simp] theorem setByte_keeps_msiCache : (s.setByte a b).msiCache = s.msiCache := rfl
@[simp] theorem setByte_keeps_evPhase : (s.setByte a b).evPhase = s.evPhase := rfl
@[simp] theorem setByte_keeps_hostReqs : (s.setByte a b).hostReqs = s.hostReqs := rfl
@[simp] theorem setByte_keeps_hostRsps : (s.setByte a b).hostRsps = s.hostRsps := rfl
@[simp] theorem setByte_keeps_folioFailed : (s.setByte a b).folioFailed = s.folioFailed := rfl
@[simp] theorem setByte_keeps_txbFailed : (s.setByte a b).txbFailed = s.txbFailed := rfl
@[simp] theorem setByte_keeps_folioMap : (s.setByte a b).folioMap = s.folioMap := rfl
@[simp] theorem setByte_keeps_txbMap : (s.setByte a b).txbMap = s.txbMap := rfl
@[simp] theorem setByte_keeps_tipin : (s.setByte a b).tipin = s.tipin := rfl
@[simp] theorem setByte_keeps_straps : (s.setByte a b).straps = s.straps := rfl
@[simp] theorem setByte_keeps_portFailed : (s.setByte a b).portFailed = s.portFailed := rfl
@[simp] theorem setByte_keeps_tierLast : (s.setByte a b).tierLast = s.tierLast := rfl
@[simp] theorem setByte_keeps_mgmt : (s.setByte a b).mgmt = s.mgmt := rfl
@[simp] theorem setByte_keeps_ports : (s.setByte a b).ports = s.ports := rfl
@[simp] theorem setByte_keeps_tags : (s.setByte a b).tags = s.tags := rfl
@[simp] theorem setByte_keeps_localQ : (s.setByte a b).localQ = s.localQ := rfl
@[simp] theorem setByte_keeps_ordHold : (s.setByte a b).ordHold = s.ordHold := rfl
@[simp] theorem setByte_keeps_ordHeld : (s.setByte a b).ordHeld = s.ordHeld := rfl
@[simp] theorem setByte_keeps_rte : (s.setByte a b).rte = s.rte := rfl
@[simp] theorem setByte_keeps_linkGen : (s.setByte a b).linkGen = s.linkGen := rfl
@[simp] theorem setByte_keeps_odrainEnd : (s.setByte a b).odrainEnd = s.odrainEnd := rfl
@[simp] theorem setByte_keeps_present : (s.setByte a b).present = s.present := rfl
@[simp] theorem setByte_keeps_wir : (s.setByte a b).wir = s.wir := rfl
@[simp] theorem setByte_keeps_heldWrites : (s.setByte a b).heldWrites = s.heldWrites := rfl
@[simp] theorem setByte_keeps_domMove : (s.setByte a b).domMove = s.domMove := rfl
@[simp] theorem setByte_keeps_domSaved : (s.setByte a b).domSaved = s.domSaved := rfl
@[simp] theorem setByte_keeps_domLost : (s.setByte a b).domLost = s.domLost := rfl
@[simp] theorem setByte_keeps_govSteps : (s.setByte a b).govSteps = s.govSteps := rfl
@[simp] theorem setByte_keeps_govLow : (s.setByte a b).govLow = s.govLow := rfl
@[simp] theorem setByte_keeps_vreq : (s.setByte a b).vreq = s.vreq := rfl
@[simp] theorem setByte_keeps_droop : (s.setByte a b).droop = s.droop := rfl
@[simp] theorem setByte_keeps_doorbells : (s.setByte a b).doorbells = s.doorbells := rfl
@[simp] theorem setByte_keeps_dbDrop : (s.setByte a b).dbDrop = s.dbDrop := rfl
@[simp] theorem setByte_keeps_armed : (s.setByte a b).armed = s.armed := rfl
@[simp] theorem setByte_keeps_tested : (s.setByte a b).tested = s.tested := rfl
@[simp] theorem setByte_keeps_admits : (s.setByte a b).admits = s.admits := rfl
@[simp] theorem setByte_keeps_svc : (s.setByte a b).svc = s.svc := rfl
@[simp] theorem setByte_keeps_calTrain : (s.setByte a b).calTrain = s.calTrain := rfl
@[simp] theorem setByte_keeps_calLink : (s.setByte a b).calLink = s.calLink := rfl
@[simp] theorem setByte_keeps_nodeRec : (s.setByte a b).nodeRec = s.nodeRec := rfl
@[simp] theorem setByte_keeps_txb : (s.setByte a b).txb = s.txb := rfl
@[simp] theorem setByte_keeps_calAt : (s.setByte a b).calAt = s.calAt := rfl
@[simp] theorem setByte_keeps_cxlUp : (s.setByte a b).cxlUp = s.cxlUp := rfl
@[simp] theorem setByte_keeps_dbgRingSel : (s.setByte a b).dbgRingSel = s.dbgRingSel := rfl
@[simp] theorem setByte_keeps_dbgCntSel : (s.setByte a b).dbgCntSel = s.dbgCntSel := rfl
@[simp] theorem setByte_keeps_dbgRsps : (s.setByte a b).dbgRsps = s.dbgRsps := rfl
@[simp] theorem setByte_keeps_free : (s.setByte a b).free = s.free := rfl
@[simp] theorem setByte_keeps_pending : (s.setByte a b).pending = s.pending := rfl
end setByte

section setPoison
variable (s : State) (a : Nat) (e : W32)
@[simp] theorem setPoison_keeps_quires : (s.setPoison a e).quires = s.quires := rfl
@[simp] theorem setPoison_keeps_mem : (s.setPoison a e).mem = s.mem := rfl
@[simp] theorem setPoison_keeps_win : (s.setPoison a e).win = s.win := rfl
@[simp] theorem setPoison_keeps_gtime : (s.setPoison a e).gtime = s.gtime := rfl
@[simp] theorem setPoison_keeps_atomics : (s.setPoison a e).atomics = s.atomics := rfl
@[simp] theorem setPoison_keeps_xlat : (s.setPoison a e).xlat = s.xlat := rfl
@[simp] theorem setPoison_keeps_ctxCache : (s.setPoison a e).ctxCache = s.ctxCache := rfl
@[simp] theorem setPoison_keeps_errBanks : (s.setPoison a e).errBanks = s.errBanks := rfl
@[simp] theorem setPoison_keeps_rings : (s.setPoison a e).rings = s.rings := rfl
@[simp] theorem setPoison_keeps_counters : (s.setPoison a e).counters = s.counters := rfl
@[simp] theorem setPoison_keeps_engines : (s.setPoison a e).engines = s.engines := rfl
@[simp] theorem setPoison_keeps_frames : (s.setPoison a e).frames = s.frames := rfl
@[simp] theorem setPoison_keeps_streams : (s.setPoison a e).streams = s.streams := rfl
@[simp] theorem setPoison_keeps_streamOrder : (s.setPoison a e).streamOrder = s.streamOrder := rfl
@[simp] theorem setPoison_keeps_lastOwner : (s.setPoison a e).lastOwner = s.lastOwner := rfl
@[simp] theorem setPoison_keeps_xfqHeld : (s.setPoison a e).xfqHeld = s.xfqHeld := rfl
@[simp] theorem setPoison_keeps_xlatInv : (s.setPoison a e).xlatInv = s.xlatInv := rfl
@[simp] theorem setPoison_keeps_queues : (s.setPoison a e).queues = s.queues := rfl
@[simp] theorem setPoison_keeps_bound : (s.setPoison a e).bound = s.bound := rfl
@[simp] theorem setPoison_keeps_hostOut : (s.setPoison a e).hostOut = s.hostOut := rfl
@[simp] theorem setPoison_keeps_hostHeld : (s.setPoison a e).hostHeld = s.hostHeld := rfl
@[simp] theorem setPoison_keeps_ceTimes : (s.setPoison a e).ceTimes = s.ceTimes := rfl
@[simp] theorem setPoison_keeps_notices : (s.setPoison a e).notices = s.notices := rfl
@[simp] theorem setPoison_keeps_msiCache : (s.setPoison a e).msiCache = s.msiCache := rfl
@[simp] theorem setPoison_keeps_evPhase : (s.setPoison a e).evPhase = s.evPhase := rfl
@[simp] theorem setPoison_keeps_hostReqs : (s.setPoison a e).hostReqs = s.hostReqs := rfl
@[simp] theorem setPoison_keeps_hostRsps : (s.setPoison a e).hostRsps = s.hostRsps := rfl
@[simp] theorem setPoison_keeps_folioFailed : (s.setPoison a e).folioFailed = s.folioFailed := rfl
@[simp] theorem setPoison_keeps_txbFailed : (s.setPoison a e).txbFailed = s.txbFailed := rfl
@[simp] theorem setPoison_keeps_folioMap : (s.setPoison a e).folioMap = s.folioMap := rfl
@[simp] theorem setPoison_keeps_txbMap : (s.setPoison a e).txbMap = s.txbMap := rfl
@[simp] theorem setPoison_keeps_tipin : (s.setPoison a e).tipin = s.tipin := rfl
@[simp] theorem setPoison_keeps_straps : (s.setPoison a e).straps = s.straps := rfl
@[simp] theorem setPoison_keeps_portFailed : (s.setPoison a e).portFailed = s.portFailed := rfl
@[simp] theorem setPoison_keeps_tierLast : (s.setPoison a e).tierLast = s.tierLast := rfl
@[simp] theorem setPoison_keeps_mgmt : (s.setPoison a e).mgmt = s.mgmt := rfl
@[simp] theorem setPoison_keeps_ports : (s.setPoison a e).ports = s.ports := rfl
@[simp] theorem setPoison_keeps_tags : (s.setPoison a e).tags = s.tags := rfl
@[simp] theorem setPoison_keeps_localQ : (s.setPoison a e).localQ = s.localQ := rfl
@[simp] theorem setPoison_keeps_ordHold : (s.setPoison a e).ordHold = s.ordHold := rfl
@[simp] theorem setPoison_keeps_ordHeld : (s.setPoison a e).ordHeld = s.ordHeld := rfl
@[simp] theorem setPoison_keeps_rte : (s.setPoison a e).rte = s.rte := rfl
@[simp] theorem setPoison_keeps_linkGen : (s.setPoison a e).linkGen = s.linkGen := rfl
@[simp] theorem setPoison_keeps_odrainEnd : (s.setPoison a e).odrainEnd = s.odrainEnd := rfl
@[simp] theorem setPoison_keeps_present : (s.setPoison a e).present = s.present := rfl
@[simp] theorem setPoison_keeps_wir : (s.setPoison a e).wir = s.wir := rfl
@[simp] theorem setPoison_keeps_heldWrites : (s.setPoison a e).heldWrites = s.heldWrites := rfl
@[simp] theorem setPoison_keeps_domMove : (s.setPoison a e).domMove = s.domMove := rfl
@[simp] theorem setPoison_keeps_domSaved : (s.setPoison a e).domSaved = s.domSaved := rfl
@[simp] theorem setPoison_keeps_domLost : (s.setPoison a e).domLost = s.domLost := rfl
@[simp] theorem setPoison_keeps_govSteps : (s.setPoison a e).govSteps = s.govSteps := rfl
@[simp] theorem setPoison_keeps_govLow : (s.setPoison a e).govLow = s.govLow := rfl
@[simp] theorem setPoison_keeps_vreq : (s.setPoison a e).vreq = s.vreq := rfl
@[simp] theorem setPoison_keeps_droop : (s.setPoison a e).droop = s.droop := rfl
@[simp] theorem setPoison_keeps_doorbells : (s.setPoison a e).doorbells = s.doorbells := rfl
@[simp] theorem setPoison_keeps_dbDrop : (s.setPoison a e).dbDrop = s.dbDrop := rfl
@[simp] theorem setPoison_keeps_armed : (s.setPoison a e).armed = s.armed := rfl
@[simp] theorem setPoison_keeps_tested : (s.setPoison a e).tested = s.tested := rfl
@[simp] theorem setPoison_keeps_admits : (s.setPoison a e).admits = s.admits := rfl
@[simp] theorem setPoison_keeps_svc : (s.setPoison a e).svc = s.svc := rfl
@[simp] theorem setPoison_keeps_calTrain : (s.setPoison a e).calTrain = s.calTrain := rfl
@[simp] theorem setPoison_keeps_calLink : (s.setPoison a e).calLink = s.calLink := rfl
@[simp] theorem setPoison_keeps_nodeRec : (s.setPoison a e).nodeRec = s.nodeRec := rfl
@[simp] theorem setPoison_keeps_txb : (s.setPoison a e).txb = s.txb := rfl
@[simp] theorem setPoison_keeps_calAt : (s.setPoison a e).calAt = s.calAt := rfl
@[simp] theorem setPoison_keeps_cxlUp : (s.setPoison a e).cxlUp = s.cxlUp := rfl
@[simp] theorem setPoison_keeps_dbgRingSel : (s.setPoison a e).dbgRingSel = s.dbgRingSel := rfl
@[simp] theorem setPoison_keeps_dbgCntSel : (s.setPoison a e).dbgCntSel = s.dbgCntSel := rfl
@[simp] theorem setPoison_keeps_dbgRsps : (s.setPoison a e).dbgRsps = s.dbgRsps := rfl
@[simp] theorem setPoison_keeps_free : (s.setPoison a e).free = s.free := rfl
@[simp] theorem setPoison_keeps_pending : (s.setPoison a e).pending = s.pending := rfl
end setPoison

section clearPoison
variable (s : State) (a : Nat)
@[simp] theorem clearPoison_keeps_quires : (s.clearPoison a).quires = s.quires := rfl
@[simp] theorem clearPoison_keeps_mem : (s.clearPoison a).mem = s.mem := rfl
@[simp] theorem clearPoison_keeps_win : (s.clearPoison a).win = s.win := rfl
@[simp] theorem clearPoison_keeps_gtime : (s.clearPoison a).gtime = s.gtime := rfl
@[simp] theorem clearPoison_keeps_atomics : (s.clearPoison a).atomics = s.atomics := rfl
@[simp] theorem clearPoison_keeps_xlat : (s.clearPoison a).xlat = s.xlat := rfl
@[simp] theorem clearPoison_keeps_ctxCache : (s.clearPoison a).ctxCache = s.ctxCache := rfl
@[simp] theorem clearPoison_keeps_errBanks : (s.clearPoison a).errBanks = s.errBanks := rfl
@[simp] theorem clearPoison_keeps_rings : (s.clearPoison a).rings = s.rings := rfl
@[simp] theorem clearPoison_keeps_counters : (s.clearPoison a).counters = s.counters := rfl
@[simp] theorem clearPoison_keeps_engines : (s.clearPoison a).engines = s.engines := rfl
@[simp] theorem clearPoison_keeps_frames : (s.clearPoison a).frames = s.frames := rfl
@[simp] theorem clearPoison_keeps_streams : (s.clearPoison a).streams = s.streams := rfl
@[simp] theorem clearPoison_keeps_streamOrder : (s.clearPoison a).streamOrder = s.streamOrder := rfl
@[simp] theorem clearPoison_keeps_lastOwner : (s.clearPoison a).lastOwner = s.lastOwner := rfl
@[simp] theorem clearPoison_keeps_xfqHeld : (s.clearPoison a).xfqHeld = s.xfqHeld := rfl
@[simp] theorem clearPoison_keeps_xlatInv : (s.clearPoison a).xlatInv = s.xlatInv := rfl
@[simp] theorem clearPoison_keeps_queues : (s.clearPoison a).queues = s.queues := rfl
@[simp] theorem clearPoison_keeps_bound : (s.clearPoison a).bound = s.bound := rfl
@[simp] theorem clearPoison_keeps_hostOut : (s.clearPoison a).hostOut = s.hostOut := rfl
@[simp] theorem clearPoison_keeps_hostHeld : (s.clearPoison a).hostHeld = s.hostHeld := rfl
@[simp] theorem clearPoison_keeps_ceTimes : (s.clearPoison a).ceTimes = s.ceTimes := rfl
@[simp] theorem clearPoison_keeps_notices : (s.clearPoison a).notices = s.notices := rfl
@[simp] theorem clearPoison_keeps_msiCache : (s.clearPoison a).msiCache = s.msiCache := rfl
@[simp] theorem clearPoison_keeps_evPhase : (s.clearPoison a).evPhase = s.evPhase := rfl
@[simp] theorem clearPoison_keeps_hostReqs : (s.clearPoison a).hostReqs = s.hostReqs := rfl
@[simp] theorem clearPoison_keeps_hostRsps : (s.clearPoison a).hostRsps = s.hostRsps := rfl
@[simp] theorem clearPoison_keeps_folioFailed : (s.clearPoison a).folioFailed = s.folioFailed := rfl
@[simp] theorem clearPoison_keeps_txbFailed : (s.clearPoison a).txbFailed = s.txbFailed := rfl
@[simp] theorem clearPoison_keeps_folioMap : (s.clearPoison a).folioMap = s.folioMap := rfl
@[simp] theorem clearPoison_keeps_txbMap : (s.clearPoison a).txbMap = s.txbMap := rfl
@[simp] theorem clearPoison_keeps_tipin : (s.clearPoison a).tipin = s.tipin := rfl
@[simp] theorem clearPoison_keeps_straps : (s.clearPoison a).straps = s.straps := rfl
@[simp] theorem clearPoison_keeps_portFailed : (s.clearPoison a).portFailed = s.portFailed := rfl
@[simp] theorem clearPoison_keeps_tierLast : (s.clearPoison a).tierLast = s.tierLast := rfl
@[simp] theorem clearPoison_keeps_mgmt : (s.clearPoison a).mgmt = s.mgmt := rfl
@[simp] theorem clearPoison_keeps_ports : (s.clearPoison a).ports = s.ports := rfl
@[simp] theorem clearPoison_keeps_tags : (s.clearPoison a).tags = s.tags := rfl
@[simp] theorem clearPoison_keeps_localQ : (s.clearPoison a).localQ = s.localQ := rfl
@[simp] theorem clearPoison_keeps_ordHold : (s.clearPoison a).ordHold = s.ordHold := rfl
@[simp] theorem clearPoison_keeps_ordHeld : (s.clearPoison a).ordHeld = s.ordHeld := rfl
@[simp] theorem clearPoison_keeps_rte : (s.clearPoison a).rte = s.rte := rfl
@[simp] theorem clearPoison_keeps_linkGen : (s.clearPoison a).linkGen = s.linkGen := rfl
@[simp] theorem clearPoison_keeps_odrainEnd : (s.clearPoison a).odrainEnd = s.odrainEnd := rfl
@[simp] theorem clearPoison_keeps_present : (s.clearPoison a).present = s.present := rfl
@[simp] theorem clearPoison_keeps_wir : (s.clearPoison a).wir = s.wir := rfl
@[simp] theorem clearPoison_keeps_heldWrites : (s.clearPoison a).heldWrites = s.heldWrites := rfl
@[simp] theorem clearPoison_keeps_domMove : (s.clearPoison a).domMove = s.domMove := rfl
@[simp] theorem clearPoison_keeps_domSaved : (s.clearPoison a).domSaved = s.domSaved := rfl
@[simp] theorem clearPoison_keeps_domLost : (s.clearPoison a).domLost = s.domLost := rfl
@[simp] theorem clearPoison_keeps_govSteps : (s.clearPoison a).govSteps = s.govSteps := rfl
@[simp] theorem clearPoison_keeps_govLow : (s.clearPoison a).govLow = s.govLow := rfl
@[simp] theorem clearPoison_keeps_vreq : (s.clearPoison a).vreq = s.vreq := rfl
@[simp] theorem clearPoison_keeps_droop : (s.clearPoison a).droop = s.droop := rfl
@[simp] theorem clearPoison_keeps_doorbells : (s.clearPoison a).doorbells = s.doorbells := rfl
@[simp] theorem clearPoison_keeps_dbDrop : (s.clearPoison a).dbDrop = s.dbDrop := rfl
@[simp] theorem clearPoison_keeps_armed : (s.clearPoison a).armed = s.armed := rfl
@[simp] theorem clearPoison_keeps_tested : (s.clearPoison a).tested = s.tested := rfl
@[simp] theorem clearPoison_keeps_admits : (s.clearPoison a).admits = s.admits := rfl
@[simp] theorem clearPoison_keeps_svc : (s.clearPoison a).svc = s.svc := rfl
@[simp] theorem clearPoison_keeps_calTrain : (s.clearPoison a).calTrain = s.calTrain := rfl
@[simp] theorem clearPoison_keeps_calLink : (s.clearPoison a).calLink = s.calLink := rfl
@[simp] theorem clearPoison_keeps_nodeRec : (s.clearPoison a).nodeRec = s.nodeRec := rfl
@[simp] theorem clearPoison_keeps_txb : (s.clearPoison a).txb = s.txb := rfl
@[simp] theorem clearPoison_keeps_calAt : (s.clearPoison a).calAt = s.calAt := rfl
@[simp] theorem clearPoison_keeps_cxlUp : (s.clearPoison a).cxlUp = s.cxlUp := rfl
@[simp] theorem clearPoison_keeps_dbgRingSel : (s.clearPoison a).dbgRingSel = s.dbgRingSel := rfl
@[simp] theorem clearPoison_keeps_dbgCntSel : (s.clearPoison a).dbgCntSel = s.dbgCntSel := rfl
@[simp] theorem clearPoison_keeps_dbgRsps : (s.clearPoison a).dbgRsps = s.dbgRsps := rfl
@[simp] theorem clearPoison_keeps_free : (s.clearPoison a).free = s.free := rfl
@[simp] theorem clearPoison_keeps_pending : (s.clearPoison a).pending = s.pending := rfl
end clearPoison

section setRing
variable (s : State) (u : Nat) (r : Ring)
@[simp] theorem setRing_keeps_quires : (s.setRing u r).quires = s.quires := rfl
@[simp] theorem setRing_keeps_mem : (s.setRing u r).mem = s.mem := rfl
@[simp] theorem setRing_keeps_poison : (s.setRing u r).poison = s.poison := rfl
@[simp] theorem setRing_keeps_win : (s.setRing u r).win = s.win := rfl
@[simp] theorem setRing_keeps_gtime : (s.setRing u r).gtime = s.gtime := rfl
@[simp] theorem setRing_keeps_atomics : (s.setRing u r).atomics = s.atomics := rfl
@[simp] theorem setRing_keeps_xlat : (s.setRing u r).xlat = s.xlat := rfl
@[simp] theorem setRing_keeps_ctxCache : (s.setRing u r).ctxCache = s.ctxCache := rfl
@[simp] theorem setRing_keeps_errBanks : (s.setRing u r).errBanks = s.errBanks := rfl
@[simp] theorem setRing_keeps_counters : (s.setRing u r).counters = s.counters := rfl
@[simp] theorem setRing_keeps_engines : (s.setRing u r).engines = s.engines := rfl
@[simp] theorem setRing_keeps_frames : (s.setRing u r).frames = s.frames := rfl
@[simp] theorem setRing_keeps_streams : (s.setRing u r).streams = s.streams := rfl
@[simp] theorem setRing_keeps_streamOrder : (s.setRing u r).streamOrder = s.streamOrder := rfl
@[simp] theorem setRing_keeps_lastOwner : (s.setRing u r).lastOwner = s.lastOwner := rfl
@[simp] theorem setRing_keeps_xfqHeld : (s.setRing u r).xfqHeld = s.xfqHeld := rfl
@[simp] theorem setRing_keeps_xlatInv : (s.setRing u r).xlatInv = s.xlatInv := rfl
@[simp] theorem setRing_keeps_queues : (s.setRing u r).queues = s.queues := rfl
@[simp] theorem setRing_keeps_bound : (s.setRing u r).bound = s.bound := rfl
@[simp] theorem setRing_keeps_hostOut : (s.setRing u r).hostOut = s.hostOut := rfl
@[simp] theorem setRing_keeps_hostHeld : (s.setRing u r).hostHeld = s.hostHeld := rfl
@[simp] theorem setRing_keeps_ceTimes : (s.setRing u r).ceTimes = s.ceTimes := rfl
@[simp] theorem setRing_keeps_notices : (s.setRing u r).notices = s.notices := rfl
@[simp] theorem setRing_keeps_msiCache : (s.setRing u r).msiCache = s.msiCache := rfl
@[simp] theorem setRing_keeps_evPhase : (s.setRing u r).evPhase = s.evPhase := rfl
@[simp] theorem setRing_keeps_hostReqs : (s.setRing u r).hostReqs = s.hostReqs := rfl
@[simp] theorem setRing_keeps_hostRsps : (s.setRing u r).hostRsps = s.hostRsps := rfl
@[simp] theorem setRing_keeps_folioFailed : (s.setRing u r).folioFailed = s.folioFailed := rfl
@[simp] theorem setRing_keeps_txbFailed : (s.setRing u r).txbFailed = s.txbFailed := rfl
@[simp] theorem setRing_keeps_folioMap : (s.setRing u r).folioMap = s.folioMap := rfl
@[simp] theorem setRing_keeps_txbMap : (s.setRing u r).txbMap = s.txbMap := rfl
@[simp] theorem setRing_keeps_tipin : (s.setRing u r).tipin = s.tipin := rfl
@[simp] theorem setRing_keeps_straps : (s.setRing u r).straps = s.straps := rfl
@[simp] theorem setRing_keeps_portFailed : (s.setRing u r).portFailed = s.portFailed := rfl
@[simp] theorem setRing_keeps_tierLast : (s.setRing u r).tierLast = s.tierLast := rfl
@[simp] theorem setRing_keeps_mgmt : (s.setRing u r).mgmt = s.mgmt := rfl
@[simp] theorem setRing_keeps_ports : (s.setRing u r).ports = s.ports := rfl
@[simp] theorem setRing_keeps_tags : (s.setRing u r).tags = s.tags := rfl
@[simp] theorem setRing_keeps_localQ : (s.setRing u r).localQ = s.localQ := rfl
@[simp] theorem setRing_keeps_ordHold : (s.setRing u r).ordHold = s.ordHold := rfl
@[simp] theorem setRing_keeps_ordHeld : (s.setRing u r).ordHeld = s.ordHeld := rfl
@[simp] theorem setRing_keeps_rte : (s.setRing u r).rte = s.rte := rfl
@[simp] theorem setRing_keeps_linkGen : (s.setRing u r).linkGen = s.linkGen := rfl
@[simp] theorem setRing_keeps_odrainEnd : (s.setRing u r).odrainEnd = s.odrainEnd := rfl
@[simp] theorem setRing_keeps_present : (s.setRing u r).present = s.present := rfl
@[simp] theorem setRing_keeps_wir : (s.setRing u r).wir = s.wir := rfl
@[simp] theorem setRing_keeps_heldWrites : (s.setRing u r).heldWrites = s.heldWrites := rfl
@[simp] theorem setRing_keeps_domMove : (s.setRing u r).domMove = s.domMove := rfl
@[simp] theorem setRing_keeps_domSaved : (s.setRing u r).domSaved = s.domSaved := rfl
@[simp] theorem setRing_keeps_domLost : (s.setRing u r).domLost = s.domLost := rfl
@[simp] theorem setRing_keeps_govSteps : (s.setRing u r).govSteps = s.govSteps := rfl
@[simp] theorem setRing_keeps_govLow : (s.setRing u r).govLow = s.govLow := rfl
@[simp] theorem setRing_keeps_vreq : (s.setRing u r).vreq = s.vreq := rfl
@[simp] theorem setRing_keeps_droop : (s.setRing u r).droop = s.droop := rfl
@[simp] theorem setRing_keeps_doorbells : (s.setRing u r).doorbells = s.doorbells := rfl
@[simp] theorem setRing_keeps_dbDrop : (s.setRing u r).dbDrop = s.dbDrop := rfl
@[simp] theorem setRing_keeps_armed : (s.setRing u r).armed = s.armed := rfl
@[simp] theorem setRing_keeps_tested : (s.setRing u r).tested = s.tested := rfl
@[simp] theorem setRing_keeps_admits : (s.setRing u r).admits = s.admits := rfl
@[simp] theorem setRing_keeps_svc : (s.setRing u r).svc = s.svc := rfl
@[simp] theorem setRing_keeps_calTrain : (s.setRing u r).calTrain = s.calTrain := rfl
@[simp] theorem setRing_keeps_calLink : (s.setRing u r).calLink = s.calLink := rfl
@[simp] theorem setRing_keeps_nodeRec : (s.setRing u r).nodeRec = s.nodeRec := rfl
@[simp] theorem setRing_keeps_txb : (s.setRing u r).txb = s.txb := rfl
@[simp] theorem setRing_keeps_calAt : (s.setRing u r).calAt = s.calAt := rfl
@[simp] theorem setRing_keeps_cxlUp : (s.setRing u r).cxlUp = s.cxlUp := rfl
@[simp] theorem setRing_keeps_dbgRingSel : (s.setRing u r).dbgRingSel = s.dbgRingSel := rfl
@[simp] theorem setRing_keeps_dbgCntSel : (s.setRing u r).dbgCntSel = s.dbgCntSel := rfl
@[simp] theorem setRing_keeps_dbgRsps : (s.setRing u r).dbgRsps = s.dbgRsps := rfl
@[simp] theorem setRing_keeps_free : (s.setRing u r).free = s.free := rfl
@[simp] theorem setRing_keeps_pending : (s.setRing u r).pending = s.pending := rfl
end setRing

section setCnt
variable (s : State) (u : Nat) (c : Counters)
@[simp] theorem setCnt_keeps_quires : (s.setCnt u c).quires = s.quires := rfl
@[simp] theorem setCnt_keeps_mem : (s.setCnt u c).mem = s.mem := rfl
@[simp] theorem setCnt_keeps_poison : (s.setCnt u c).poison = s.poison := rfl
@[simp] theorem setCnt_keeps_win : (s.setCnt u c).win = s.win := rfl
@[simp] theorem setCnt_keeps_gtime : (s.setCnt u c).gtime = s.gtime := rfl
@[simp] theorem setCnt_keeps_atomics : (s.setCnt u c).atomics = s.atomics := rfl
@[simp] theorem setCnt_keeps_xlat : (s.setCnt u c).xlat = s.xlat := rfl
@[simp] theorem setCnt_keeps_ctxCache : (s.setCnt u c).ctxCache = s.ctxCache := rfl
@[simp] theorem setCnt_keeps_errBanks : (s.setCnt u c).errBanks = s.errBanks := rfl
@[simp] theorem setCnt_keeps_rings : (s.setCnt u c).rings = s.rings := rfl
@[simp] theorem setCnt_keeps_engines : (s.setCnt u c).engines = s.engines := rfl
@[simp] theorem setCnt_keeps_frames : (s.setCnt u c).frames = s.frames := rfl
@[simp] theorem setCnt_keeps_streams : (s.setCnt u c).streams = s.streams := rfl
@[simp] theorem setCnt_keeps_streamOrder : (s.setCnt u c).streamOrder = s.streamOrder := rfl
@[simp] theorem setCnt_keeps_lastOwner : (s.setCnt u c).lastOwner = s.lastOwner := rfl
@[simp] theorem setCnt_keeps_xfqHeld : (s.setCnt u c).xfqHeld = s.xfqHeld := rfl
@[simp] theorem setCnt_keeps_xlatInv : (s.setCnt u c).xlatInv = s.xlatInv := rfl
@[simp] theorem setCnt_keeps_queues : (s.setCnt u c).queues = s.queues := rfl
@[simp] theorem setCnt_keeps_bound : (s.setCnt u c).bound = s.bound := rfl
@[simp] theorem setCnt_keeps_hostOut : (s.setCnt u c).hostOut = s.hostOut := rfl
@[simp] theorem setCnt_keeps_hostHeld : (s.setCnt u c).hostHeld = s.hostHeld := rfl
@[simp] theorem setCnt_keeps_ceTimes : (s.setCnt u c).ceTimes = s.ceTimes := rfl
@[simp] theorem setCnt_keeps_notices : (s.setCnt u c).notices = s.notices := rfl
@[simp] theorem setCnt_keeps_msiCache : (s.setCnt u c).msiCache = s.msiCache := rfl
@[simp] theorem setCnt_keeps_evPhase : (s.setCnt u c).evPhase = s.evPhase := rfl
@[simp] theorem setCnt_keeps_hostReqs : (s.setCnt u c).hostReqs = s.hostReqs := rfl
@[simp] theorem setCnt_keeps_hostRsps : (s.setCnt u c).hostRsps = s.hostRsps := rfl
@[simp] theorem setCnt_keeps_folioFailed : (s.setCnt u c).folioFailed = s.folioFailed := rfl
@[simp] theorem setCnt_keeps_txbFailed : (s.setCnt u c).txbFailed = s.txbFailed := rfl
@[simp] theorem setCnt_keeps_folioMap : (s.setCnt u c).folioMap = s.folioMap := rfl
@[simp] theorem setCnt_keeps_txbMap : (s.setCnt u c).txbMap = s.txbMap := rfl
@[simp] theorem setCnt_keeps_tipin : (s.setCnt u c).tipin = s.tipin := rfl
@[simp] theorem setCnt_keeps_straps : (s.setCnt u c).straps = s.straps := rfl
@[simp] theorem setCnt_keeps_portFailed : (s.setCnt u c).portFailed = s.portFailed := rfl
@[simp] theorem setCnt_keeps_tierLast : (s.setCnt u c).tierLast = s.tierLast := rfl
@[simp] theorem setCnt_keeps_mgmt : (s.setCnt u c).mgmt = s.mgmt := rfl
@[simp] theorem setCnt_keeps_ports : (s.setCnt u c).ports = s.ports := rfl
@[simp] theorem setCnt_keeps_tags : (s.setCnt u c).tags = s.tags := rfl
@[simp] theorem setCnt_keeps_localQ : (s.setCnt u c).localQ = s.localQ := rfl
@[simp] theorem setCnt_keeps_ordHold : (s.setCnt u c).ordHold = s.ordHold := rfl
@[simp] theorem setCnt_keeps_ordHeld : (s.setCnt u c).ordHeld = s.ordHeld := rfl
@[simp] theorem setCnt_keeps_rte : (s.setCnt u c).rte = s.rte := rfl
@[simp] theorem setCnt_keeps_linkGen : (s.setCnt u c).linkGen = s.linkGen := rfl
@[simp] theorem setCnt_keeps_odrainEnd : (s.setCnt u c).odrainEnd = s.odrainEnd := rfl
@[simp] theorem setCnt_keeps_present : (s.setCnt u c).present = s.present := rfl
@[simp] theorem setCnt_keeps_wir : (s.setCnt u c).wir = s.wir := rfl
@[simp] theorem setCnt_keeps_heldWrites : (s.setCnt u c).heldWrites = s.heldWrites := rfl
@[simp] theorem setCnt_keeps_domMove : (s.setCnt u c).domMove = s.domMove := rfl
@[simp] theorem setCnt_keeps_domSaved : (s.setCnt u c).domSaved = s.domSaved := rfl
@[simp] theorem setCnt_keeps_domLost : (s.setCnt u c).domLost = s.domLost := rfl
@[simp] theorem setCnt_keeps_govSteps : (s.setCnt u c).govSteps = s.govSteps := rfl
@[simp] theorem setCnt_keeps_govLow : (s.setCnt u c).govLow = s.govLow := rfl
@[simp] theorem setCnt_keeps_vreq : (s.setCnt u c).vreq = s.vreq := rfl
@[simp] theorem setCnt_keeps_droop : (s.setCnt u c).droop = s.droop := rfl
@[simp] theorem setCnt_keeps_doorbells : (s.setCnt u c).doorbells = s.doorbells := rfl
@[simp] theorem setCnt_keeps_dbDrop : (s.setCnt u c).dbDrop = s.dbDrop := rfl
@[simp] theorem setCnt_keeps_armed : (s.setCnt u c).armed = s.armed := rfl
@[simp] theorem setCnt_keeps_tested : (s.setCnt u c).tested = s.tested := rfl
@[simp] theorem setCnt_keeps_admits : (s.setCnt u c).admits = s.admits := rfl
@[simp] theorem setCnt_keeps_svc : (s.setCnt u c).svc = s.svc := rfl
@[simp] theorem setCnt_keeps_calTrain : (s.setCnt u c).calTrain = s.calTrain := rfl
@[simp] theorem setCnt_keeps_calLink : (s.setCnt u c).calLink = s.calLink := rfl
@[simp] theorem setCnt_keeps_nodeRec : (s.setCnt u c).nodeRec = s.nodeRec := rfl
@[simp] theorem setCnt_keeps_txb : (s.setCnt u c).txb = s.txb := rfl
@[simp] theorem setCnt_keeps_calAt : (s.setCnt u c).calAt = s.calAt := rfl
@[simp] theorem setCnt_keeps_cxlUp : (s.setCnt u c).cxlUp = s.cxlUp := rfl
@[simp] theorem setCnt_keeps_dbgRingSel : (s.setCnt u c).dbgRingSel = s.dbgRingSel := rfl
@[simp] theorem setCnt_keeps_dbgCntSel : (s.setCnt u c).dbgCntSel = s.dbgCntSel := rfl
@[simp] theorem setCnt_keeps_dbgRsps : (s.setCnt u c).dbgRsps = s.dbgRsps := rfl
@[simp] theorem setCnt_keeps_free : (s.setCnt u c).free = s.free := rfl
@[simp] theorem setCnt_keeps_pending : (s.setCnt u c).pending = s.pending := rfl
end setCnt

section countEvent
variable (s : State) (u : Nat) (e : W16) (n : Nat)
@[simp] theorem countEvent_keeps_quires : (s.countEvent u e n).quires = s.quires := rfl
@[simp] theorem countEvent_keeps_mem : (s.countEvent u e n).mem = s.mem := rfl
@[simp] theorem countEvent_keeps_poison : (s.countEvent u e n).poison = s.poison := rfl
@[simp] theorem countEvent_keeps_win : (s.countEvent u e n).win = s.win := rfl
@[simp] theorem countEvent_keeps_gtime : (s.countEvent u e n).gtime = s.gtime := rfl
@[simp] theorem countEvent_keeps_atomics : (s.countEvent u e n).atomics = s.atomics := rfl
@[simp] theorem countEvent_keeps_xlat : (s.countEvent u e n).xlat = s.xlat := rfl
@[simp] theorem countEvent_keeps_ctxCache : (s.countEvent u e n).ctxCache = s.ctxCache := rfl
@[simp] theorem countEvent_keeps_errBanks : (s.countEvent u e n).errBanks = s.errBanks := rfl
@[simp] theorem countEvent_keeps_rings : (s.countEvent u e n).rings = s.rings := rfl
@[simp] theorem countEvent_keeps_engines : (s.countEvent u e n).engines = s.engines := rfl
@[simp] theorem countEvent_keeps_frames : (s.countEvent u e n).frames = s.frames := rfl
@[simp] theorem countEvent_keeps_streams : (s.countEvent u e n).streams = s.streams := rfl
@[simp] theorem countEvent_keeps_streamOrder : (s.countEvent u e n).streamOrder = s.streamOrder := rfl
@[simp] theorem countEvent_keeps_lastOwner : (s.countEvent u e n).lastOwner = s.lastOwner := rfl
@[simp] theorem countEvent_keeps_xfqHeld : (s.countEvent u e n).xfqHeld = s.xfqHeld := rfl
@[simp] theorem countEvent_keeps_xlatInv : (s.countEvent u e n).xlatInv = s.xlatInv := rfl
@[simp] theorem countEvent_keeps_queues : (s.countEvent u e n).queues = s.queues := rfl
@[simp] theorem countEvent_keeps_bound : (s.countEvent u e n).bound = s.bound := rfl
@[simp] theorem countEvent_keeps_hostOut : (s.countEvent u e n).hostOut = s.hostOut := rfl
@[simp] theorem countEvent_keeps_hostHeld : (s.countEvent u e n).hostHeld = s.hostHeld := rfl
@[simp] theorem countEvent_keeps_ceTimes : (s.countEvent u e n).ceTimes = s.ceTimes := rfl
@[simp] theorem countEvent_keeps_notices : (s.countEvent u e n).notices = s.notices := rfl
@[simp] theorem countEvent_keeps_msiCache : (s.countEvent u e n).msiCache = s.msiCache := rfl
@[simp] theorem countEvent_keeps_evPhase : (s.countEvent u e n).evPhase = s.evPhase := rfl
@[simp] theorem countEvent_keeps_hostReqs : (s.countEvent u e n).hostReqs = s.hostReqs := rfl
@[simp] theorem countEvent_keeps_hostRsps : (s.countEvent u e n).hostRsps = s.hostRsps := rfl
@[simp] theorem countEvent_keeps_folioFailed : (s.countEvent u e n).folioFailed = s.folioFailed := rfl
@[simp] theorem countEvent_keeps_txbFailed : (s.countEvent u e n).txbFailed = s.txbFailed := rfl
@[simp] theorem countEvent_keeps_folioMap : (s.countEvent u e n).folioMap = s.folioMap := rfl
@[simp] theorem countEvent_keeps_txbMap : (s.countEvent u e n).txbMap = s.txbMap := rfl
@[simp] theorem countEvent_keeps_tipin : (s.countEvent u e n).tipin = s.tipin := rfl
@[simp] theorem countEvent_keeps_straps : (s.countEvent u e n).straps = s.straps := rfl
@[simp] theorem countEvent_keeps_portFailed : (s.countEvent u e n).portFailed = s.portFailed := rfl
@[simp] theorem countEvent_keeps_tierLast : (s.countEvent u e n).tierLast = s.tierLast := rfl
@[simp] theorem countEvent_keeps_mgmt : (s.countEvent u e n).mgmt = s.mgmt := rfl
@[simp] theorem countEvent_keeps_ports : (s.countEvent u e n).ports = s.ports := rfl
@[simp] theorem countEvent_keeps_tags : (s.countEvent u e n).tags = s.tags := rfl
@[simp] theorem countEvent_keeps_localQ : (s.countEvent u e n).localQ = s.localQ := rfl
@[simp] theorem countEvent_keeps_ordHold : (s.countEvent u e n).ordHold = s.ordHold := rfl
@[simp] theorem countEvent_keeps_ordHeld : (s.countEvent u e n).ordHeld = s.ordHeld := rfl
@[simp] theorem countEvent_keeps_rte : (s.countEvent u e n).rte = s.rte := rfl
@[simp] theorem countEvent_keeps_linkGen : (s.countEvent u e n).linkGen = s.linkGen := rfl
@[simp] theorem countEvent_keeps_odrainEnd : (s.countEvent u e n).odrainEnd = s.odrainEnd := rfl
@[simp] theorem countEvent_keeps_present : (s.countEvent u e n).present = s.present := rfl
@[simp] theorem countEvent_keeps_wir : (s.countEvent u e n).wir = s.wir := rfl
@[simp] theorem countEvent_keeps_heldWrites : (s.countEvent u e n).heldWrites = s.heldWrites := rfl
@[simp] theorem countEvent_keeps_domMove : (s.countEvent u e n).domMove = s.domMove := rfl
@[simp] theorem countEvent_keeps_domSaved : (s.countEvent u e n).domSaved = s.domSaved := rfl
@[simp] theorem countEvent_keeps_domLost : (s.countEvent u e n).domLost = s.domLost := rfl
@[simp] theorem countEvent_keeps_govSteps : (s.countEvent u e n).govSteps = s.govSteps := rfl
@[simp] theorem countEvent_keeps_govLow : (s.countEvent u e n).govLow = s.govLow := rfl
@[simp] theorem countEvent_keeps_vreq : (s.countEvent u e n).vreq = s.vreq := rfl
@[simp] theorem countEvent_keeps_droop : (s.countEvent u e n).droop = s.droop := rfl
@[simp] theorem countEvent_keeps_doorbells : (s.countEvent u e n).doorbells = s.doorbells := rfl
@[simp] theorem countEvent_keeps_dbDrop : (s.countEvent u e n).dbDrop = s.dbDrop := rfl
@[simp] theorem countEvent_keeps_armed : (s.countEvent u e n).armed = s.armed := rfl
@[simp] theorem countEvent_keeps_tested : (s.countEvent u e n).tested = s.tested := rfl
@[simp] theorem countEvent_keeps_admits : (s.countEvent u e n).admits = s.admits := rfl
@[simp] theorem countEvent_keeps_svc : (s.countEvent u e n).svc = s.svc := rfl
@[simp] theorem countEvent_keeps_calTrain : (s.countEvent u e n).calTrain = s.calTrain := rfl
@[simp] theorem countEvent_keeps_calLink : (s.countEvent u e n).calLink = s.calLink := rfl
@[simp] theorem countEvent_keeps_nodeRec : (s.countEvent u e n).nodeRec = s.nodeRec := rfl
@[simp] theorem countEvent_keeps_txb : (s.countEvent u e n).txb = s.txb := rfl
@[simp] theorem countEvent_keeps_calAt : (s.countEvent u e n).calAt = s.calAt := rfl
@[simp] theorem countEvent_keeps_cxlUp : (s.countEvent u e n).cxlUp = s.cxlUp := rfl
@[simp] theorem countEvent_keeps_dbgRingSel : (s.countEvent u e n).dbgRingSel = s.dbgRingSel := rfl
@[simp] theorem countEvent_keeps_dbgCntSel : (s.countEvent u e n).dbgCntSel = s.dbgCntSel := rfl
@[simp] theorem countEvent_keeps_dbgRsps : (s.countEvent u e n).dbgRsps = s.dbgRsps := rfl
@[simp] theorem countEvent_keeps_free : (s.countEvent u e n).free = s.free := rfl
@[simp] theorem countEvent_keeps_pending : (s.countEvent u e n).pending = s.pending := rfl
end countEvent

section setQueue
variable (s : State) (n : CtxId) (x : Queue)
@[simp] theorem setQueue_keeps_quires : (s.setQueue n x).quires = s.quires := rfl
@[simp] theorem setQueue_keeps_mem : (s.setQueue n x).mem = s.mem := rfl
@[simp] theorem setQueue_keeps_poison : (s.setQueue n x).poison = s.poison := rfl
@[simp] theorem setQueue_keeps_win : (s.setQueue n x).win = s.win := rfl
@[simp] theorem setQueue_keeps_gtime : (s.setQueue n x).gtime = s.gtime := rfl
@[simp] theorem setQueue_keeps_atomics : (s.setQueue n x).atomics = s.atomics := rfl
@[simp] theorem setQueue_keeps_xlat : (s.setQueue n x).xlat = s.xlat := rfl
@[simp] theorem setQueue_keeps_ctxCache : (s.setQueue n x).ctxCache = s.ctxCache := rfl
@[simp] theorem setQueue_keeps_errBanks : (s.setQueue n x).errBanks = s.errBanks := rfl
@[simp] theorem setQueue_keeps_rings : (s.setQueue n x).rings = s.rings := rfl
@[simp] theorem setQueue_keeps_counters : (s.setQueue n x).counters = s.counters := rfl
@[simp] theorem setQueue_keeps_engines : (s.setQueue n x).engines = s.engines := rfl
@[simp] theorem setQueue_keeps_frames : (s.setQueue n x).frames = s.frames := rfl
@[simp] theorem setQueue_keeps_streams : (s.setQueue n x).streams = s.streams := rfl
@[simp] theorem setQueue_keeps_streamOrder : (s.setQueue n x).streamOrder = s.streamOrder := rfl
@[simp] theorem setQueue_keeps_lastOwner : (s.setQueue n x).lastOwner = s.lastOwner := rfl
@[simp] theorem setQueue_keeps_xfqHeld : (s.setQueue n x).xfqHeld = s.xfqHeld := rfl
@[simp] theorem setQueue_keeps_xlatInv : (s.setQueue n x).xlatInv = s.xlatInv := rfl
@[simp] theorem setQueue_keeps_bound : (s.setQueue n x).bound = s.bound := rfl
@[simp] theorem setQueue_keeps_hostOut : (s.setQueue n x).hostOut = s.hostOut := rfl
@[simp] theorem setQueue_keeps_hostHeld : (s.setQueue n x).hostHeld = s.hostHeld := rfl
@[simp] theorem setQueue_keeps_ceTimes : (s.setQueue n x).ceTimes = s.ceTimes := rfl
@[simp] theorem setQueue_keeps_notices : (s.setQueue n x).notices = s.notices := rfl
@[simp] theorem setQueue_keeps_msiCache : (s.setQueue n x).msiCache = s.msiCache := rfl
@[simp] theorem setQueue_keeps_evPhase : (s.setQueue n x).evPhase = s.evPhase := rfl
@[simp] theorem setQueue_keeps_hostReqs : (s.setQueue n x).hostReqs = s.hostReqs := rfl
@[simp] theorem setQueue_keeps_hostRsps : (s.setQueue n x).hostRsps = s.hostRsps := rfl
@[simp] theorem setQueue_keeps_folioFailed : (s.setQueue n x).folioFailed = s.folioFailed := rfl
@[simp] theorem setQueue_keeps_txbFailed : (s.setQueue n x).txbFailed = s.txbFailed := rfl
@[simp] theorem setQueue_keeps_folioMap : (s.setQueue n x).folioMap = s.folioMap := rfl
@[simp] theorem setQueue_keeps_txbMap : (s.setQueue n x).txbMap = s.txbMap := rfl
@[simp] theorem setQueue_keeps_tipin : (s.setQueue n x).tipin = s.tipin := rfl
@[simp] theorem setQueue_keeps_straps : (s.setQueue n x).straps = s.straps := rfl
@[simp] theorem setQueue_keeps_portFailed : (s.setQueue n x).portFailed = s.portFailed := rfl
@[simp] theorem setQueue_keeps_tierLast : (s.setQueue n x).tierLast = s.tierLast := rfl
@[simp] theorem setQueue_keeps_mgmt : (s.setQueue n x).mgmt = s.mgmt := rfl
@[simp] theorem setQueue_keeps_ports : (s.setQueue n x).ports = s.ports := rfl
@[simp] theorem setQueue_keeps_tags : (s.setQueue n x).tags = s.tags := rfl
@[simp] theorem setQueue_keeps_localQ : (s.setQueue n x).localQ = s.localQ := rfl
@[simp] theorem setQueue_keeps_ordHold : (s.setQueue n x).ordHold = s.ordHold := rfl
@[simp] theorem setQueue_keeps_ordHeld : (s.setQueue n x).ordHeld = s.ordHeld := rfl
@[simp] theorem setQueue_keeps_rte : (s.setQueue n x).rte = s.rte := rfl
@[simp] theorem setQueue_keeps_linkGen : (s.setQueue n x).linkGen = s.linkGen := rfl
@[simp] theorem setQueue_keeps_odrainEnd : (s.setQueue n x).odrainEnd = s.odrainEnd := rfl
@[simp] theorem setQueue_keeps_present : (s.setQueue n x).present = s.present := rfl
@[simp] theorem setQueue_keeps_wir : (s.setQueue n x).wir = s.wir := rfl
@[simp] theorem setQueue_keeps_heldWrites : (s.setQueue n x).heldWrites = s.heldWrites := rfl
@[simp] theorem setQueue_keeps_domMove : (s.setQueue n x).domMove = s.domMove := rfl
@[simp] theorem setQueue_keeps_domSaved : (s.setQueue n x).domSaved = s.domSaved := rfl
@[simp] theorem setQueue_keeps_domLost : (s.setQueue n x).domLost = s.domLost := rfl
@[simp] theorem setQueue_keeps_govSteps : (s.setQueue n x).govSteps = s.govSteps := rfl
@[simp] theorem setQueue_keeps_govLow : (s.setQueue n x).govLow = s.govLow := rfl
@[simp] theorem setQueue_keeps_vreq : (s.setQueue n x).vreq = s.vreq := rfl
@[simp] theorem setQueue_keeps_droop : (s.setQueue n x).droop = s.droop := rfl
@[simp] theorem setQueue_keeps_doorbells : (s.setQueue n x).doorbells = s.doorbells := rfl
@[simp] theorem setQueue_keeps_dbDrop : (s.setQueue n x).dbDrop = s.dbDrop := rfl
@[simp] theorem setQueue_keeps_armed : (s.setQueue n x).armed = s.armed := rfl
@[simp] theorem setQueue_keeps_tested : (s.setQueue n x).tested = s.tested := rfl
@[simp] theorem setQueue_keeps_admits : (s.setQueue n x).admits = s.admits := rfl
@[simp] theorem setQueue_keeps_svc : (s.setQueue n x).svc = s.svc := rfl
@[simp] theorem setQueue_keeps_calTrain : (s.setQueue n x).calTrain = s.calTrain := rfl
@[simp] theorem setQueue_keeps_calLink : (s.setQueue n x).calLink = s.calLink := rfl
@[simp] theorem setQueue_keeps_nodeRec : (s.setQueue n x).nodeRec = s.nodeRec := rfl
@[simp] theorem setQueue_keeps_txb : (s.setQueue n x).txb = s.txb := rfl
@[simp] theorem setQueue_keeps_calAt : (s.setQueue n x).calAt = s.calAt := rfl
@[simp] theorem setQueue_keeps_cxlUp : (s.setQueue n x).cxlUp = s.cxlUp := rfl
@[simp] theorem setQueue_keeps_dbgRingSel : (s.setQueue n x).dbgRingSel = s.dbgRingSel := rfl
@[simp] theorem setQueue_keeps_dbgCntSel : (s.setQueue n x).dbgCntSel = s.dbgCntSel := rfl
@[simp] theorem setQueue_keeps_dbgRsps : (s.setQueue n x).dbgRsps = s.dbgRsps := rfl
@[simp] theorem setQueue_keeps_free : (s.setQueue n x).free = s.free := rfl
@[simp] theorem setQueue_keeps_pending : (s.setQueue n x).pending = s.pending := rfl
end setQueue

section setStream
variable (s : State) (id : W16) (x : Stream)
@[simp] theorem setStream_keeps_quires : (s.setStream id x).quires = s.quires := rfl
@[simp] theorem setStream_keeps_mem : (s.setStream id x).mem = s.mem := rfl
@[simp] theorem setStream_keeps_poison : (s.setStream id x).poison = s.poison := rfl
@[simp] theorem setStream_keeps_win : (s.setStream id x).win = s.win := rfl
@[simp] theorem setStream_keeps_gtime : (s.setStream id x).gtime = s.gtime := rfl
@[simp] theorem setStream_keeps_atomics : (s.setStream id x).atomics = s.atomics := rfl
@[simp] theorem setStream_keeps_xlat : (s.setStream id x).xlat = s.xlat := rfl
@[simp] theorem setStream_keeps_ctxCache : (s.setStream id x).ctxCache = s.ctxCache := rfl
@[simp] theorem setStream_keeps_errBanks : (s.setStream id x).errBanks = s.errBanks := rfl
@[simp] theorem setStream_keeps_rings : (s.setStream id x).rings = s.rings := rfl
@[simp] theorem setStream_keeps_counters : (s.setStream id x).counters = s.counters := rfl
@[simp] theorem setStream_keeps_engines : (s.setStream id x).engines = s.engines := rfl
@[simp] theorem setStream_keeps_frames : (s.setStream id x).frames = s.frames := rfl
@[simp] theorem setStream_keeps_streamOrder : (s.setStream id x).streamOrder = s.streamOrder := rfl
@[simp] theorem setStream_keeps_lastOwner : (s.setStream id x).lastOwner = s.lastOwner := rfl
@[simp] theorem setStream_keeps_xfqHeld : (s.setStream id x).xfqHeld = s.xfqHeld := rfl
@[simp] theorem setStream_keeps_xlatInv : (s.setStream id x).xlatInv = s.xlatInv := rfl
@[simp] theorem setStream_keeps_queues : (s.setStream id x).queues = s.queues := rfl
@[simp] theorem setStream_keeps_bound : (s.setStream id x).bound = s.bound := rfl
@[simp] theorem setStream_keeps_hostOut : (s.setStream id x).hostOut = s.hostOut := rfl
@[simp] theorem setStream_keeps_hostHeld : (s.setStream id x).hostHeld = s.hostHeld := rfl
@[simp] theorem setStream_keeps_ceTimes : (s.setStream id x).ceTimes = s.ceTimes := rfl
@[simp] theorem setStream_keeps_notices : (s.setStream id x).notices = s.notices := rfl
@[simp] theorem setStream_keeps_msiCache : (s.setStream id x).msiCache = s.msiCache := rfl
@[simp] theorem setStream_keeps_evPhase : (s.setStream id x).evPhase = s.evPhase := rfl
@[simp] theorem setStream_keeps_hostReqs : (s.setStream id x).hostReqs = s.hostReqs := rfl
@[simp] theorem setStream_keeps_hostRsps : (s.setStream id x).hostRsps = s.hostRsps := rfl
@[simp] theorem setStream_keeps_folioFailed : (s.setStream id x).folioFailed = s.folioFailed := rfl
@[simp] theorem setStream_keeps_txbFailed : (s.setStream id x).txbFailed = s.txbFailed := rfl
@[simp] theorem setStream_keeps_folioMap : (s.setStream id x).folioMap = s.folioMap := rfl
@[simp] theorem setStream_keeps_txbMap : (s.setStream id x).txbMap = s.txbMap := rfl
@[simp] theorem setStream_keeps_tipin : (s.setStream id x).tipin = s.tipin := rfl
@[simp] theorem setStream_keeps_straps : (s.setStream id x).straps = s.straps := rfl
@[simp] theorem setStream_keeps_portFailed : (s.setStream id x).portFailed = s.portFailed := rfl
@[simp] theorem setStream_keeps_tierLast : (s.setStream id x).tierLast = s.tierLast := rfl
@[simp] theorem setStream_keeps_mgmt : (s.setStream id x).mgmt = s.mgmt := rfl
@[simp] theorem setStream_keeps_ports : (s.setStream id x).ports = s.ports := rfl
@[simp] theorem setStream_keeps_tags : (s.setStream id x).tags = s.tags := rfl
@[simp] theorem setStream_keeps_localQ : (s.setStream id x).localQ = s.localQ := rfl
@[simp] theorem setStream_keeps_ordHold : (s.setStream id x).ordHold = s.ordHold := rfl
@[simp] theorem setStream_keeps_ordHeld : (s.setStream id x).ordHeld = s.ordHeld := rfl
@[simp] theorem setStream_keeps_rte : (s.setStream id x).rte = s.rte := rfl
@[simp] theorem setStream_keeps_linkGen : (s.setStream id x).linkGen = s.linkGen := rfl
@[simp] theorem setStream_keeps_odrainEnd : (s.setStream id x).odrainEnd = s.odrainEnd := rfl
@[simp] theorem setStream_keeps_present : (s.setStream id x).present = s.present := rfl
@[simp] theorem setStream_keeps_wir : (s.setStream id x).wir = s.wir := rfl
@[simp] theorem setStream_keeps_heldWrites : (s.setStream id x).heldWrites = s.heldWrites := rfl
@[simp] theorem setStream_keeps_domMove : (s.setStream id x).domMove = s.domMove := rfl
@[simp] theorem setStream_keeps_domSaved : (s.setStream id x).domSaved = s.domSaved := rfl
@[simp] theorem setStream_keeps_domLost : (s.setStream id x).domLost = s.domLost := rfl
@[simp] theorem setStream_keeps_govSteps : (s.setStream id x).govSteps = s.govSteps := rfl
@[simp] theorem setStream_keeps_govLow : (s.setStream id x).govLow = s.govLow := rfl
@[simp] theorem setStream_keeps_vreq : (s.setStream id x).vreq = s.vreq := rfl
@[simp] theorem setStream_keeps_droop : (s.setStream id x).droop = s.droop := rfl
@[simp] theorem setStream_keeps_doorbells : (s.setStream id x).doorbells = s.doorbells := rfl
@[simp] theorem setStream_keeps_dbDrop : (s.setStream id x).dbDrop = s.dbDrop := rfl
@[simp] theorem setStream_keeps_armed : (s.setStream id x).armed = s.armed := rfl
@[simp] theorem setStream_keeps_tested : (s.setStream id x).tested = s.tested := rfl
@[simp] theorem setStream_keeps_admits : (s.setStream id x).admits = s.admits := rfl
@[simp] theorem setStream_keeps_svc : (s.setStream id x).svc = s.svc := rfl
@[simp] theorem setStream_keeps_calTrain : (s.setStream id x).calTrain = s.calTrain := rfl
@[simp] theorem setStream_keeps_calLink : (s.setStream id x).calLink = s.calLink := rfl
@[simp] theorem setStream_keeps_nodeRec : (s.setStream id x).nodeRec = s.nodeRec := rfl
@[simp] theorem setStream_keeps_txb : (s.setStream id x).txb = s.txb := rfl
@[simp] theorem setStream_keeps_calAt : (s.setStream id x).calAt = s.calAt := rfl
@[simp] theorem setStream_keeps_cxlUp : (s.setStream id x).cxlUp = s.cxlUp := rfl
@[simp] theorem setStream_keeps_dbgRingSel : (s.setStream id x).dbgRingSel = s.dbgRingSel := rfl
@[simp] theorem setStream_keeps_dbgCntSel : (s.setStream id x).dbgCntSel = s.dbgCntSel := rfl
@[simp] theorem setStream_keeps_dbgRsps : (s.setStream id x).dbgRsps = s.dbgRsps := rfl
@[simp] theorem setStream_keeps_free : (s.setStream id x).free = s.free := rfl
@[simp] theorem setStream_keeps_pending : (s.setStream id x).pending = s.pending := rfl
end setStream

section setFrame
variable (s : State) (f : Fin 4) (x : Frame)
@[simp] theorem setFrame_keeps_quires : (s.setFrame f x).quires = s.quires := rfl
@[simp] theorem setFrame_keeps_mem : (s.setFrame f x).mem = s.mem := rfl
@[simp] theorem setFrame_keeps_poison : (s.setFrame f x).poison = s.poison := rfl
@[simp] theorem setFrame_keeps_win : (s.setFrame f x).win = s.win := rfl
@[simp] theorem setFrame_keeps_gtime : (s.setFrame f x).gtime = s.gtime := rfl
@[simp] theorem setFrame_keeps_atomics : (s.setFrame f x).atomics = s.atomics := rfl
@[simp] theorem setFrame_keeps_xlat : (s.setFrame f x).xlat = s.xlat := rfl
@[simp] theorem setFrame_keeps_ctxCache : (s.setFrame f x).ctxCache = s.ctxCache := rfl
@[simp] theorem setFrame_keeps_errBanks : (s.setFrame f x).errBanks = s.errBanks := rfl
@[simp] theorem setFrame_keeps_rings : (s.setFrame f x).rings = s.rings := rfl
@[simp] theorem setFrame_keeps_counters : (s.setFrame f x).counters = s.counters := rfl
@[simp] theorem setFrame_keeps_engines : (s.setFrame f x).engines = s.engines := rfl
@[simp] theorem setFrame_keeps_streams : (s.setFrame f x).streams = s.streams := rfl
@[simp] theorem setFrame_keeps_streamOrder : (s.setFrame f x).streamOrder = s.streamOrder := rfl
@[simp] theorem setFrame_keeps_lastOwner : (s.setFrame f x).lastOwner = s.lastOwner := rfl
@[simp] theorem setFrame_keeps_xfqHeld : (s.setFrame f x).xfqHeld = s.xfqHeld := rfl
@[simp] theorem setFrame_keeps_xlatInv : (s.setFrame f x).xlatInv = s.xlatInv := rfl
@[simp] theorem setFrame_keeps_queues : (s.setFrame f x).queues = s.queues := rfl
@[simp] theorem setFrame_keeps_bound : (s.setFrame f x).bound = s.bound := rfl
@[simp] theorem setFrame_keeps_hostOut : (s.setFrame f x).hostOut = s.hostOut := rfl
@[simp] theorem setFrame_keeps_hostHeld : (s.setFrame f x).hostHeld = s.hostHeld := rfl
@[simp] theorem setFrame_keeps_ceTimes : (s.setFrame f x).ceTimes = s.ceTimes := rfl
@[simp] theorem setFrame_keeps_notices : (s.setFrame f x).notices = s.notices := rfl
@[simp] theorem setFrame_keeps_msiCache : (s.setFrame f x).msiCache = s.msiCache := rfl
@[simp] theorem setFrame_keeps_evPhase : (s.setFrame f x).evPhase = s.evPhase := rfl
@[simp] theorem setFrame_keeps_hostReqs : (s.setFrame f x).hostReqs = s.hostReqs := rfl
@[simp] theorem setFrame_keeps_hostRsps : (s.setFrame f x).hostRsps = s.hostRsps := rfl
@[simp] theorem setFrame_keeps_folioFailed : (s.setFrame f x).folioFailed = s.folioFailed := rfl
@[simp] theorem setFrame_keeps_txbFailed : (s.setFrame f x).txbFailed = s.txbFailed := rfl
@[simp] theorem setFrame_keeps_folioMap : (s.setFrame f x).folioMap = s.folioMap := rfl
@[simp] theorem setFrame_keeps_txbMap : (s.setFrame f x).txbMap = s.txbMap := rfl
@[simp] theorem setFrame_keeps_tipin : (s.setFrame f x).tipin = s.tipin := rfl
@[simp] theorem setFrame_keeps_straps : (s.setFrame f x).straps = s.straps := rfl
@[simp] theorem setFrame_keeps_portFailed : (s.setFrame f x).portFailed = s.portFailed := rfl
@[simp] theorem setFrame_keeps_tierLast : (s.setFrame f x).tierLast = s.tierLast := rfl
@[simp] theorem setFrame_keeps_mgmt : (s.setFrame f x).mgmt = s.mgmt := rfl
@[simp] theorem setFrame_keeps_ports : (s.setFrame f x).ports = s.ports := rfl
@[simp] theorem setFrame_keeps_tags : (s.setFrame f x).tags = s.tags := rfl
@[simp] theorem setFrame_keeps_localQ : (s.setFrame f x).localQ = s.localQ := rfl
@[simp] theorem setFrame_keeps_ordHold : (s.setFrame f x).ordHold = s.ordHold := rfl
@[simp] theorem setFrame_keeps_ordHeld : (s.setFrame f x).ordHeld = s.ordHeld := rfl
@[simp] theorem setFrame_keeps_rte : (s.setFrame f x).rte = s.rte := rfl
@[simp] theorem setFrame_keeps_linkGen : (s.setFrame f x).linkGen = s.linkGen := rfl
@[simp] theorem setFrame_keeps_odrainEnd : (s.setFrame f x).odrainEnd = s.odrainEnd := rfl
@[simp] theorem setFrame_keeps_present : (s.setFrame f x).present = s.present := rfl
@[simp] theorem setFrame_keeps_wir : (s.setFrame f x).wir = s.wir := rfl
@[simp] theorem setFrame_keeps_heldWrites : (s.setFrame f x).heldWrites = s.heldWrites := rfl
@[simp] theorem setFrame_keeps_domMove : (s.setFrame f x).domMove = s.domMove := rfl
@[simp] theorem setFrame_keeps_domSaved : (s.setFrame f x).domSaved = s.domSaved := rfl
@[simp] theorem setFrame_keeps_domLost : (s.setFrame f x).domLost = s.domLost := rfl
@[simp] theorem setFrame_keeps_govSteps : (s.setFrame f x).govSteps = s.govSteps := rfl
@[simp] theorem setFrame_keeps_govLow : (s.setFrame f x).govLow = s.govLow := rfl
@[simp] theorem setFrame_keeps_vreq : (s.setFrame f x).vreq = s.vreq := rfl
@[simp] theorem setFrame_keeps_droop : (s.setFrame f x).droop = s.droop := rfl
@[simp] theorem setFrame_keeps_doorbells : (s.setFrame f x).doorbells = s.doorbells := rfl
@[simp] theorem setFrame_keeps_dbDrop : (s.setFrame f x).dbDrop = s.dbDrop := rfl
@[simp] theorem setFrame_keeps_armed : (s.setFrame f x).armed = s.armed := rfl
@[simp] theorem setFrame_keeps_tested : (s.setFrame f x).tested = s.tested := rfl
@[simp] theorem setFrame_keeps_admits : (s.setFrame f x).admits = s.admits := rfl
@[simp] theorem setFrame_keeps_svc : (s.setFrame f x).svc = s.svc := rfl
@[simp] theorem setFrame_keeps_calTrain : (s.setFrame f x).calTrain = s.calTrain := rfl
@[simp] theorem setFrame_keeps_calLink : (s.setFrame f x).calLink = s.calLink := rfl
@[simp] theorem setFrame_keeps_nodeRec : (s.setFrame f x).nodeRec = s.nodeRec := rfl
@[simp] theorem setFrame_keeps_txb : (s.setFrame f x).txb = s.txb := rfl
@[simp] theorem setFrame_keeps_calAt : (s.setFrame f x).calAt = s.calAt := rfl
@[simp] theorem setFrame_keeps_cxlUp : (s.setFrame f x).cxlUp = s.cxlUp := rfl
@[simp] theorem setFrame_keeps_dbgRingSel : (s.setFrame f x).dbgRingSel = s.dbgRingSel := rfl
@[simp] theorem setFrame_keeps_dbgCntSel : (s.setFrame f x).dbgCntSel = s.dbgCntSel := rfl
@[simp] theorem setFrame_keeps_dbgRsps : (s.setFrame f x).dbgRsps = s.dbgRsps := rfl
@[simp] theorem setFrame_keeps_free : (s.setFrame f x).free = s.free := rfl
@[simp] theorem setFrame_keeps_pending : (s.setFrame f x).pending = s.pending := rfl
end setFrame

section setEng
variable (s : State) (e : EngineId) (x : Engine)
@[simp] theorem setEng_keeps_quires : (s.setEng e x).quires = s.quires := rfl
@[simp] theorem setEng_keeps_mem : (s.setEng e x).mem = s.mem := rfl
@[simp] theorem setEng_keeps_poison : (s.setEng e x).poison = s.poison := rfl
@[simp] theorem setEng_keeps_win : (s.setEng e x).win = s.win := rfl
@[simp] theorem setEng_keeps_gtime : (s.setEng e x).gtime = s.gtime := rfl
@[simp] theorem setEng_keeps_atomics : (s.setEng e x).atomics = s.atomics := rfl
@[simp] theorem setEng_keeps_xlat : (s.setEng e x).xlat = s.xlat := rfl
@[simp] theorem setEng_keeps_ctxCache : (s.setEng e x).ctxCache = s.ctxCache := rfl
@[simp] theorem setEng_keeps_errBanks : (s.setEng e x).errBanks = s.errBanks := rfl
@[simp] theorem setEng_keeps_rings : (s.setEng e x).rings = s.rings := rfl
@[simp] theorem setEng_keeps_counters : (s.setEng e x).counters = s.counters := rfl
@[simp] theorem setEng_keeps_frames : (s.setEng e x).frames = s.frames := rfl
@[simp] theorem setEng_keeps_streams : (s.setEng e x).streams = s.streams := rfl
@[simp] theorem setEng_keeps_streamOrder : (s.setEng e x).streamOrder = s.streamOrder := rfl
@[simp] theorem setEng_keeps_lastOwner : (s.setEng e x).lastOwner = s.lastOwner := rfl
@[simp] theorem setEng_keeps_xfqHeld : (s.setEng e x).xfqHeld = s.xfqHeld := rfl
@[simp] theorem setEng_keeps_xlatInv : (s.setEng e x).xlatInv = s.xlatInv := rfl
@[simp] theorem setEng_keeps_queues : (s.setEng e x).queues = s.queues := rfl
@[simp] theorem setEng_keeps_bound : (s.setEng e x).bound = s.bound := rfl
@[simp] theorem setEng_keeps_hostOut : (s.setEng e x).hostOut = s.hostOut := rfl
@[simp] theorem setEng_keeps_hostHeld : (s.setEng e x).hostHeld = s.hostHeld := rfl
@[simp] theorem setEng_keeps_ceTimes : (s.setEng e x).ceTimes = s.ceTimes := rfl
@[simp] theorem setEng_keeps_notices : (s.setEng e x).notices = s.notices := rfl
@[simp] theorem setEng_keeps_msiCache : (s.setEng e x).msiCache = s.msiCache := rfl
@[simp] theorem setEng_keeps_evPhase : (s.setEng e x).evPhase = s.evPhase := rfl
@[simp] theorem setEng_keeps_hostReqs : (s.setEng e x).hostReqs = s.hostReqs := rfl
@[simp] theorem setEng_keeps_hostRsps : (s.setEng e x).hostRsps = s.hostRsps := rfl
@[simp] theorem setEng_keeps_folioFailed : (s.setEng e x).folioFailed = s.folioFailed := rfl
@[simp] theorem setEng_keeps_txbFailed : (s.setEng e x).txbFailed = s.txbFailed := rfl
@[simp] theorem setEng_keeps_folioMap : (s.setEng e x).folioMap = s.folioMap := rfl
@[simp] theorem setEng_keeps_txbMap : (s.setEng e x).txbMap = s.txbMap := rfl
@[simp] theorem setEng_keeps_tipin : (s.setEng e x).tipin = s.tipin := rfl
@[simp] theorem setEng_keeps_straps : (s.setEng e x).straps = s.straps := rfl
@[simp] theorem setEng_keeps_portFailed : (s.setEng e x).portFailed = s.portFailed := rfl
@[simp] theorem setEng_keeps_tierLast : (s.setEng e x).tierLast = s.tierLast := rfl
@[simp] theorem setEng_keeps_mgmt : (s.setEng e x).mgmt = s.mgmt := rfl
@[simp] theorem setEng_keeps_ports : (s.setEng e x).ports = s.ports := rfl
@[simp] theorem setEng_keeps_tags : (s.setEng e x).tags = s.tags := rfl
@[simp] theorem setEng_keeps_localQ : (s.setEng e x).localQ = s.localQ := rfl
@[simp] theorem setEng_keeps_ordHold : (s.setEng e x).ordHold = s.ordHold := rfl
@[simp] theorem setEng_keeps_ordHeld : (s.setEng e x).ordHeld = s.ordHeld := rfl
@[simp] theorem setEng_keeps_rte : (s.setEng e x).rte = s.rte := rfl
@[simp] theorem setEng_keeps_linkGen : (s.setEng e x).linkGen = s.linkGen := rfl
@[simp] theorem setEng_keeps_odrainEnd : (s.setEng e x).odrainEnd = s.odrainEnd := rfl
@[simp] theorem setEng_keeps_present : (s.setEng e x).present = s.present := rfl
@[simp] theorem setEng_keeps_wir : (s.setEng e x).wir = s.wir := rfl
@[simp] theorem setEng_keeps_heldWrites : (s.setEng e x).heldWrites = s.heldWrites := rfl
@[simp] theorem setEng_keeps_domMove : (s.setEng e x).domMove = s.domMove := rfl
@[simp] theorem setEng_keeps_domSaved : (s.setEng e x).domSaved = s.domSaved := rfl
@[simp] theorem setEng_keeps_domLost : (s.setEng e x).domLost = s.domLost := rfl
@[simp] theorem setEng_keeps_govSteps : (s.setEng e x).govSteps = s.govSteps := rfl
@[simp] theorem setEng_keeps_govLow : (s.setEng e x).govLow = s.govLow := rfl
@[simp] theorem setEng_keeps_vreq : (s.setEng e x).vreq = s.vreq := rfl
@[simp] theorem setEng_keeps_droop : (s.setEng e x).droop = s.droop := rfl
@[simp] theorem setEng_keeps_doorbells : (s.setEng e x).doorbells = s.doorbells := rfl
@[simp] theorem setEng_keeps_dbDrop : (s.setEng e x).dbDrop = s.dbDrop := rfl
@[simp] theorem setEng_keeps_armed : (s.setEng e x).armed = s.armed := rfl
@[simp] theorem setEng_keeps_tested : (s.setEng e x).tested = s.tested := rfl
@[simp] theorem setEng_keeps_admits : (s.setEng e x).admits = s.admits := rfl
@[simp] theorem setEng_keeps_svc : (s.setEng e x).svc = s.svc := rfl
@[simp] theorem setEng_keeps_calTrain : (s.setEng e x).calTrain = s.calTrain := rfl
@[simp] theorem setEng_keeps_calLink : (s.setEng e x).calLink = s.calLink := rfl
@[simp] theorem setEng_keeps_nodeRec : (s.setEng e x).nodeRec = s.nodeRec := rfl
@[simp] theorem setEng_keeps_txb : (s.setEng e x).txb = s.txb := rfl
@[simp] theorem setEng_keeps_calAt : (s.setEng e x).calAt = s.calAt := rfl
@[simp] theorem setEng_keeps_cxlUp : (s.setEng e x).cxlUp = s.cxlUp := rfl
@[simp] theorem setEng_keeps_dbgRingSel : (s.setEng e x).dbgRingSel = s.dbgRingSel := rfl
@[simp] theorem setEng_keeps_dbgCntSel : (s.setEng e x).dbgCntSel = s.dbgCntSel := rfl
@[simp] theorem setEng_keeps_dbgRsps : (s.setEng e x).dbgRsps = s.dbgRsps := rfl
@[simp] theorem setEng_keeps_free : (s.setEng e x).free = s.free := rfl
@[simp] theorem setEng_keeps_pending : (s.setEng e x).pending = s.pending := rfl
end setEng

section modEng
variable (s : State) (e : EngineId) (f : Engine → Engine)
@[simp] theorem modEng_keeps_quires : (s.modEng e f).quires = s.quires := rfl
@[simp] theorem modEng_keeps_mem : (s.modEng e f).mem = s.mem := rfl
@[simp] theorem modEng_keeps_poison : (s.modEng e f).poison = s.poison := rfl
@[simp] theorem modEng_keeps_win : (s.modEng e f).win = s.win := rfl
@[simp] theorem modEng_keeps_gtime : (s.modEng e f).gtime = s.gtime := rfl
@[simp] theorem modEng_keeps_atomics : (s.modEng e f).atomics = s.atomics := rfl
@[simp] theorem modEng_keeps_xlat : (s.modEng e f).xlat = s.xlat := rfl
@[simp] theorem modEng_keeps_ctxCache : (s.modEng e f).ctxCache = s.ctxCache := rfl
@[simp] theorem modEng_keeps_errBanks : (s.modEng e f).errBanks = s.errBanks := rfl
@[simp] theorem modEng_keeps_rings : (s.modEng e f).rings = s.rings := rfl
@[simp] theorem modEng_keeps_counters : (s.modEng e f).counters = s.counters := rfl
@[simp] theorem modEng_keeps_frames : (s.modEng e f).frames = s.frames := rfl
@[simp] theorem modEng_keeps_streams : (s.modEng e f).streams = s.streams := rfl
@[simp] theorem modEng_keeps_streamOrder : (s.modEng e f).streamOrder = s.streamOrder := rfl
@[simp] theorem modEng_keeps_lastOwner : (s.modEng e f).lastOwner = s.lastOwner := rfl
@[simp] theorem modEng_keeps_xfqHeld : (s.modEng e f).xfqHeld = s.xfqHeld := rfl
@[simp] theorem modEng_keeps_xlatInv : (s.modEng e f).xlatInv = s.xlatInv := rfl
@[simp] theorem modEng_keeps_queues : (s.modEng e f).queues = s.queues := rfl
@[simp] theorem modEng_keeps_bound : (s.modEng e f).bound = s.bound := rfl
@[simp] theorem modEng_keeps_hostOut : (s.modEng e f).hostOut = s.hostOut := rfl
@[simp] theorem modEng_keeps_hostHeld : (s.modEng e f).hostHeld = s.hostHeld := rfl
@[simp] theorem modEng_keeps_ceTimes : (s.modEng e f).ceTimes = s.ceTimes := rfl
@[simp] theorem modEng_keeps_notices : (s.modEng e f).notices = s.notices := rfl
@[simp] theorem modEng_keeps_msiCache : (s.modEng e f).msiCache = s.msiCache := rfl
@[simp] theorem modEng_keeps_evPhase : (s.modEng e f).evPhase = s.evPhase := rfl
@[simp] theorem modEng_keeps_hostReqs : (s.modEng e f).hostReqs = s.hostReqs := rfl
@[simp] theorem modEng_keeps_hostRsps : (s.modEng e f).hostRsps = s.hostRsps := rfl
@[simp] theorem modEng_keeps_folioFailed : (s.modEng e f).folioFailed = s.folioFailed := rfl
@[simp] theorem modEng_keeps_txbFailed : (s.modEng e f).txbFailed = s.txbFailed := rfl
@[simp] theorem modEng_keeps_folioMap : (s.modEng e f).folioMap = s.folioMap := rfl
@[simp] theorem modEng_keeps_txbMap : (s.modEng e f).txbMap = s.txbMap := rfl
@[simp] theorem modEng_keeps_tipin : (s.modEng e f).tipin = s.tipin := rfl
@[simp] theorem modEng_keeps_straps : (s.modEng e f).straps = s.straps := rfl
@[simp] theorem modEng_keeps_portFailed : (s.modEng e f).portFailed = s.portFailed := rfl
@[simp] theorem modEng_keeps_tierLast : (s.modEng e f).tierLast = s.tierLast := rfl
@[simp] theorem modEng_keeps_mgmt : (s.modEng e f).mgmt = s.mgmt := rfl
@[simp] theorem modEng_keeps_ports : (s.modEng e f).ports = s.ports := rfl
@[simp] theorem modEng_keeps_tags : (s.modEng e f).tags = s.tags := rfl
@[simp] theorem modEng_keeps_localQ : (s.modEng e f).localQ = s.localQ := rfl
@[simp] theorem modEng_keeps_ordHold : (s.modEng e f).ordHold = s.ordHold := rfl
@[simp] theorem modEng_keeps_ordHeld : (s.modEng e f).ordHeld = s.ordHeld := rfl
@[simp] theorem modEng_keeps_rte : (s.modEng e f).rte = s.rte := rfl
@[simp] theorem modEng_keeps_linkGen : (s.modEng e f).linkGen = s.linkGen := rfl
@[simp] theorem modEng_keeps_odrainEnd : (s.modEng e f).odrainEnd = s.odrainEnd := rfl
@[simp] theorem modEng_keeps_present : (s.modEng e f).present = s.present := rfl
@[simp] theorem modEng_keeps_wir : (s.modEng e f).wir = s.wir := rfl
@[simp] theorem modEng_keeps_heldWrites : (s.modEng e f).heldWrites = s.heldWrites := rfl
@[simp] theorem modEng_keeps_domMove : (s.modEng e f).domMove = s.domMove := rfl
@[simp] theorem modEng_keeps_domSaved : (s.modEng e f).domSaved = s.domSaved := rfl
@[simp] theorem modEng_keeps_domLost : (s.modEng e f).domLost = s.domLost := rfl
@[simp] theorem modEng_keeps_govSteps : (s.modEng e f).govSteps = s.govSteps := rfl
@[simp] theorem modEng_keeps_govLow : (s.modEng e f).govLow = s.govLow := rfl
@[simp] theorem modEng_keeps_vreq : (s.modEng e f).vreq = s.vreq := rfl
@[simp] theorem modEng_keeps_droop : (s.modEng e f).droop = s.droop := rfl
@[simp] theorem modEng_keeps_doorbells : (s.modEng e f).doorbells = s.doorbells := rfl
@[simp] theorem modEng_keeps_dbDrop : (s.modEng e f).dbDrop = s.dbDrop := rfl
@[simp] theorem modEng_keeps_armed : (s.modEng e f).armed = s.armed := rfl
@[simp] theorem modEng_keeps_tested : (s.modEng e f).tested = s.tested := rfl
@[simp] theorem modEng_keeps_admits : (s.modEng e f).admits = s.admits := rfl
@[simp] theorem modEng_keeps_svc : (s.modEng e f).svc = s.svc := rfl
@[simp] theorem modEng_keeps_calTrain : (s.modEng e f).calTrain = s.calTrain := rfl
@[simp] theorem modEng_keeps_calLink : (s.modEng e f).calLink = s.calLink := rfl
@[simp] theorem modEng_keeps_nodeRec : (s.modEng e f).nodeRec = s.nodeRec := rfl
@[simp] theorem modEng_keeps_txb : (s.modEng e f).txb = s.txb := rfl
@[simp] theorem modEng_keeps_calAt : (s.modEng e f).calAt = s.calAt := rfl
@[simp] theorem modEng_keeps_cxlUp : (s.modEng e f).cxlUp = s.cxlUp := rfl
@[simp] theorem modEng_keeps_dbgRingSel : (s.modEng e f).dbgRingSel = s.dbgRingSel := rfl
@[simp] theorem modEng_keeps_dbgCntSel : (s.modEng e f).dbgCntSel = s.dbgCntSel := rfl
@[simp] theorem modEng_keeps_dbgRsps : (s.modEng e f).dbgRsps = s.dbgRsps := rfl
@[simp] theorem modEng_keeps_free : (s.modEng e f).free = s.free := rfl
@[simp] theorem modEng_keeps_pending : (s.modEng e f).pending = s.pending := rfl
end modEng

section modBank
variable (s : State) (e : EngineId) (b : Fin 9) (f : Bank → Bank)
@[simp] theorem modBank_keeps_quires : (s.modBank e b f).quires = s.quires := rfl
@[simp] theorem modBank_keeps_mem : (s.modBank e b f).mem = s.mem := rfl
@[simp] theorem modBank_keeps_poison : (s.modBank e b f).poison = s.poison := rfl
@[simp] theorem modBank_keeps_win : (s.modBank e b f).win = s.win := rfl
@[simp] theorem modBank_keeps_gtime : (s.modBank e b f).gtime = s.gtime := rfl
@[simp] theorem modBank_keeps_atomics : (s.modBank e b f).atomics = s.atomics := rfl
@[simp] theorem modBank_keeps_xlat : (s.modBank e b f).xlat = s.xlat := rfl
@[simp] theorem modBank_keeps_ctxCache : (s.modBank e b f).ctxCache = s.ctxCache := rfl
@[simp] theorem modBank_keeps_errBanks : (s.modBank e b f).errBanks = s.errBanks := rfl
@[simp] theorem modBank_keeps_rings : (s.modBank e b f).rings = s.rings := rfl
@[simp] theorem modBank_keeps_counters : (s.modBank e b f).counters = s.counters := rfl
@[simp] theorem modBank_keeps_frames : (s.modBank e b f).frames = s.frames := rfl
@[simp] theorem modBank_keeps_streams : (s.modBank e b f).streams = s.streams := rfl
@[simp] theorem modBank_keeps_streamOrder : (s.modBank e b f).streamOrder = s.streamOrder := rfl
@[simp] theorem modBank_keeps_lastOwner : (s.modBank e b f).lastOwner = s.lastOwner := rfl
@[simp] theorem modBank_keeps_xfqHeld : (s.modBank e b f).xfqHeld = s.xfqHeld := rfl
@[simp] theorem modBank_keeps_xlatInv : (s.modBank e b f).xlatInv = s.xlatInv := rfl
@[simp] theorem modBank_keeps_queues : (s.modBank e b f).queues = s.queues := rfl
@[simp] theorem modBank_keeps_bound : (s.modBank e b f).bound = s.bound := rfl
@[simp] theorem modBank_keeps_hostOut : (s.modBank e b f).hostOut = s.hostOut := rfl
@[simp] theorem modBank_keeps_hostHeld : (s.modBank e b f).hostHeld = s.hostHeld := rfl
@[simp] theorem modBank_keeps_ceTimes : (s.modBank e b f).ceTimes = s.ceTimes := rfl
@[simp] theorem modBank_keeps_notices : (s.modBank e b f).notices = s.notices := rfl
@[simp] theorem modBank_keeps_msiCache : (s.modBank e b f).msiCache = s.msiCache := rfl
@[simp] theorem modBank_keeps_evPhase : (s.modBank e b f).evPhase = s.evPhase := rfl
@[simp] theorem modBank_keeps_hostReqs : (s.modBank e b f).hostReqs = s.hostReqs := rfl
@[simp] theorem modBank_keeps_hostRsps : (s.modBank e b f).hostRsps = s.hostRsps := rfl
@[simp] theorem modBank_keeps_folioFailed : (s.modBank e b f).folioFailed = s.folioFailed := rfl
@[simp] theorem modBank_keeps_txbFailed : (s.modBank e b f).txbFailed = s.txbFailed := rfl
@[simp] theorem modBank_keeps_folioMap : (s.modBank e b f).folioMap = s.folioMap := rfl
@[simp] theorem modBank_keeps_txbMap : (s.modBank e b f).txbMap = s.txbMap := rfl
@[simp] theorem modBank_keeps_tipin : (s.modBank e b f).tipin = s.tipin := rfl
@[simp] theorem modBank_keeps_straps : (s.modBank e b f).straps = s.straps := rfl
@[simp] theorem modBank_keeps_portFailed : (s.modBank e b f).portFailed = s.portFailed := rfl
@[simp] theorem modBank_keeps_tierLast : (s.modBank e b f).tierLast = s.tierLast := rfl
@[simp] theorem modBank_keeps_mgmt : (s.modBank e b f).mgmt = s.mgmt := rfl
@[simp] theorem modBank_keeps_ports : (s.modBank e b f).ports = s.ports := rfl
@[simp] theorem modBank_keeps_tags : (s.modBank e b f).tags = s.tags := rfl
@[simp] theorem modBank_keeps_localQ : (s.modBank e b f).localQ = s.localQ := rfl
@[simp] theorem modBank_keeps_ordHold : (s.modBank e b f).ordHold = s.ordHold := rfl
@[simp] theorem modBank_keeps_ordHeld : (s.modBank e b f).ordHeld = s.ordHeld := rfl
@[simp] theorem modBank_keeps_rte : (s.modBank e b f).rte = s.rte := rfl
@[simp] theorem modBank_keeps_linkGen : (s.modBank e b f).linkGen = s.linkGen := rfl
@[simp] theorem modBank_keeps_odrainEnd : (s.modBank e b f).odrainEnd = s.odrainEnd := rfl
@[simp] theorem modBank_keeps_present : (s.modBank e b f).present = s.present := rfl
@[simp] theorem modBank_keeps_wir : (s.modBank e b f).wir = s.wir := rfl
@[simp] theorem modBank_keeps_heldWrites : (s.modBank e b f).heldWrites = s.heldWrites := rfl
@[simp] theorem modBank_keeps_domMove : (s.modBank e b f).domMove = s.domMove := rfl
@[simp] theorem modBank_keeps_domSaved : (s.modBank e b f).domSaved = s.domSaved := rfl
@[simp] theorem modBank_keeps_domLost : (s.modBank e b f).domLost = s.domLost := rfl
@[simp] theorem modBank_keeps_govSteps : (s.modBank e b f).govSteps = s.govSteps := rfl
@[simp] theorem modBank_keeps_govLow : (s.modBank e b f).govLow = s.govLow := rfl
@[simp] theorem modBank_keeps_vreq : (s.modBank e b f).vreq = s.vreq := rfl
@[simp] theorem modBank_keeps_droop : (s.modBank e b f).droop = s.droop := rfl
@[simp] theorem modBank_keeps_doorbells : (s.modBank e b f).doorbells = s.doorbells := rfl
@[simp] theorem modBank_keeps_dbDrop : (s.modBank e b f).dbDrop = s.dbDrop := rfl
@[simp] theorem modBank_keeps_armed : (s.modBank e b f).armed = s.armed := rfl
@[simp] theorem modBank_keeps_tested : (s.modBank e b f).tested = s.tested := rfl
@[simp] theorem modBank_keeps_admits : (s.modBank e b f).admits = s.admits := rfl
@[simp] theorem modBank_keeps_svc : (s.modBank e b f).svc = s.svc := rfl
@[simp] theorem modBank_keeps_calTrain : (s.modBank e b f).calTrain = s.calTrain := rfl
@[simp] theorem modBank_keeps_calLink : (s.modBank e b f).calLink = s.calLink := rfl
@[simp] theorem modBank_keeps_nodeRec : (s.modBank e b f).nodeRec = s.nodeRec := rfl
@[simp] theorem modBank_keeps_txb : (s.modBank e b f).txb = s.txb := rfl
@[simp] theorem modBank_keeps_calAt : (s.modBank e b f).calAt = s.calAt := rfl
@[simp] theorem modBank_keeps_cxlUp : (s.modBank e b f).cxlUp = s.cxlUp := rfl
@[simp] theorem modBank_keeps_dbgRingSel : (s.modBank e b f).dbgRingSel = s.dbgRingSel := rfl
@[simp] theorem modBank_keeps_dbgCntSel : (s.modBank e b f).dbgCntSel = s.dbgCntSel := rfl
@[simp] theorem modBank_keeps_dbgRsps : (s.modBank e b f).dbgRsps = s.dbgRsps := rfl
@[simp] theorem modBank_keeps_free : (s.modBank e b f).free = s.free := rfl
@[simp] theorem modBank_keeps_pending : (s.modBank e b f).pending = s.pending := rfl
end modBank

section setPort
variable (s : State) (p : PortId) (x : Port)
@[simp] theorem setPort_keeps_quires : (s.setPort p x).quires = s.quires := rfl
@[simp] theorem setPort_keeps_mem : (s.setPort p x).mem = s.mem := rfl
@[simp] theorem setPort_keeps_poison : (s.setPort p x).poison = s.poison := rfl
@[simp] theorem setPort_keeps_win : (s.setPort p x).win = s.win := rfl
@[simp] theorem setPort_keeps_gtime : (s.setPort p x).gtime = s.gtime := rfl
@[simp] theorem setPort_keeps_atomics : (s.setPort p x).atomics = s.atomics := rfl
@[simp] theorem setPort_keeps_xlat : (s.setPort p x).xlat = s.xlat := rfl
@[simp] theorem setPort_keeps_ctxCache : (s.setPort p x).ctxCache = s.ctxCache := rfl
@[simp] theorem setPort_keeps_errBanks : (s.setPort p x).errBanks = s.errBanks := rfl
@[simp] theorem setPort_keeps_rings : (s.setPort p x).rings = s.rings := rfl
@[simp] theorem setPort_keeps_counters : (s.setPort p x).counters = s.counters := rfl
@[simp] theorem setPort_keeps_engines : (s.setPort p x).engines = s.engines := rfl
@[simp] theorem setPort_keeps_frames : (s.setPort p x).frames = s.frames := rfl
@[simp] theorem setPort_keeps_streams : (s.setPort p x).streams = s.streams := rfl
@[simp] theorem setPort_keeps_streamOrder : (s.setPort p x).streamOrder = s.streamOrder := rfl
@[simp] theorem setPort_keeps_lastOwner : (s.setPort p x).lastOwner = s.lastOwner := rfl
@[simp] theorem setPort_keeps_xfqHeld : (s.setPort p x).xfqHeld = s.xfqHeld := rfl
@[simp] theorem setPort_keeps_xlatInv : (s.setPort p x).xlatInv = s.xlatInv := rfl
@[simp] theorem setPort_keeps_queues : (s.setPort p x).queues = s.queues := rfl
@[simp] theorem setPort_keeps_bound : (s.setPort p x).bound = s.bound := rfl
@[simp] theorem setPort_keeps_hostOut : (s.setPort p x).hostOut = s.hostOut := rfl
@[simp] theorem setPort_keeps_hostHeld : (s.setPort p x).hostHeld = s.hostHeld := rfl
@[simp] theorem setPort_keeps_ceTimes : (s.setPort p x).ceTimes = s.ceTimes := rfl
@[simp] theorem setPort_keeps_notices : (s.setPort p x).notices = s.notices := rfl
@[simp] theorem setPort_keeps_msiCache : (s.setPort p x).msiCache = s.msiCache := rfl
@[simp] theorem setPort_keeps_evPhase : (s.setPort p x).evPhase = s.evPhase := rfl
@[simp] theorem setPort_keeps_hostReqs : (s.setPort p x).hostReqs = s.hostReqs := rfl
@[simp] theorem setPort_keeps_hostRsps : (s.setPort p x).hostRsps = s.hostRsps := rfl
@[simp] theorem setPort_keeps_folioFailed : (s.setPort p x).folioFailed = s.folioFailed := rfl
@[simp] theorem setPort_keeps_txbFailed : (s.setPort p x).txbFailed = s.txbFailed := rfl
@[simp] theorem setPort_keeps_folioMap : (s.setPort p x).folioMap = s.folioMap := rfl
@[simp] theorem setPort_keeps_txbMap : (s.setPort p x).txbMap = s.txbMap := rfl
@[simp] theorem setPort_keeps_tipin : (s.setPort p x).tipin = s.tipin := rfl
@[simp] theorem setPort_keeps_straps : (s.setPort p x).straps = s.straps := rfl
@[simp] theorem setPort_keeps_portFailed : (s.setPort p x).portFailed = s.portFailed := rfl
@[simp] theorem setPort_keeps_tierLast : (s.setPort p x).tierLast = s.tierLast := rfl
@[simp] theorem setPort_keeps_mgmt : (s.setPort p x).mgmt = s.mgmt := rfl
@[simp] theorem setPort_keeps_tags : (s.setPort p x).tags = s.tags := rfl
@[simp] theorem setPort_keeps_localQ : (s.setPort p x).localQ = s.localQ := rfl
@[simp] theorem setPort_keeps_ordHold : (s.setPort p x).ordHold = s.ordHold := rfl
@[simp] theorem setPort_keeps_ordHeld : (s.setPort p x).ordHeld = s.ordHeld := rfl
@[simp] theorem setPort_keeps_rte : (s.setPort p x).rte = s.rte := rfl
@[simp] theorem setPort_keeps_linkGen : (s.setPort p x).linkGen = s.linkGen := rfl
@[simp] theorem setPort_keeps_odrainEnd : (s.setPort p x).odrainEnd = s.odrainEnd := rfl
@[simp] theorem setPort_keeps_present : (s.setPort p x).present = s.present := rfl
@[simp] theorem setPort_keeps_wir : (s.setPort p x).wir = s.wir := rfl
@[simp] theorem setPort_keeps_heldWrites : (s.setPort p x).heldWrites = s.heldWrites := rfl
@[simp] theorem setPort_keeps_domMove : (s.setPort p x).domMove = s.domMove := rfl
@[simp] theorem setPort_keeps_domSaved : (s.setPort p x).domSaved = s.domSaved := rfl
@[simp] theorem setPort_keeps_domLost : (s.setPort p x).domLost = s.domLost := rfl
@[simp] theorem setPort_keeps_govSteps : (s.setPort p x).govSteps = s.govSteps := rfl
@[simp] theorem setPort_keeps_govLow : (s.setPort p x).govLow = s.govLow := rfl
@[simp] theorem setPort_keeps_vreq : (s.setPort p x).vreq = s.vreq := rfl
@[simp] theorem setPort_keeps_droop : (s.setPort p x).droop = s.droop := rfl
@[simp] theorem setPort_keeps_doorbells : (s.setPort p x).doorbells = s.doorbells := rfl
@[simp] theorem setPort_keeps_dbDrop : (s.setPort p x).dbDrop = s.dbDrop := rfl
@[simp] theorem setPort_keeps_armed : (s.setPort p x).armed = s.armed := rfl
@[simp] theorem setPort_keeps_tested : (s.setPort p x).tested = s.tested := rfl
@[simp] theorem setPort_keeps_admits : (s.setPort p x).admits = s.admits := rfl
@[simp] theorem setPort_keeps_svc : (s.setPort p x).svc = s.svc := rfl
@[simp] theorem setPort_keeps_calTrain : (s.setPort p x).calTrain = s.calTrain := rfl
@[simp] theorem setPort_keeps_calLink : (s.setPort p x).calLink = s.calLink := rfl
@[simp] theorem setPort_keeps_nodeRec : (s.setPort p x).nodeRec = s.nodeRec := rfl
@[simp] theorem setPort_keeps_txb : (s.setPort p x).txb = s.txb := rfl
@[simp] theorem setPort_keeps_calAt : (s.setPort p x).calAt = s.calAt := rfl
@[simp] theorem setPort_keeps_cxlUp : (s.setPort p x).cxlUp = s.cxlUp := rfl
@[simp] theorem setPort_keeps_dbgRingSel : (s.setPort p x).dbgRingSel = s.dbgRingSel := rfl
@[simp] theorem setPort_keeps_dbgCntSel : (s.setPort p x).dbgCntSel = s.dbgCntSel := rfl
@[simp] theorem setPort_keeps_dbgRsps : (s.setPort p x).dbgRsps = s.dbgRsps := rfl
@[simp] theorem setPort_keeps_free : (s.setPort p x).free = s.free := rfl
@[simp] theorem setPort_keeps_pending : (s.setPort p x).pending = s.pending := rfl
end setPort

section modPort
variable (s : State) (p : PortId) (f : Port → Port)
@[simp] theorem modPort_keeps_quires : (s.modPort p f).quires = s.quires := rfl
@[simp] theorem modPort_keeps_mem : (s.modPort p f).mem = s.mem := rfl
@[simp] theorem modPort_keeps_poison : (s.modPort p f).poison = s.poison := rfl
@[simp] theorem modPort_keeps_win : (s.modPort p f).win = s.win := rfl
@[simp] theorem modPort_keeps_gtime : (s.modPort p f).gtime = s.gtime := rfl
@[simp] theorem modPort_keeps_atomics : (s.modPort p f).atomics = s.atomics := rfl
@[simp] theorem modPort_keeps_xlat : (s.modPort p f).xlat = s.xlat := rfl
@[simp] theorem modPort_keeps_ctxCache : (s.modPort p f).ctxCache = s.ctxCache := rfl
@[simp] theorem modPort_keeps_errBanks : (s.modPort p f).errBanks = s.errBanks := rfl
@[simp] theorem modPort_keeps_rings : (s.modPort p f).rings = s.rings := rfl
@[simp] theorem modPort_keeps_counters : (s.modPort p f).counters = s.counters := rfl
@[simp] theorem modPort_keeps_engines : (s.modPort p f).engines = s.engines := rfl
@[simp] theorem modPort_keeps_frames : (s.modPort p f).frames = s.frames := rfl
@[simp] theorem modPort_keeps_streams : (s.modPort p f).streams = s.streams := rfl
@[simp] theorem modPort_keeps_streamOrder : (s.modPort p f).streamOrder = s.streamOrder := rfl
@[simp] theorem modPort_keeps_lastOwner : (s.modPort p f).lastOwner = s.lastOwner := rfl
@[simp] theorem modPort_keeps_xfqHeld : (s.modPort p f).xfqHeld = s.xfqHeld := rfl
@[simp] theorem modPort_keeps_xlatInv : (s.modPort p f).xlatInv = s.xlatInv := rfl
@[simp] theorem modPort_keeps_queues : (s.modPort p f).queues = s.queues := rfl
@[simp] theorem modPort_keeps_bound : (s.modPort p f).bound = s.bound := rfl
@[simp] theorem modPort_keeps_hostOut : (s.modPort p f).hostOut = s.hostOut := rfl
@[simp] theorem modPort_keeps_hostHeld : (s.modPort p f).hostHeld = s.hostHeld := rfl
@[simp] theorem modPort_keeps_ceTimes : (s.modPort p f).ceTimes = s.ceTimes := rfl
@[simp] theorem modPort_keeps_notices : (s.modPort p f).notices = s.notices := rfl
@[simp] theorem modPort_keeps_msiCache : (s.modPort p f).msiCache = s.msiCache := rfl
@[simp] theorem modPort_keeps_evPhase : (s.modPort p f).evPhase = s.evPhase := rfl
@[simp] theorem modPort_keeps_hostReqs : (s.modPort p f).hostReqs = s.hostReqs := rfl
@[simp] theorem modPort_keeps_hostRsps : (s.modPort p f).hostRsps = s.hostRsps := rfl
@[simp] theorem modPort_keeps_folioFailed : (s.modPort p f).folioFailed = s.folioFailed := rfl
@[simp] theorem modPort_keeps_txbFailed : (s.modPort p f).txbFailed = s.txbFailed := rfl
@[simp] theorem modPort_keeps_folioMap : (s.modPort p f).folioMap = s.folioMap := rfl
@[simp] theorem modPort_keeps_txbMap : (s.modPort p f).txbMap = s.txbMap := rfl
@[simp] theorem modPort_keeps_tipin : (s.modPort p f).tipin = s.tipin := rfl
@[simp] theorem modPort_keeps_straps : (s.modPort p f).straps = s.straps := rfl
@[simp] theorem modPort_keeps_portFailed : (s.modPort p f).portFailed = s.portFailed := rfl
@[simp] theorem modPort_keeps_tierLast : (s.modPort p f).tierLast = s.tierLast := rfl
@[simp] theorem modPort_keeps_mgmt : (s.modPort p f).mgmt = s.mgmt := rfl
@[simp] theorem modPort_keeps_tags : (s.modPort p f).tags = s.tags := rfl
@[simp] theorem modPort_keeps_localQ : (s.modPort p f).localQ = s.localQ := rfl
@[simp] theorem modPort_keeps_ordHold : (s.modPort p f).ordHold = s.ordHold := rfl
@[simp] theorem modPort_keeps_ordHeld : (s.modPort p f).ordHeld = s.ordHeld := rfl
@[simp] theorem modPort_keeps_rte : (s.modPort p f).rte = s.rte := rfl
@[simp] theorem modPort_keeps_linkGen : (s.modPort p f).linkGen = s.linkGen := rfl
@[simp] theorem modPort_keeps_odrainEnd : (s.modPort p f).odrainEnd = s.odrainEnd := rfl
@[simp] theorem modPort_keeps_present : (s.modPort p f).present = s.present := rfl
@[simp] theorem modPort_keeps_wir : (s.modPort p f).wir = s.wir := rfl
@[simp] theorem modPort_keeps_heldWrites : (s.modPort p f).heldWrites = s.heldWrites := rfl
@[simp] theorem modPort_keeps_domMove : (s.modPort p f).domMove = s.domMove := rfl
@[simp] theorem modPort_keeps_domSaved : (s.modPort p f).domSaved = s.domSaved := rfl
@[simp] theorem modPort_keeps_domLost : (s.modPort p f).domLost = s.domLost := rfl
@[simp] theorem modPort_keeps_govSteps : (s.modPort p f).govSteps = s.govSteps := rfl
@[simp] theorem modPort_keeps_govLow : (s.modPort p f).govLow = s.govLow := rfl
@[simp] theorem modPort_keeps_vreq : (s.modPort p f).vreq = s.vreq := rfl
@[simp] theorem modPort_keeps_droop : (s.modPort p f).droop = s.droop := rfl
@[simp] theorem modPort_keeps_doorbells : (s.modPort p f).doorbells = s.doorbells := rfl
@[simp] theorem modPort_keeps_dbDrop : (s.modPort p f).dbDrop = s.dbDrop := rfl
@[simp] theorem modPort_keeps_armed : (s.modPort p f).armed = s.armed := rfl
@[simp] theorem modPort_keeps_tested : (s.modPort p f).tested = s.tested := rfl
@[simp] theorem modPort_keeps_admits : (s.modPort p f).admits = s.admits := rfl
@[simp] theorem modPort_keeps_svc : (s.modPort p f).svc = s.svc := rfl
@[simp] theorem modPort_keeps_calTrain : (s.modPort p f).calTrain = s.calTrain := rfl
@[simp] theorem modPort_keeps_calLink : (s.modPort p f).calLink = s.calLink := rfl
@[simp] theorem modPort_keeps_nodeRec : (s.modPort p f).nodeRec = s.nodeRec := rfl
@[simp] theorem modPort_keeps_txb : (s.modPort p f).txb = s.txb := rfl
@[simp] theorem modPort_keeps_calAt : (s.modPort p f).calAt = s.calAt := rfl
@[simp] theorem modPort_keeps_cxlUp : (s.modPort p f).cxlUp = s.cxlUp := rfl
@[simp] theorem modPort_keeps_dbgRingSel : (s.modPort p f).dbgRingSel = s.dbgRingSel := rfl
@[simp] theorem modPort_keeps_dbgCntSel : (s.modPort p f).dbgCntSel = s.dbgCntSel := rfl
@[simp] theorem modPort_keeps_dbgRsps : (s.modPort p f).dbgRsps = s.dbgRsps := rfl
@[simp] theorem modPort_keeps_free : (s.modPort p f).free = s.free := rfl
@[simp] theorem modPort_keeps_pending : (s.modPort p f).pending = s.pending := rfl
end modPort

section fresh
variable (s : State)
@[simp] theorem fresh_keeps_quires : s.fresh.2.quires = s.quires := rfl
@[simp] theorem fresh_keeps_mem : s.fresh.2.mem = s.mem := rfl
@[simp] theorem fresh_keeps_poison : s.fresh.2.poison = s.poison := rfl
@[simp] theorem fresh_keeps_win : s.fresh.2.win = s.win := rfl
@[simp] theorem fresh_keeps_gtime : s.fresh.2.gtime = s.gtime := rfl
@[simp] theorem fresh_keeps_atomics : s.fresh.2.atomics = s.atomics := rfl
@[simp] theorem fresh_keeps_xlat : s.fresh.2.xlat = s.xlat := rfl
@[simp] theorem fresh_keeps_ctxCache : s.fresh.2.ctxCache = s.ctxCache := rfl
@[simp] theorem fresh_keeps_errBanks : s.fresh.2.errBanks = s.errBanks := rfl
@[simp] theorem fresh_keeps_rings : s.fresh.2.rings = s.rings := rfl
@[simp] theorem fresh_keeps_counters : s.fresh.2.counters = s.counters := rfl
@[simp] theorem fresh_keeps_engines : s.fresh.2.engines = s.engines := rfl
@[simp] theorem fresh_keeps_frames : s.fresh.2.frames = s.frames := rfl
@[simp] theorem fresh_keeps_streams : s.fresh.2.streams = s.streams := rfl
@[simp] theorem fresh_keeps_streamOrder : s.fresh.2.streamOrder = s.streamOrder := rfl
@[simp] theorem fresh_keeps_lastOwner : s.fresh.2.lastOwner = s.lastOwner := rfl
@[simp] theorem fresh_keeps_xfqHeld : s.fresh.2.xfqHeld = s.xfqHeld := rfl
@[simp] theorem fresh_keeps_xlatInv : s.fresh.2.xlatInv = s.xlatInv := rfl
@[simp] theorem fresh_keeps_queues : s.fresh.2.queues = s.queues := rfl
@[simp] theorem fresh_keeps_bound : s.fresh.2.bound = s.bound := rfl
@[simp] theorem fresh_keeps_hostOut : s.fresh.2.hostOut = s.hostOut := rfl
@[simp] theorem fresh_keeps_hostHeld : s.fresh.2.hostHeld = s.hostHeld := rfl
@[simp] theorem fresh_keeps_ceTimes : s.fresh.2.ceTimes = s.ceTimes := rfl
@[simp] theorem fresh_keeps_notices : s.fresh.2.notices = s.notices := rfl
@[simp] theorem fresh_keeps_msiCache : s.fresh.2.msiCache = s.msiCache := rfl
@[simp] theorem fresh_keeps_evPhase : s.fresh.2.evPhase = s.evPhase := rfl
@[simp] theorem fresh_keeps_hostReqs : s.fresh.2.hostReqs = s.hostReqs := rfl
@[simp] theorem fresh_keeps_hostRsps : s.fresh.2.hostRsps = s.hostRsps := rfl
@[simp] theorem fresh_keeps_folioFailed : s.fresh.2.folioFailed = s.folioFailed := rfl
@[simp] theorem fresh_keeps_txbFailed : s.fresh.2.txbFailed = s.txbFailed := rfl
@[simp] theorem fresh_keeps_folioMap : s.fresh.2.folioMap = s.folioMap := rfl
@[simp] theorem fresh_keeps_txbMap : s.fresh.2.txbMap = s.txbMap := rfl
@[simp] theorem fresh_keeps_tipin : s.fresh.2.tipin = s.tipin := rfl
@[simp] theorem fresh_keeps_straps : s.fresh.2.straps = s.straps := rfl
@[simp] theorem fresh_keeps_portFailed : s.fresh.2.portFailed = s.portFailed := rfl
@[simp] theorem fresh_keeps_tierLast : s.fresh.2.tierLast = s.tierLast := rfl
@[simp] theorem fresh_keeps_mgmt : s.fresh.2.mgmt = s.mgmt := rfl
@[simp] theorem fresh_keeps_ports : s.fresh.2.ports = s.ports := rfl
@[simp] theorem fresh_keeps_tags : s.fresh.2.tags = s.tags := rfl
@[simp] theorem fresh_keeps_localQ : s.fresh.2.localQ = s.localQ := rfl
@[simp] theorem fresh_keeps_ordHold : s.fresh.2.ordHold = s.ordHold := rfl
@[simp] theorem fresh_keeps_ordHeld : s.fresh.2.ordHeld = s.ordHeld := rfl
@[simp] theorem fresh_keeps_rte : s.fresh.2.rte = s.rte := rfl
@[simp] theorem fresh_keeps_linkGen : s.fresh.2.linkGen = s.linkGen := rfl
@[simp] theorem fresh_keeps_odrainEnd : s.fresh.2.odrainEnd = s.odrainEnd := rfl
@[simp] theorem fresh_keeps_present : s.fresh.2.present = s.present := rfl
@[simp] theorem fresh_keeps_wir : s.fresh.2.wir = s.wir := rfl
@[simp] theorem fresh_keeps_heldWrites : s.fresh.2.heldWrites = s.heldWrites := rfl
@[simp] theorem fresh_keeps_domMove : s.fresh.2.domMove = s.domMove := rfl
@[simp] theorem fresh_keeps_domSaved : s.fresh.2.domSaved = s.domSaved := rfl
@[simp] theorem fresh_keeps_domLost : s.fresh.2.domLost = s.domLost := rfl
@[simp] theorem fresh_keeps_govSteps : s.fresh.2.govSteps = s.govSteps := rfl
@[simp] theorem fresh_keeps_govLow : s.fresh.2.govLow = s.govLow := rfl
@[simp] theorem fresh_keeps_vreq : s.fresh.2.vreq = s.vreq := rfl
@[simp] theorem fresh_keeps_droop : s.fresh.2.droop = s.droop := rfl
@[simp] theorem fresh_keeps_doorbells : s.fresh.2.doorbells = s.doorbells := rfl
@[simp] theorem fresh_keeps_dbDrop : s.fresh.2.dbDrop = s.dbDrop := rfl
@[simp] theorem fresh_keeps_armed : s.fresh.2.armed = s.armed := rfl
@[simp] theorem fresh_keeps_tested : s.fresh.2.tested = s.tested := rfl
@[simp] theorem fresh_keeps_admits : s.fresh.2.admits = s.admits := rfl
@[simp] theorem fresh_keeps_svc : s.fresh.2.svc = s.svc := rfl
@[simp] theorem fresh_keeps_calTrain : s.fresh.2.calTrain = s.calTrain := rfl
@[simp] theorem fresh_keeps_calLink : s.fresh.2.calLink = s.calLink := rfl
@[simp] theorem fresh_keeps_nodeRec : s.fresh.2.nodeRec = s.nodeRec := rfl
@[simp] theorem fresh_keeps_txb : s.fresh.2.txb = s.txb := rfl
@[simp] theorem fresh_keeps_calAt : s.fresh.2.calAt = s.calAt := rfl
@[simp] theorem fresh_keeps_cxlUp : s.fresh.2.cxlUp = s.cxlUp := rfl
@[simp] theorem fresh_keeps_dbgRingSel : s.fresh.2.dbgRingSel = s.dbgRingSel := rfl
@[simp] theorem fresh_keeps_dbgCntSel : s.fresh.2.dbgCntSel = s.dbgCntSel := rfl
@[simp] theorem fresh_keeps_dbgRsps : s.fresh.2.dbgRsps = s.dbgRsps := rfl
@[simp] theorem fresh_keeps_pending : s.fresh.2.pending = s.pending := rfl
end fresh

end Sys2Proof.Machine
end

