-- ==== Sys2Proof/Laws/Tehus.lean ====
section
/-!
SUPPORT. Tehus instructions: what a quire that is ready to run one leaves behind.
-/
namespace Sys2Proof.Machine

/-- Replacing a quire does not disturb a count of events. -/
theorem countEvent_setQ (s : State) (q : QuireId) (c : Quire) (u : Nat) (e : W16) (n : Nat) :
    (s.countEvent u e n).setQ q c = (s.setQ q c).countEvent u e n := rfl

theorem foldl_countEvent_setQ (u : Nat) (q : QuireId) (c : Quire) (es : List (W16 × Nat)) (s : State) :
    (es.foldl (fun s e => s.countEvent u e.1 e.2) s).setQ q c =
      es.foldl (fun s e => s.countEvent u e.1 e.2) (s.setQ q c) := by
  induction es generalizing s with
  | nil => rfl
  | cons e r ih => rw [List.foldl_cons, ih, countEvent_setQ, List.foldl_cons]

theorem foldl_countEvent_q (u : Nat) (q : QuireId) (es : List (W16 × Nat)) (s : State) :
    (es.foldl (fun s e => s.countEvent u e.1 e.2) s).q q = s.q q := by
  induction es generalizing s with
  | nil => rfl
  | cons e r ih => rw [List.foldl_cons, ih]; rfl

@[simp] theorem setQ_q (s : State) (q : QuireId) (c : Quire) : (s.setQ q c).q q = c := by
  simp [State.setQ, State.q]

theorem setQ_q_other (s : State) (q p : QuireId) (c : Quire) (h : p ≠ q) : (s.setQ q c).q p = s.q p := by
  have h' : q.val ≠ p.val := fun e => h (Fin.ext e.symm)
  simp [State.setQ, State.q, h']

@[simp] theorem setQ_setQ (s : State) (q : QuireId) (c d : Quire) : (s.setQ q c).setQ q d = s.setQ q d := by
  simp [State.setQ, Vector.set_set]

@[simp] theorem setQ_self (s : State) (q : QuireId) : s.setQ q (s.q q) = s := by
  simp [State.setQ, State.q]

/-- Retirement at a boundary where nothing is owed. -/
theorem finish_retire (t : State) (q : QuireId) (next : W64) (h : (t.q q).plain next) :
    Body.finish q (.retire t next) = t.retiredAs q (t.q q) next := by
  have h0 : (t.flushEvents q).q q = { t.q q with events := [] } := by
    simp [State.flushEvents, foldl_countEvent_q, State.modQ]
  have h1 : t.flushEvents q = (t.q q).events.foldl (fun s e => s.countEvent (unitCode 1 q.val) e.1 e.2)
      (t.setQ q { t.q q with events := [] }) := rfl
  have hs : ({ t.q q with events := [] } : Quire).pl = (t.q q).pl := rfl
  have hss : ({ t.q q with events := [] } : Quire).singleStep = (t.q q).singleStep := rfl
  have hb : bits next 63 56 = 0 := by
    have h2 := h.2
    simp only [bits, Nat.div_eq_of_lt h2, Nat.zero_mod]
  have hn : ((t.q q).pl = 0 && (t.q q).singleStep) = false := by
    by_cases hp : (t.q q).pl = 0
    · simp [h.1 hp]
    · simp [hp]
  unfold Body.finish State.retire State.retireAt State.retiredAs
  simp only [h0, hs, hss, hn, hb, Bool.false_eq_true, ↓reduceIte, ne_eq, not_true_eq_false,
    List.foldl_append, List.foldl_cons, List.foldl_nil]
  rw [h1, foldl_countEvent_setQ, setQ_setQ]
  rfl

/-- A ready quire runs the body of its instruction. -/
theorem tehus_of_ready {s t : State} {q : QuireId} {len : Nat} (h : s.Ready q len t) (body : State → Body) :
    s.tehus q len true body = .next ((body t).finish q) := by
  obtain ⟨h1, h2, h3, h4, h5⟩ := h
  simp only [State.tehus, h1, h2, h3, h4, h5, ↓reduceIte, Bool.false_eq_true]

/-- An instruction whose body, where `p` holds, only changes its quire retires there. -/
theorem retires_of_body {p : Quire → Prop} {i : Instr} {q : QuireId} {len : Nat} {f : Quire → Quire}
    {next : Quire → W64} (body : State → Body) (hx : ∀ s, exec i s = s.tehus q len true body)
    (hb : ∀ t, p (t.q q) → body t = .retire (t.modQ q f) (next (t.q q))) : RetiresWhen p i q len f next := by
  intro s t h hp hn
  rw [hx, tehus_of_ready h, hb t hp, finish_retire _ _ _ (by simpa [State.modQ] using hn)]
  simp [State.modQ, State.retiredAs]

/-- An instruction whose body, where `p` holds, raises an exception takes it there. -/
theorem traps_of_body {p : Quire → Prop} {i : Instr} {q : QuireId} {len : Nat} {e : Exc} (body : State → Body)
    (hx : ∀ s, exec i s = s.tehus q len true body) (hb : ∀ t, p (t.q q) → body t = .trap t e) :
    TrapsWhen p i q len e := by
  intro s t h hp
  rw [hx, tehus_of_ready h, hb t hp]
  rfl

end Sys2Proof.Machine
end

