-- ==== Sys2Proof/WellFormed.lean ====
section
/-!
DEFINITION. Well-formed commands. The operand types already bound nearly every operand to what the block has (Word.lean);
the five commands below have operands that a type does not bound. Their meanings refuse the same terms.
-/
namespace Sys2Proof

open Sys2Proof.Machine

/-- A command names units, columns and opcodes that the block has. -/
def Instr.wf : Instr → Bool
  | .illegal _ _ w => !assignedOpcode (bits w 15 8)
  | .unitFailed type inst _ => decide (inst.toNat < unitCount type.toNat)
  | .calibration type inst _ ns =>
    decide (5 ≤ type.toNat) && decide (type.toNat ≤ 7) && decide (inst.toNat < unitCount type.toNat) && decide (ns.toNat ≤ 2000)
  | .targetedRowRefresh type inst =>
    decide (5 ≤ type.toNat) && decide (type.toNat ≤ 7) && decide (inst.toNat < unitCount type.toNat)
  | .scrubRowStep _ ces _ => ces.all (fun e => decide (e.2.1.toNat < 17920))
  | _ => true

end Sys2Proof
end

