-- ==== Sys2Proof/Tests/Slice0.lean ====
section
/-!
SUPPORT. Tests: the checks of WellFormed refuse ill-formed commands; worked examples of the spec; and, for every statement
that has hypotheses, a concrete state and operands that meet them (`wit_<statement>`).
-/
namespace Sys2Proof.Tests
open Sys2Proof Sys2Proof.Machine
set_option Elab.async false

/-! ## States to witness with -/

/-- Right after reset, with quire 0 running as `c`. -/
def run (c : Quire) : State := State.reset.setQ 0 { c with st := .running }

/-- A quire with control registers. -/
def crs (l : List (Nat × W64)) : Quire := { cr := l }

/-- What fetching an instruction leaves. -/
def fetched (s : State) (q : QuireId) (len : Nat) : State := (((s.dueIrq q).2.issue q).fetchFault q len true).2

/-- Whether an instruction of `len` bytes is ready to run. -/
def readyB (s : State) (q : QuireId) (len : Nat) : Bool :=
  s.canIssue q && (s.q q).pendingList.isEmpty && (s.dueIrq q).1.isNone && !(s.dueIrq q).2.fetchHeld q len &&
    (((s.dueIrq q).2.issue q).fetchFault q len true).1.isNone

theorem ready_of {s : State} {q : QuireId} {len : Nat} (h : readyB s q len = true) :
    s.Ready q len (fetched s q len) := by
  simp only [readyB, Bool.and_eq_true, List.isEmpty_iff, Option.isNone_iff_eq_none, Bool.not_eq_true'] at h
  exact ⟨h.1.1.1.1, h.1.1.1.2, h.1.1.2, h.1.2, Prod.ext h.2 rfl⟩

/-- Whether the first word of an instruction is ready. -/
def readyFirstB (s : State) (q : QuireId) (len : Nat) : Bool :=
  s.canIssue q && (s.q q).pendingList.isEmpty && (s.dueIrq q).1.isNone && !(s.dueIrq q).2.fetchHeld q len &&
    (((s.dueIrq q).2.issue q).fetchWord q (((s.dueIrq q).2.issue q).q q).pc64).1.isNone

theorem readyFirst_of {s : State} {q : QuireId} {len : Nat} (h : readyFirstB s q len = true) :
    ∃ t, s.ReadyFirst q len t := by
  simp only [readyFirstB, Bool.and_eq_true, List.isEmpty_iff, Option.isNone_iff_eq_none, Bool.not_eq_true'] at h
  exact ⟨_, h.1.1.1.1, h.1.1.1.2, h.1.1.2, h.1.2, Prod.ext h.2 rfl⟩

/-- Some state is ready to run an instruction of `len` bytes on quire 0, which meets `p` after the fetch. -/
def Seen (len : Nat) (p : Quire → Prop) : Prop := ∃ s t : State, s.Ready 0 len t ∧ p (t.q 0)

theorem seen {len : Nat} {p : Quire → Prop} [DecidablePred p] (c : Quire)
    (h : (readyB (run c) 0 len && decide (p ((fetched (run c) 0 len).q 0))) = true) : Seen len p := by
  rw [Bool.and_eq_true, decide_eq_true_eq] at h
  exact ⟨_, _, ready_of h.1, h.2⟩

/-- The same of a state `s0` and of what the fetch leaves of it. -/
def SeenS (len : Nat) (p : State → Prop) : Prop := ∃ s t : State, s.Ready 0 len t ∧ p t

theorem seenS {len : Nat} {p : State → Prop} [DecidablePred p] (s : State)
    (h : (readyB s 0 len && decide (p (fetched s 0 len))) = true) : SeenS len p := by
  rw [Bool.and_eq_true, decide_eq_true_eq] at h
  exact ⟨_, _, ready_of h.1, h.2⟩

/-- At PL0, with virtual addresses below 32 MiB mapped to themselves: a segment table at 0x4000 and a leaf at 0x5000. -/
def user : State :=
  { run (crs [(0, 0), (0x080, 1), (0x081, 0x4000)]) with
    mem := [(0x4008, 0xFF), (0x4009, 0xFF), (0x400A, 0xFF), (0x400B, 1), (0x4011, 0x50), (0x4018, 0x3F), (0x4019, 0x20),
      (0x5000, 3)] }

theorem seenUser {len : Nat} {p : Quire → Prop} [DecidablePred p]
    (h : (readyB user 0 len && decide (p ((fetched user 0 len).q 0))) = true) : Seen len p := by
  rw [Bool.and_eq_true, decide_eq_true_eq] at h
  exact ⟨_, _, ready_of h.1, h.2⟩

theorem pair_of {α β : Type} {p : α × β} {a : α} (h : p.1 = a) : p = (a, p.2) := Prod.ext h rfl

/-- Whether an answer is an error. -/
def isErr {ε α : Type} : Except ε α → Bool
  | .error _ => true
  | .ok _ => false

theorem ok_of {ε α β : Type} [DecidableEq α] {p : Except ε α × β} {a : α}
    (h : (match p.1 with | .ok x => decide (x = a) | .error _ => false) = true) : p = (.ok a, p.2) := by
  obtain ⟨x, y⟩ := p
  cases x with
  | error e => simp at h
  | ok x => simp only [decide_eq_true_eq] at h; rw [h]

/-! ## Number formats, integer and floating-point instructions -/

/-- R26, R27: the largest magnitudes of FP8-V and FP8-G. -/
theorem test_eight_bit_formats :
    fp8v.read false 255 = .fin true 15 5 ∧ fp8g.read true 127 = .fin false 7 14 := by decide +kernel

theorem wit_EightBitFormats : (15 < 16 ∧ 7 < 8) ∧ (31 < 32 ∧ 3 < 4) := by decide

theorem wit_GeneralRegisterZero : (63 : GReg) ≠ 0 ∧ (1 : GReg) ≠ 63 := by decide

theorem wit_IntegerArithmetic :
    Seen 4 (fun c => c.plain (Quire.past 4 c)) ∧ Seen 8 (fun c => c.plain (Quire.past 8 c)) :=
  ⟨seen {} (by decide +kernel), seen {} (by decide +kernel)⟩

/-- The range of R82, without and with its trap enable, and the corners of a division. -/
theorem wit_ProductsAndDivisions :
    let sum (c : Quire) : Int := (c.gr 1).toInt + (c.gr 2).toInt
    Seen 4 (fun c => FitsSigned 64 (sum c) ∧ sum c = 2 ^ 63 - 1) ∧
    Seen 4 (fun c => sum c = 2 ^ 63 ∧ ¬ FitsSigned 64 (sum c) ∧ (c.crGet 0x024).getLsbD 1 = false) ∧
    Seen 4 (fun c => ¬ FitsSigned 64 (sum c) ∧ (c.crGet 0x024).getLsbD 1 = true) ∧
    Seen 4 (fun c => c.gr 0 = 0 ∧ (c.crGet 0x024).getLsbD 0 = false) ∧
    Seen 4 (fun c => c.gr 0 = 0 ∧ (c.crGet 0x024).getLsbD 0 = true) ∧
    Seen 4 (fun c => c.gr 1 = BitVec.intMin 64 ∧ c.gr 2 = BitVec.allOnes 64 ∧ (c.crGet 0x024).getLsbD 1 = false) ∧
    Seen 4 (fun c => c.gr 1 = BitVec.intMin 64 ∧ c.gr 2 = BitVec.allOnes 64 ∧ (c.crGet 0x024).getLsbD 1 = true) := by
  let big : Quire := { g := (Vector.replicate 64 0).set 1 0x7FFFFFFFFFFFFFFF#64 }
  let min (l : List (Nat × W64)) : Quire :=
    { cr := l, g := ((Vector.replicate 64 0).set 1 0x8000000000000000#64).set 2 (BitVec.allOnes 64) }
  exact ⟨seen big (by decide +kernel), seen { big with g := big.g.set 2 1 } (by decide +kernel),
    seen { big with g := big.g.set 2 1, cr := [(0x024, 2)] } (by decide +kernel), seen {} (by decide +kernel),
    seen (crs [(0x024, 1)]) (by decide +kernel), seen (min []) (by decide +kernel),
    seen (min [(0x024, 2)]) (by decide +kernel)⟩

/-- A branch taken, one not taken, and a jump to an address of more than 56 bits. -/
theorem wit_BranchesAndJumps :
    Seen 4 (fun c => c.gr 1 = c.gr 2 ∧ c.plain (c.pc64 + 4 * 4)) ∧
    Seen 4 (fun c => ¬ (c.gr 1).toInt < (c.gr 2).toInt ∧ c.plain (Quire.past 4 c)) ∧
    Seen 4 (fun c => 2 ^ 56 ≤ ((c.gr 1 + 0) &&& ~~~3#64).toNat ∧ (c.pl = 0 → c.singleStep = false)) :=
  ⟨seen {} (by decide +kernel), seen {} (by decide +kernel),
    seen { g := (Vector.replicate 64 0).set 1 0x100000000000000#64 } (by decide +kernel)⟩

/-- A mode that is accepted, and RDN in SERVE mode, which is not (R42). -/
theorem wit_FloatingArithmetic :
    Seen 4 (fun c => ModeLegal c .scl none ∧ modeIn c .scl none = .rne ∧ c.plain (Quire.past 4 c)) ∧
    Seen 8 (fun c => ModeLegal c .scl (some 2) ∧ modeIn c .scl (some 2) = .rdn ∧ c.plain (Quire.past 8 c)) ∧
    Seen 8 (fun c => ¬ ModeLegal c .scl (some 2)) :=
  ⟨seen {} (by decide +kernel), seen (crs [(0x020, 1)]) (by decide +kernel), seen {} (by decide +kernel)⟩

/-- Each mode field at its end and one beyond it, in each engine. -/
theorem wit_RoundingModes :
    (ModeLegal {} .scl (some 4) ∧ ¬ ModeLegal {} .scl (some 5)) ∧ (ModeLegal {} .plg (some 3) ∧ ¬ ModeLegal {} .prs (some 3)) ∧
    (modeCode (crs [(0x020, 0x100)]) .prs none = 2 ∧ ¬ ModeLegal (crs [(0x020, 0x101)]) .prs (some 7)) := by decide +kernel

/-- Conversions that round, that are exact, that are illegal, and a word that cannot be fetched as an instruction. -/
theorem wit_FloatingSelection :
    Seen 8 (fun c => ModeLegal c .scl (some 1)) ∧ Seen 8 (fun c => ¬ ModeLegal c .scl (some 5)) ∧
    cvtExact (cvtType 4) (cvtType 5) = true ∧ cvtExact (cvtType 0) (cvtType 5) = false ∧
    ∃ s t : State, s.ReadyFirst 0 4 t :=
  ⟨seen {} (by decide +kernel), seen {} (by decide +kernel), by decide +kernel, by decide +kernel, run {},
    readyFirst_of (by decide +kernel)⟩

/-! ## System instructions, control registers and exceptions -/

/-- Every tag of the block, taken. -/
def allTags : List Tag := (List.range 4096).map (fun n => ⟨BitVec.ofNat 12 n, 1, 0, .held⟩)

theorem freeTag_none {s : State} (h : s.tags = allTags) : s.freeTag = none := by
  unfold State.freeTag
  simp only [Option.map_eq_none_iff, List.find?_eq_none, h]
  intro n _ hn
  simp only [Bool.and_eq_true, decide_eq_true_eq, Bool.not_eq_true', List.any_eq_false] at hn
  refine hn.2 ⟨BitVec.ofNat 12 n, 1, 0, .held⟩ (List.mem_map.mpr ⟨n, List.mem_range.mpr hn.1, rfl⟩) ?_
  simp [Nat.mod_eq_of_lt hn.1]

/-- A store of one byte to another node. -/
def heldStore : W64 × Nat × Nat × Nat := (0, 2 ^ 46, 1, 5)
/-- A quire that holds it, where the tags are `T`. -/
def heldState (T : List Tag) : State := { run { stores := [heldStore] } with tags := T }

theorem held_waits {t : State} {e : W64 × Nat × Nat × Nat} (hs : (t.q 0).stores = [])
    (h : ((t.ctxEntry (t.q 0).ctx).2).freeTag = none) : ((t.sendStore 0 e).q 0).stores = [e] := by
  have hw : t.sendStore 0 e = t.modQ 0 (fun c => { c with stores := c.stores ++ [e] }) := by
    unfold State.sendStore
    simp only [hs, State.request, h]
    rfl
  rw [hw, State.modQ, setQ_q]
  simp [hs]

theorem ctxEntry_off {t : State} (c : CtxId) (hc : t.ctxCache = []) (hb : bit (t.reg 0x200) 0 = false) :
    t.ctxEntry c = (none, t) := by
  simp [State.ctxEntry, State.cachedUse, State.ctxRead, hc, hb]

theorem heldState_waits (T : List Tag) (hT : ∀ s : State, s.tags = T → s.freeTag = none) :
    (((heldState T).drain 0).q 0).stores = [heldStore] ∧ (((heldState T).drainStores 0).q 0).stores = [heldStore] := by
  have ha : (heldState T).drainAtomics 0 = heldState T := rfl
  have hq : ((heldState T).q 0).stores = [heldStore] := rfl
  have hd : (((heldState T).drainStores 0).q 0).stores = [heldStore] := by
    unfold State.drainStores
    simp only [hq, List.foldl]
    generalize hu : (heldState T).modQ 0 (fun c => { c with stores := [] }) = u
    have hb : bit (u.reg 0x200) 0 = false := by
      subst hu; exact (by decide +kernel : bit (State.reset.reg 0x200) 0 = false)
    have hr : u.remotePa heldStore.2.1 = true := by
      subst hu; exact (by decide +kernel : State.reset.remotePa heldStore.2.1 = true)
    have hc : cutStore (heldStore.2.2.1 / 128 + 1) heldStore = [heldStore] := by decide +kernel
    have hs : (u.q 0).stores = [] := by subst hu; rfl
    simp only [hr, if_true, hc, List.foldl]
    refine held_waits hs ?_
    rw [ctxEntry_off _ (by subst hu; rfl) hb]
    exact hT u (by subst hu; rfl)
  exact ⟨by rw [State.drain, ha]; exact hd, hd⟩

/-- Nothing is buffered; a store error is pending; a posted atomic is at the host. -/
theorem wit_Fences :
    SeenS 4 (fun t => let u := t.drain 0
      (u.q 0).stores = [] ∧ u.storesOut 0 = false ∧ (u.q 0).storeErr = none ∧ (u.q 0).plain ((u.q 0).past 4)) ∧
    SeenS 4 (fun t => (t.drain 0).storesOut 0 = false ∧ ((t.drain 0).q 0).storeErr = some ⟨8, 3, true⟩) ∧
    SeenS 4 (fun t => (t.drain 0).storesOut 0 = true) ∧ SeenS 4 (fun t => ((t.drainStores 0).q 0).stores = []) ∧
    ∃ t : State, ((t.drain 0).q 0).stores ≠ [] ∧ ((t.drainStores 0).q 0).stores ≠ [] :=
  ⟨seenS (run {}) (by decide +kernel), seenS (run { storeErr := some ⟨8, 3, true⟩ }) (by decide +kernel),
    seenS { run {} with hostReqs := [⟨0, 0, some 8⟩] } (by decide +kernel), seenS (run {}) (by decide +kernel),
    heldState allTags, by
      have h := heldState_waits allTags (fun _ => freeTag_none)
      rw [h.1, h.2]
      simp⟩

/-- Each level of WAIT and HALT; a quire that waits, without and with a pending interrupt. -/
theorem wit_SystemInstructions :
    Seen 4 (fun c => c.pl = 0) ∧ Seen 4 (fun c => 1 ≤ c.pl ∧ c.pl < 2 ∧ c.plain (Quire.past 4 c)) ∧ Seen 4 (fun c => c.pl = 2) ∧
    (∃ s : State, (s.q 0).stall = .wait ∧ (s.q 0).irq = 0 ∧ s.timerPending (s.q 0) = false) ∧
    (∃ s : State, (s.q 0).stall = .wait ∧ (s.q 0).st = .running ∧ s.down = false ∧ (s.q 0).irq ≠ 0) ∧
    SeenS 4 (fun t => (t.q 0).pl = 2 ∧ (1 : QuireId) ≠ 0 ∧ (t.q 1).ctx = (t.q 0).ctx ∧ (t.q 1).st = .running) :=
  ⟨seenUser (by decide +kernel), seen (crs [(0, 0x1000)]) (by decide +kernel), seen {} (by decide +kernel),
    ⟨run { stall := .wait }, by decide +kernel⟩, ⟨run { stall := .wait, irq := 1 }, by decide +kernel⟩,
    seenS ((run {}).setQ 1 { st := .running }) (by decide +kernel)⟩

/-- L2 off, on, and changing; and a completion. -/
theorem wit_CacheInvalidation :
    let off : State := (run {}).setReg 0x100108 0xF0000
    let busy : State := (run {}).setReg 0x100108 2
    Seen 4 (fun c => c.pl = 0) ∧
    SeenS 4 (fun t => 1 ≤ (t.q 0).pl ∧ t.l2Busy 0 = false ∧ t.l2On 0 = true ∧ (t.q 0).plain ((t.q 0).past 4)) ∧
    (readyB off 0 4 = true ∧ (let t := fetched off 0 4; 1 ≤ (t.q 0).pl ∧ t.l2Busy 0 = false ∧ t.l2On 0 = false)) ∧
    (readyB busy 0 4 = true ∧ (let t := fetched busy 0 4; 1 ≤ (t.q 0).pl ∧ t.l2Busy 0 = true)) ∧
    (let s := run { l2Cinv := true, l2 := [(7, .shared, 0)] }
     (s.q 0).l2Cinv = true ∧ s.l2Busy 0 = false ∧ (∀ e ∈ (s.q 0).l2, e.2.1 ≠ .modified) ∧ (s.q 0).evict = [] ∧
       (s.q 0).action ≠ 1) :=
  ⟨seenUser (by decide +kernel), seenS (run {}) (by decide +kernel), by decide +kernel, by decide +kernel,
    by decide +kernel⟩

/-- SCR0, which PL0 writes, and EDTB below its level. -/
theorem wit_ControlRegisters :
    (∃ info, crInfo 0x0C0 = some info ∧ PlainCr 0x0C0 ∧
      Seen 4 (fun c => info.wl ≤ c.pl ∧ info.rl ≤ c.pl ∧ info.ro = false ∧ crValid 0x0C0 7 = true ∧
        c.plain (Quire.past 4 c))) ∧
    (∃ info, crInfo 0x010 = some info ∧ PlainCr 0x010 ∧ Seen 4 (fun c => c.pl < info.rl ∧ c.pl < info.wl)) ∧
    (∃ info, crInfo 0x001 = some info ∧ PlainCr 0x001 ∧ info.ro = true ∧ info.rl = 0 ∧ info.wl = 0) ∧
    sOk crReset 0 ({} : Quire).cr = true :=
  ⟨⟨_, rfl, by decide, seen {} (by decide +kernel)⟩, ⟨_, rfl, by decide, seenUser (by decide +kernel)⟩,
    ⟨_, rfl, by decide, rfl, rfl, rfl⟩, by decide⟩

/-- A handler at 0x2000 for exception n, at PL2 and with ML 0 (R242), `sw` being its stack code. -/
def handler (n sw : Nat) : List Host.Cell := [(16 * n + 1, 0x20), (16 * n + 9, BitVec.ofNat 8 (0x20 + sw)), (16 * n + 11, 0x80)]

/-- The descriptor that `handler` lists. -/
def handlerDesc (sw : Nat) : BitVec 128 := BitVec.ofNat 128 (2 ^ 95 + 2 ^ 77 + sw * 2 ^ 72 + 0x2000)

/-- PL2 with ML 0, and a handler for SYSCALL. -/
def sysState (sw : Nat) (l : List (Nat × W64)) : State :=
  { run (crs ((0, 0x2000) :: l)) with mem := handler 13 sw }

theorem sysState_entry :
    (let b := beforeEntry (sysState 0 []) 0
     (b.readDescriptor 0 13).1 = some (handlerDesc 0) ∧ ((sysState 0 []).q 0).escalated = false ∧
       ((sysState 0 []).q 0).ml < syncLevel 13 ∧ descInvalid (handlerDesc 0) ((b.readDescriptor 0 13).2.q 0).pl = false ∧
       descSwitch (handlerDesc 0) ((b.readDescriptor 0 13).2.q 0).pl = false ∧ CrCanon ((b.readDescriptor 0 13).2.q 0)) := by
  decide +kernel

theorem wit_ExceptionEntry : ∃ (s u : State) (e : Exc) (d : BitVec 128),
    (beforeEntry s 0).readDescriptor 0 e.num = (some d, u) ∧ (s.q 0).escalated = false ∧ (s.q 0).ml < syncLevel e.num ∧
      descInvalid d (u.q 0).pl = false ∧
      (descSwitch d (u.q 0).pl = true → topOf ((u.q 0).crGet (0x017 + (d.extractLsb' 76 2).toNat)) ≠ 0) ∧ CrCanon (u.q 0) := by
  have h := sysState_entry
  exact ⟨sysState 0 [], ((beforeEntry (sysState 0 []) 0).readDescriptor 0 13).2, ⟨13, 0, 0, 0, false⟩, handlerDesc 0,
    pair_of h.1, h.2.1, h.2.2.1, h.2.2.2.1,
    fun x => absurd x (by rw [h.2.2.2.2.1]; decide), h.2.2.2.2.2⟩

/-- The five ways of R248 and R249: during an escalation, at level, without a descriptor, with an invalid one, without
a stack. -/
theorem wit_Escalation :
    CrCanon ((run {}).q 0) ∧ ((run (crs [(0, 0xF2080)])).q 0).escalated = true ∧
    syncLevel 13 ≤ ((run {}).q 0).ml ∧
    ((beforeEntry (run (crs [(0, 0x2000), (0x010, 0x4000000000000)])) 0).readDescriptor 0 13).1 = none ∧
    (let u := (beforeEntry (run (crs [(0, 0x2000)])) 0).readDescriptor 0 13
     u.1 = some 0 ∧ descInvalid 0 (u.2.q 0).pl = true) ∧
    (let u := (beforeEntry (sysState 1 []) 0).readDescriptor 0 13
     u.1 = some (handlerDesc 1) ∧ descInvalid (handlerDesc 1) (u.2.q 0).pl = false ∧
       descSwitch (handlerDesc 1) (u.2.q 0).pl = true ∧ topOf ((u.2.q 0).crGet (0x017 + 2)) = 0) := by
  decide +kernel

/-- From an escalation, with and without a switched stack, at PL0, and to a higher level. -/
theorem wit_ExceptionReturn :
    let level (x : W64) : Nat := (x.extractLsb' 12 2).toNat
    Seen 4 (fun c => 1 ≤ c.pl ∧ c.escalated = true ∧ level (c.crGet 0x01D) ≤ c.pl) ∧
    Seen 4 (fun c => 1 ≤ c.pl ∧ c.escalated = false ∧ level (c.crGet 0x012) ≤ c.pl ∧ (c.crGet 0x013).getLsbD 31 = true) ∧
    Seen 4 (fun c => 1 ≤ c.pl ∧ c.escalated = false ∧ level (c.crGet 0x012) ≤ c.pl ∧ (c.crGet 0x013).getLsbD 31 = false) ∧
    Seen 4 (fun c => c.pl = 0) ∧
    Seen 4 (fun c => c.pl < level (c.crGet (if c.escalated then 0x01D else 0x012))) :=
  ⟨seen (crs [(0, 0xF2080)]) (by decide +kernel), seen (crs [(0x013, 0x80000000)]) (by decide +kernel),
    seen {} (by decide +kernel), seenUser (by decide +kernel),
    seen (crs [(0, 0x1000), (0x012, 0x2000)]) (by decide +kernel)⟩

theorem wit_IllegalWord : (∃ s t : State, s.ReadyFirst 0 4 t) ∧
    ((0x80#32).toNat % 128 = 0 ∧ (0xFFFFFFFF#32).toNat % 128 = 0x7F) :=
  ⟨⟨run {}, readyFirst_of (by decide +kernel)⟩, by decide⟩

/-- What a meaning leaves, where it leaves one. -/
def after (o : Host.Outcome State Fault Refusal) (s : State) : State :=
  match o with
  | .next t => t
  | _ => s

theorem wit_SystemCallRoundTrip : ∃ s t u v w : State, ∃ d : BitVec 128,
    s.Ready 0 4 t ∧ CrCanon (t.q 0) ∧ (t.q 0).escalated = false ∧ (t.q 0).ml < 8 ∧
    (beforeEntry (t.flushEvents 0) 0).readDescriptor 0 13 = (some d, u) ∧ descInvalid d (u.q 0).pl = false ∧
    descSwitch d (u.q 0).pl = false ∧ ((t.q 0).pl = 0 → (t.q 0).singleStep = false) ∧
    restored ((t.q 0).crGet 0) = (t.q 0).crGet 0 ∧ exec (.syscall 0) s = .next v ∧ v.Ready 0 4 w := by
  let s := sysState 0 []
  let t := fetched s 0 4
  refine ⟨s, t, ((beforeEntry (t.flushEvents 0) 0).readDescriptor 0 13).2, after (execSyscall 0 s) s, _, handlerDesc 0,
    ready_of (by decide +kernel), by decide +kernel, by decide +kernel, by decide +kernel, pair_of (by decide +kernel),
    by decide +kernel, by decide +kernel, by decide +kernel, by decide +kernel, ?_, ready_of (by decide +kernel)⟩
  change execSyscall 0 s = _
  have h : (match execSyscall 0 s with | .next _ => true | _ => false) = true := by decide +kernel
  revert h
  unfold after
  cases execSyscall 0 s <;> simp

/-- Interrupt 64 alone is pending, at this STATUS. -/
def irqState (st : W64) : State :=
  { run { cr := [(0, st)], irq := 0x10000000000000000 } with mem := [(0x401, 0x20), (0x409, 0x20), (0x40A, 1), (0x40B, 0x80)] }

/-- A lone interrupt above ML, and one at ML; one due in place of an instruction; Q_IRQ_SET; TIMER. -/
theorem wit_Interrupts :
    ((irqState 0x2000).pendingNums ((irqState 0x2000).q 0) = [64] ∧ ((irqState 0x2000).q 0).runs = true ∧
      ((irqState 0x2000).q 0).stall = .none ∧ ((irqState 0x2000).q 0).escalated = false ∧ (irqState 0x2000).canIssue 0 = true ∧
      ((irqState 0x2000).q 0).pendingList = []) ∧
    ((irqState 0xF2000).pendingNums ((irqState 0xF2000).q 0) = [64] ∧ ((irqState 0xF2000).q 0).runs = true ∧
      ((irqState 0xF2000).q 0).stall = .none ∧ ((irqState 0xF2000).q 0).escalated = false ∧ (irqState 0xF2000).canIssue 0 = true ∧
      ((irqState 0xF2000).q 0).pendingList = []) ∧
    (((irqState 0x2000).modQ 0 (fun c => { c with deferred := [], useOld := [] })).irqLevel 0 64).1 = 1 ∧
    (((irqState 0xF2000).modQ 0 (fun c => { c with deferred := [], useOld := [] })).irqLevel 0 64).1 = 1 ∧
    ((irqState 0x2000).q 0).ml = 0 ∧ ((irqState 0xF2000).q 0).ml = 15 ∧ ((irqState 0x2000).dueIrq 0).1.isSome = true ∧
    ((run {}).q 0).irq = 0 ∧ ((run {}).q 0).storeErr = none ∧ (run {}).timerPending ((run {}).q 0) = false ∧
    ((State.reset.setQ 0 { st := .idle }).q 0).st = .idle ∧ State.reset.domState 0 = 0 ∧
    (((run (crs [(0x01F, 0x8000000000000001)])).q 0).crGet 0x01F).getLsbD 63 = true ∧
    (run {}).gtime.toNat < (0x8000000000000001#64).toNat % 2 ^ 63 := by
  refine ⟨?_, ?_, ?_, ?_, ?_, ?_, ?_⟩ <;> decide +kernel

/-! ## Memory -/

theorem wit_WritesReadBack : Canon State.reset.mem ∧ Canon [((5 : Nat), (7 : Byte))] := by decide

theorem wit_TranslationFrame : (∃ s t : State, s.Ready 0 8 t ∧ s.pendingNums (s.q 0) = [] ∧ RoomToEvict (s.q 0)) ∧
    ∃ (t u : State) (pas : List Nat), t.access 0 .store 3 0 true 0x100 2 = (.ok pas, u) :=
  ⟨⟨_, _, ready_of (s := run {}) (by decide +kernel), by decide +kernel, by decide +kernel⟩, run {}, _, [0x100, 0x101],
    ok_of (by decide +kernel)⟩

/-- A doubleword in the folio, at its greatest negative offset from a base. -/
theorem wit_ScalarLoads : ∃ (s t u : State) (pas : List Nat), s.Ready 0 (immLen (.short 0x800)) t ∧
    Passes t 0 .load 2 1 ((t.q 0).gr 1 + immVal (.short 0x800)) 8 pas u ∧ InMemory (u.drain 0) pas ∧
    RoomToEvict ((u.drain 0).q 0) ∧ ((u.drain 0).q 0).plain (((u.drain 0).q 0).past 4) ∧
    ((u.drain 0).q 0).l1d ++ ((u.drain 0).q 0).victim = [] := by
  let s := run { g := (Vector.replicate 64 0).set 1 0x900 }
  refine ⟨s, fetched s 0 4, _, (List.range 8).map (fun i => 0x100 + i), ready_of (by decide +kernel),
    ⟨?_, ?_, ok_of (by decide +kernel), ?_⟩, ?_, ?_, ?_, ?_⟩ <;> decide +kernel

theorem wit_ScalarStores : ∃ (s t u : State) (pas : List Nat), s.Ready 0 (immLen (.long 0x100)) t ∧
    Passes t 0 .store 3 0 ((t.q 0).gr 0 + immVal (.long 0x100)) 8 pas u ∧ InMemory (u.drain 0) pas ∧
    RoomToEvict ((u.drain 0).q 0) ∧ ((u.drain 0).q 0).plain (((u.drain 0).q 0).past 8) ∧ Canon (u.drain 0).mem := by
  let s := run {}
  refine ⟨s, fetched s 0 8, _, (List.range 8).map (fun i => 0x100 + i), ready_of (by decide +kernel),
    ⟨?_, ?_, ok_of (by decide +kernel), ?_⟩, ?_, ?_, ?_, ?_⟩ <;> decide +kernel

/-- A base g63 below the stack in force, and an address in no region. -/
theorem wit_AccessFaults :
    (let s := run { cr := [(0x019, 0x3000000000003000)], g := (Vector.replicate 64 0).set 63 0x1FFF }
     readyB s 0 4 = true ∧ ((fetched s 0 4).q 0).stackLow 63 0x1FFF = true ∧ ((fetched s 0 4).q 0).stackLow 63 0x2000 = false) ∧
    (let s := run { g := (Vector.replicate 64 0).set 1 0x80000000000#64 }
     let t := fetched s 0 4
     readyB s 0 4 = true ∧ (t.q 0).stackLow 1 0x80000000000#64 = false ∧
       isErr (t.access 0 .load 2 0 true 0x80000000000#64 8).1 = true ∧
       isErr (t.access 0 .store 3 0 true 0x80000000000#64 8).1 = true) := by
  decide +kernel

/-- A far atomic in the folio, and one whose line L2 owns in the text block. -/
theorem wit_ScalarAtomics : ∀ near : Bool, ∃ (s t u : State) (pas : List Nat), s.Ready 0 4 t ∧
    Passes t 0 (.atomic false) 4 1 ((t.q 0).gr 1) 8 pas u ∧
    (u.drain 0).remotePa (pas.headD 0) = false ∧ (regionOf (localOf (pas.headD 0))).memory = true ∧
    (let d := (u.drain 0).modQ 0 (fun c => c.l1dDrop (localOf (pas.headD 0)) 8)
     (d.q 0).plain ((d.q 0).past 4) ∧
     ((regionOf (localOf (pas.headD 0))).coherent && d.ownsLine 0 (localOf (pas.headD 0))) = near) := by
  intro near
  let a : Nat := if near then 0x800000000 else 0x100
  let s := (run { g := (Vector.replicate 64 0).set 1 (BitVec.ofNat 64 a), l2 := [(0x20000000, .exclusive, 0)] }).setReg 0x20
    (BitVec.allOnes 64)
  refine ⟨s, fetched s 0 4, ((fetched s 0 4).access 0 (.atomic false) 4 0 true (((fetched s 0 4).q 0).gr 1) 8).2,
    (List.range 8).map (fun i => a + i), ?_⟩
  cases near <;> refine ⟨ready_of ?_, ⟨?_, ?_, ok_of ?_, ?_⟩, ?_⟩ <;> decide +kernel

/-- A queued atomic, and one whose result is there. -/
theorem wit_FarAtomics :
    let e : FarAtomic := ⟨0x100, 8, 1, 5, 0, some 0, false, 0x100, none⟩
    (let s : State := { run { stall := .atomic (.g 3 8 false) } with atomics := [e] }
     s.atomics.find? (fun e => e.result.isNone && s.unitOf e.addr = s.unitOf 0x100) = some e) ∧
    (let s : State := { run { stall := .atomic (.g 3 8 false) } with atomics := [{ e with result := some 7 }] }
     (s.q 0).stall = .atomic (.g 3 8 false) ∧ (s.q 0).st = .running ∧ (s.q 0).plain ((s.q 0).past 4) ∧
     s.atomics.find? (fun e => e.quire = some 0 && !e.posted && e.result.isSome) = some { e with result := some 7 }) := by
  decide +kernel

theorem wit_StepRunsFront : ∃ s : State, s.hostHeld = [] ∧ (s.down = true ∨ s.fresh.1.toNat % 256 = 0) :=
  ⟨{ State.reset with present := false }, rfl, Or.inl (by decide +kernel)⟩

/-- A step that answers a next state from canonical memory. -/
theorem wit_MemoryCanonicalKept : ∃ s t : State, Canon s.mem ∧ step s = .next t :=
  ⟨{ State.reset with pending := [.timer 0] }, State.reset, by decide, rfl⟩

/-! ## Vectors -/

/-- VSETVL's widest and its first reserved immediate. -/
theorem wit_VectorConfiguration : (511 < 512 ∧ 507 % 8 ≤ 3) ∧ ¬ (512 < 512 ∧ 512 % 8 ≤ 3) ∧ ¬ (4 < 512 ∧ 4 % 8 ≤ 3) ∧
    (∃ s t : State, s.Ready 0 4 t) ∧ (31 : VReg) ≠ 0 :=
  ⟨by decide, by decide, by decide, ⟨_, _, ready_of (s := run {}) (by decide +kernel)⟩, by decide⟩

/-- VL at VLMAX is ready, one more or a VSTART is not; modes accepted and not; SEW 8 has no format. -/
theorem wit_VectorFloat :
    Seen 4 (fun c => ModeLegal c .vec none ∧ VectorReady c ∧ c.vfmt ≠ none ∧ c.plain (Quire.past 4 c)) ∧
    Seen 8 (fun c => ¬ ModeLegal c .vec (some 2)) ∧
    Seen 4 (fun c => ModeLegal c .vec none ∧ ¬ VectorReady c) ∧
    Seen 4 (fun c => VectorReady c ∧ c.vfmt = none) ∧
    Seen 4 (fun c => VectorReady c ∧ c.sew ≠ 64 ∧ c.vfmt = some fp32) :=
  ⟨seen (crs [(0x030, 512)]) (by decide +kernel), seen {} (by decide +kernel),
    seen (crs [(0x030, 513)]) (by decide +kernel), seen (crs [(0x031, 0)]) (by decide +kernel),
    seen (crs [(0x031, 2)]) (by decide +kernel)⟩

theorem wit_VectorInteger :
    Seen 4 (fun c => VectorReady c ∧ c.plain (Quire.past 4 c)) ∧ Seen 4 (fun c => ¬ VectorReady c) ∧
    32 ≤ (32 : BitVec 6).toNat ∧ (31 : BitVec 6).toNat < 32 :=
  ⟨seen (crs [(0x030, 512)]) (by decide +kernel), seen (crs [(0x032, 1)]) (by decide +kernel), by decide, by decide⟩

theorem wit_VectorMasksAndReductions :
    Seen 4 (fun c => VectorReady c ∧ c.vfmt = some fp64 ∧ ModeLegal c .vec none ∧ modeIn c .vec none ≠ .sr) ∧
    Seen 8 (fun c => ModeLegal c .vec (some 4) ∧ modeIn c .vec (some 4) = .sr) ∧
    (vcvtDefined (vtypeOf 0) (vtypeOf 1) = true ∧ (vcvtExact (vtypeOf 0) (vtypeOf 1) = true → (0 : BitVec 3) = 0)) ∧
    vcvtDefined (vtypeOf 0) (vtypeOf 0) = false ∧ (1 : VReg) ≠ 2 ∧
    Seen 4 (fun c => ModeLegal c .vec (some 0) ∧ VectorReady c ∧
      max (vtypeOf 0).width (vtypeOf 1).width = c.sew ∧ c.plain (Quire.past 4 c)) :=
  ⟨seen {} (by decide +kernel), seen {} (by decide +kernel), by decide +kernel, by decide +kernel, by decide,
    seen {} (by decide +kernel)⟩

theorem elemsRead_of {t : State} {x : VMem}
    (h : (!t.elemsWait 0 .load x && ((t.drain 0).loadElems 0 x (t.q 0) ((t.q 0).active x.m)).1.2.isNone) = true) :
    ElemsRead t 0 x ((t.drain 0).loadElems 0 x (t.q 0) ((t.q 0).active x.m)).1.1
      ((t.drain 0).loadElems 0 x (t.q 0) ((t.q 0).active x.m)).2 := by
  simp only [Bool.and_eq_true, Bool.not_eq_true', Option.isNone_iff_eq_none] at h
  exact ⟨h.1, Prod.ext (Prod.ext rfl h.2) rfl⟩

theorem elemsWritten_of {t : State} {x : VMem}
    (h : (!t.elemsWait 0 .store x && ((t.drain 0).storeElems 0 x (t.q 0) ((t.q 0).active x.m)).1.2.isNone) = true) :
    ElemsWritten t 0 x ((t.drain 0).storeElems 0 x (t.q 0) ((t.q 0).active x.m)).1.1
      ((t.drain 0).storeElems 0 x (t.q 0) ((t.q 0).active x.m)).2 := by
  simp only [Bool.and_eq_true, Bool.not_eq_true', Option.isNone_iff_eq_none] at h
  exact ⟨h.1, Prod.ext (Prod.ext rfl h.2) rfl⟩

/-- Two elements from the address in g1. -/
def vecState (va : W64) : State := run { cr := [(0x030, 2)], g := (Vector.replicate 64 0).set 1 va }

/-- VLD and VST of two elements, and of an address without memory; a mask, and one without memory. -/
theorem wit_VectorMemory :
    let x : VMem := ⟨false, 0, 3, 4, 1, 0⟩
    let t := fetched (vecState 0x100) 0 4
    let f := fetched (vecState 0x80000000000) 0 4
    readyB (vecState 0x100) 0 4 = true ∧ readyB (vecState 0x80000000000) 0 4 = true ∧
    ((t.q 0).vl ≤ 32768 / (t.q 0).sew ∧ 8 * 2 ^ 3 = (t.q 0).sew) ∧
    (∃ vals u, ElemsRead t 0 x vals u ∧ (u.q 0).plain ((u.q 0).past 4)) ∧
    (f.elemsWait 0 .load x = false ∧ ((f.drain 0).loadElems 0 x (f.q 0) ((f.q 0).active false)).1.2.isSome = true) ∧
    (∃ posts u, ElemsWritten t 0 x posts u ∧ (u.q 0).plain ((u.q 0).past 4)) ∧
    (f.elemsWait 0 .store x = false ∧ ((f.drain 0).storeElems 0 x (f.q 0) ((f.q 0).active false)).1.2.isSome = true) ∧
    (Canon t.mem ∧ RoomFor ((t.drain 0).q 0) (vstTargets 0 x (t.q 0) ((t.q 0).active false) (t.drain 0))) ∧
    (InMemory (run {}) [0x100, 0x101] ∧ RoomFor ((run {}).q 0) [0x100, 0x101]) ∧
    (VectorReady (t.q 0) ∧ t.l2WaitsSpan 0 .load 0x100 1 = false ∧ t.l2WaitsSpan 0 .store 0x100 1 = false) ∧
    (isErr ((t.drain 0).access 0 .load 0xA 0 false 0x100 1).1 = false ∧
      isErr ((t.drain 0).access 0 .store 0xB 0 false 0x80000000000 1).1 = true) := by
  refine ⟨?_, ?_, ?_, ⟨_, _, elemsRead_of ?_, ?_⟩, ?_, ⟨_, _, elemsWritten_of ?_, ?_⟩, ?_⟩ <;> decide +kernel

/-! ## Tiles, press and plough -/

/-- A configured tile: rows, row bytes, format and K axis. -/
def tile (rows rb fmt k : Nat) : Tile :=
  { cfg := true, desc := BitVec.ofNat 64 (rows - 1 + (rb / 64 - 1) * 65536 + fmt * 2 ^ 20 + k * 2 ^ 29 + 2 ^ 30) }

/-- A quire with two tiles. -/
def tiles (a b : Tile) : Quire := { tile := ((Vector.replicate 16 {}).set 0 a).set 1 b }

/-- Row 0 of tile 0 at 0x100 and, `bad`, at an address without memory. -/
def rowsState (bad : Bool) : State :=
  run { tiles (tile 2 64 1 0) (tile 2 64 4 0) with
    g := ((Vector.replicate 64 0).set 1 (if bad then 0x80000000000 else 0x100)).set 2 64 }

theorem rowsRead_of {t : State} {base stride : W64}
    (h : (!t.rowsWait 0 .load 0 base stride && ((t.drain 0).loadRows 0 0 base stride (t.q 0).tstart
      ((t.q 0).tile[(0 : TReg)].rows - (t.q 0).tstart)).1.isNone) = true) :
    RowsRead t 0 0 base stride ((t.drain 0).loadRows 0 0 base stride (t.q 0).tstart
      ((t.q 0).tile[(0 : TReg)].rows - (t.q 0).tstart)).2 := by
  simp only [Bool.and_eq_true, Bool.not_eq_true', Option.isNone_iff_eq_none] at h
  exact ⟨h.1, Prod.ext h.2 rfl⟩

/-- What storing rows leaves when it is done, and whether it trapped. -/
def rowsDone : Rows → Option State
  | .done u => some u
  | _ => none

theorem rowsWritten_of {t : State} {base stride : W64}
    (h : (!t.rowsWait 0 .store 0 base stride && (rowsDone ((t.drain 0).storeRows 0 0 base stride (t.q 0).tstart
      ((t.q 0).tile[(0 : TReg)].rows - (t.q 0).tstart))).isSome) = true) : ∃ u, RowsWritten t 0 0 base stride u := by
  simp only [Bool.and_eq_true, Bool.not_eq_true'] at h
  revert h
  cases hr : (t.drain 0).storeRows 0 0 base stride (t.q 0).tstart ((t.q 0).tile[(0 : TReg)].rows - (t.q 0).tstart) with
  | done u => exact fun h => ⟨u, h.1, hr⟩
  | _ => simp [rowsDone]

/-- Each cause of TILE_STATE and none; a descriptor without and with a cause; a row that loads, and one that faults. -/
theorem wit_TileInstructions :
    Seen 4 (fun c => tileBad false [] c = none ∧ tcfgCause 0x40000000 1 = none) ∧
    Seen 4 (fun c => tileBad false [] c = some (0x10, 0)) ∧ Seen 4 (fun c => tileBad false [2] c = some (0x11, 2)) ∧
    Seen 4 (fun c => tileBad true [0] c = some (0x12, 0)) ∧ tcfgCause 0 1 ≠ none ∧
    (let t := fetched (rowsState false) 0 4
     let f := fetched (rowsState true) 0 4
     (readyB (rowsState false) 0 4 = true ∧ tileBad true [0] (t.q 0) = none ∧ BitVec.ofNat 64 (t.q 0).tile[(0 : TReg)].rb = 64) ∧
     RowsRead (woken 0 t) 0 0 0x100 64 (((woken 0 t).drain 0).loadRows 0 0 0x100 64 ((woken 0 t).q 0).tstart
       (((woken 0 t).q 0).tile[(0 : TReg)].rows - ((woken 0 t).q 0).tstart)).2 ∧
     (∃ u, RowsWritten (woken 0 t) 0 0 0x100 64 u) ∧
     (readyB (rowsState true) 0 4 = true ∧ tileBad true [0] (f.q 0) = none ∧
       (woken 0 f).rowsWait 0 .load 0 0x80000000000 64 = false ∧ (woken 0 f).rowsWait 0 .store 0 0x80000000000 64 = false ∧
       isErr ((woken 0 f).wideAccess 0 .load 7 0 0x80000000000 64).1 = true ∧
       isErr ((woken 0 f).wideAccess 0 .store 8 0 0x80000000000 64).1 = true) ∧
     (let w := (woken 0 t).wideAccess 0 .store 8 0 0x100 64
      (match w.1 with
       | .ok pas => decide (pas.length = 64 ∧ InMemory w.2 pas ∧ RoomFor (w.2.q 0) pas)
       | .error _ => false) = true ∧ (w.2.q 0).tile[(0 : TReg)].rowPoison = 0)) ∧
    descScales (tile 2 64 4 0).desc = 0 ∧
    (descScales (BitVec.ofNat 64 ((tile 16 64 4 0).desc.toNat + 2 ^ 27)) ≠ 0) :=
  ⟨seen {} (by decide +kernel), seen (crs [(0x040, 1)]) (by decide +kernel), seen {} (by decide +kernel),
    seen { tiles (tile 2 64 1 0) {} with cr := [(0x040, 2)] } (by decide +kernel), by decide +kernel,
    ⟨by decide +kernel, rowsRead_of (by decide +kernel), rowsWritten_of (by decide +kernel), by decide +kernel,
      by decide +kernel⟩, by decide +kernel⟩

/-- MMA's shape met and not, SLC of a tile sliced and not, MMA.S of sliced tiles; and the range of a slice. -/
theorem wit_PressAndSlices :
    let shape (c : Quire) := mmaShape true false false false false 0 1 c.tile[0] c.tile[1] 0 0 0 c.acc[0].tag
    Seen 4 (fun c => ModeLegal c .prs none ∧ tileBad false [0, 1] c = none ∧ shape c = none) ∧
    Seen 8 (fun c => ¬ ModeLegal c .prs (some 2)) ∧
    Seen 4 (fun c => tileBad false [0, 1] c = none ∧ shape c = some (3, 0)) ∧
    Seen 4 (fun c => tileBad false [0] c = none ∧ c.tile[0].fmt = 1 ∧ (c.crGet 0x05B).toNat % 16 ≤ 4 ∧ c.tile[0].sliced = false) ∧
    Seen 4 (fun c => tileBad false [0, 1] c = none ∧ c.mmaSShape true 0 1 0 0 = none ∧ CrCanon c) ∧
    (0 < 1 ∧ -(2 : Int) ^ (8 * 1 - 1) ≤ -128 ∧ (127 : Int) < 2 ^ (8 * 1 - 1)) :=
  ⟨seen (tiles (tile 32 64 0xE 0) (tile 64 64 0xE 1)) (by decide +kernel), seen {} (by decide +kernel),
    seen (tiles (tile 32 64 0xA 0) (tile 64 64 0xA 1)) (by decide +kernel),
    seen { tiles (tile 32 128 1 0) (tile 32 128 1 1) with cr := [(0x05B, 4)] } (by decide +kernel),
    seen (tiles { tile 32 128 1 0 with slices := 4, sliced := true } { tile 32 128 1 1 with slices := 4, sliced := true })
      (by decide +kernel), by decide⟩

/-- The geometry of PLCFG at row and column 0. -/
def geom (c : Quire) : PlGeom :=
  let p := (c.crGet 0x056).toNat
  ⟨p / 2 ^ 17 % 128 + 1, p / 2 ^ 15 % 4 + 1, p % 16, 0, 0⟩

theorem wit_PloughOutputs : (let g := geom {}; 0 < g.w ∧ 32768 % g.w = 0 ∧ (0 : VReg).val + g.vregs ≤ 32 ∧ 0 < g.nrows * g.nc) ∧
    CrCanon {} := by decide +kernel

theorem wit_PloughInstructions :
    Seen 4 (fun c => ModeLegal c .plg none ∧ tileBad false (c.plTiles (geom c) (.vec 0)) c = none ∧
      c.plShape (geom c) (.vec 0) 0 false = none) ∧
    Seen 4 (fun c => c.plShape (geom c) (.mem 1 2) 0 false = none ∧ c.plShape (geom c) (.vec 0) 0 true ≠ none) ∧
    Seen 4 (fun c => c.plShape (geom c) (.vec 0) 0 true = none) ∧
    Seen 4 (fun c => c.plSShape (geom c) (.vec 0) ≠ none) :=
  ⟨seen {} (by decide +kernel), seen {} (by decide +kernel),
    seen (crs [(0x056, 0x00FF8003), (0x057, 8 * 2 ^ 15 + 16 * 2 ^ 20 + 24 * 2 ^ 25)]) (by decide +kernel),
    seen {} (by decide +kernel)⟩

/-! ## Caches and context engines -/

/-- Right after reset, with a quire in a state of its own. -/
def inState (st : QState) (c : Quire) : State := State.reset.setQ 0 { c with st := st }

/-- A line of the folio in a set of L1D with room and in a full one, a line held, one that nothing backs; the cases of
Q_CACHE_CTL; what waits for a response; refreshes owed. -/
theorem wit_CachesAndRefresh :
    (let s := run {}
     s.poisonOf 0x100 = none ∧ s.backed 0x100 = true ∧ regionOf 0x100 = .folio ∧
     (s.q 0).l1d ++ (s.q 0).victim = [] ∧ (s.q 0).l1d.countP (fun e => l1dSet e.1 = l1dSet 4) < 8 ∧
     s.backed 0x80000000000 = false ∧ s.tierOff 0 = false ∧ s.dirtyLines 0 = [] ∧ (s.q 0).l2Cinv = false ∧ s.l2Busy 0 = false ∧
     WinCanon s) ∧
    (let c : Quire := { l1d := (List.range 8).map (fun n => (5 + 128 * n, 0)) }
     8 ≤ c.l1d.countP (fun e => l1dSet e.1 = l1dSet (4 + 1)) ∧ (5, 0) ∈ c.l1d ++ c.victim ∧
       ∀ e ∈ c.l1d ++ c.victim, e.1 ≠ 5 + 128 * 8) ∧
    ((regionOf 0x800000000).coherent = true ∧ ((run {}).setReg 0x20 (BitVec.allOnes 64)).backed 0x800000000 = true) ∧
    ReachesQuire (run {}) .stitcher 0 0x100 ∧
    (let s := (run {}).setReg 0x100108 2
     s.l2Busy 0 = true ∧ s.dirtyLines 0 = [] ∧ (s.q 0).evict = [] ∧ WinCanon s) ∧
    ((((run { l2 := [(3, .modified, 0)] }).setReg 0x100100 0).setReg 0x100108 0xF0003).dirtyLines 0 ≠ []) ∧
    ((0xF1#32).getLsbD 0 = true ∧ (0xF1#32).toNat / 16 % 16 ≠ 0) ∧ ((1#32).getLsbD 0 = true ∧ (1#32).toNat / 16 % 16 = 0) ∧
    ((run { stall := .host 3 (.g 1 8 false) 4 0x100 2 }).q 0).runs = true ∧
    ((run { stall := .remote 3 (.g 1 8 false) 4 0x100 2 }).q 0).runs = true ∧
    ((run { stores := [(8, 0x100, 8, 1)] }).q 0).stores ≠ [] ∧ (run {}).remotePa 0x100 = false ∧
    (((State.reset.setReg 0xA00000 8).reg 0xA00000).toNat % 16 = 8 ∧ WinCanon (State.reset.setReg 0xA00000 8)) ∧
    (((State.reset.setReg 0xA00000 7).reg 0xA00000).toNat % 16 = 7 ∧ WinCanon (State.reset.setReg 0xA00000 7)) ∧
    (State.reset.reg 0xA00000).toNat % 16 = 0 := by
  refine ⟨?_, ?_, ?_, ?_, ?_, ?_, ?_⟩ <;> decide +kernel

/-- A save area at 0 with the header of an image of zeros, its CRC `c`. -/
def imagedAt (c : Nat) : State :=
  { State.reset with mem := [(0, 1), (2, 0x1C), (3, 0x5A), (8, 1), (0x20, 1), (0xF8, BitVec.ofNat 8 c),
      (0xF9, BitVec.ofNat 8 (c / 2 ^ 8)), (0xFA, BitVec.ofNat 8 (c / 2 ^ 16)), (0xFB, BitVec.ofNat 8 (c / 2 ^ 24)),
      (0xFC, BitVec.ofNat 8 (c / 2 ^ 32)), (0xFD, BitVec.ofNat 8 (c / 2 ^ 40)), (0xFE, BitVec.ofNat 8 (c / 2 ^ 48)),
      (0xFF, BitVec.ofNat 8 (c / 2 ^ 56))] }

/-- With the CRC that it needs (log entry 12). -/
def imaged : State := imagedAt (crc64 ((imagedAt 0).bytesAt 0 0xF8)).toNat

theorem imagedAt_crc (c : Nat) (h : c < 2 ^ 64) : (imagedAt c).readN 0xF8 8 = c := by
  have e : (imagedAt c).readN 0xF8 8 = c % 256 + 256 * (c / 2 ^ 8 % 256 + 256 * (c / 2 ^ 16 % 256 + 256 * (c / 2 ^ 24 % 256 +
      256 * (c / 2 ^ 32 % 256 + 256 * (c / 2 ^ 40 % 256 + 256 * (c / 2 ^ 48 % 256 + 256 * (c / 2 ^ 56 % 256 + 256 * 0))))))) := rfl
  omega

theorem imagedAt_bytes (c : Nat) : (imagedAt c).bytesAt 0 0xF8 = (imagedAt 0).bytesAt 0 0xF8 := by
  refine List.map_congr_left fun k hk => ?_
  have h : k < 0xF8 := List.mem_range.mp hk
  simp [State.byte, imagedAt, sGet, h]

theorem imaged_header : imaged.newerHeader 0 = some 0 := by
  have a : imaged.headerOk 0 = true := by
    unfold State.headerOk
    have h1 : (imaged.poisonedIn 0 256).isNone = true := rfl
    have h2 : imaged.readN 0 4 = 0x5A1C0001 := by decide +kernel
    have h3 : imaged.readN 0xF8 8 = (crc64 (imaged.bytesAt 0 0xF8)).toNat := by
      exact (imagedAt_crc _ (BitVec.isLt _)).trans (by rw [imaged, imagedAt_bytes (BitVec.toNat _)])
    simp [h1, h2, h3]
  have b : imaged.headerOk (0 + 0x100) = false := by
    unfold State.headerOk
    have h2 : imaged.readN (0 + 0x100) 4 = 0 := by decide +kernel
    simp [h2]
  simp [State.newerHeader, a, b]

/-- Every state that a clause of Q_CTX_CTL or of an event starts from. -/
theorem wit_ContextCommands :
    (imaged.newerHeader 0 = some 0 ∧ (imaged.restoreImage 0 0 0).isSome = true) ∧
    ReachesQuire (inState .idle {}) .stitcher 0 0 ∧ ReachesQuire (inState .idle {}) .headband 0 0 ∧
    (∀ st ∈ [QState.idle, .running, .grace, .held, .halted, .quiesce, .saving, .restoring],
      ((inState st {}).q 0).st = st ∧ ((inState st {}).q 0).action = 0 ∧ (inState st {}).domState 0 = 0) ∧
    ctxAllowed 1 .running = false ∧ ((inState .running { action := 6 }).q 0).action ≠ 0 ∧
    (run {}).fld 0x100020 7 0 ≠ 0 ∧ ((run {}).setReg 0x100020 0).fld 0x100020 7 0 = 0 ∧
    ((run {}).irqLevel 0 35).1 = 0 ∧
    (({ run (crs [(0, 0x2000)]) with mem := [(16 * 35 + 10, 1)] } : State).irqLevel 0 35).1 = 1 ∧
    ((inState .idle {}).q 0).lastCtx = none ∧ ((inState .idle {}).q 0).isoWait = false ∧ CrCanon ((inState .idle {}).q 0) ∧
    (inState .idle {}).areaOk 0 0 512 = true ∧ (inState .idle {}).poisonedIn 0 512 = none ∧ (inState .idle {}).newerHeader 0 = none ∧
    (inState .idle {}).areaOk 0x100000000000 0 512 = false ∧
    ((inState .quiesce {}).q 0).atomicAway = false ∧ ((inState .quiesce {}).drain 0).storesOut 0 = false ∧
    ((inState .saving {}).saveCommit 0 false false).isSome = true ∧
    (((inState .saving {}).setReg 0x100018 0x100000000000).saveCommit 0 false false).isNone = true ∧
    ((inState .saving {}).setReg 0x100018 0x100000000000).releasing 0 = false ∧
    (inState .restoring {}).newerHeader 0 = none ∧ ((inState .restoring {}).q 0).isoWait = false := by
  refine ⟨⟨imaged_header, ?_⟩, ?_, ?_, ?_, ?_, ?_, ?_, ?_, ?_, ?_, ?_⟩ <;> decide +kernel

theorem wit_SaveRestores : Canon (inState .saving {}).mem ∧ ((inState .saving {}).q 0).pc.toNat % 4 = 0 ∧
    ((inState .saving {}).saveCommit 0 false false).isSome = true ∧ (imaged.restoreImage 1 0 0).isSome = true := by
  decide +kernel

/-- Logical quire 0 on quire 0, and quire 32 as an idle spare. -/
def tipState : State :=
  ((((run {}).setReg 0x030 0x80).setReg 0x010 0x3FFFFFFFF).setQ 32 { st := .idle })

theorem wit_TipIns :
    State.reset.physOf 0 = none ∧ tipState.physOf 0 = some 0 ∧ (0 : QuireId) ≠ 32 ∧ tipState.tipin = none ∧
    (tipState.q 0).st = .running ∧ (tipState.q 32).st = .idle ∧ (tipState.q 32).action = 0 ∧
    tipState.logicalOf 32 = none ∧ tipState.quireUp 32 = true ∧ (tipState.q 1).st ≠ .idle ∧
    (let k : TipIn := ⟨0, 0, 32, true, true, true, false⟩
     let s : State := { tipState with tipin := some k }
     s.tipin = some k ∧ k.restored = true ∧ k.saved = true ∧ k.source ≠ k.spare ∧ s.quireUp k.source = true ∧
       s.newerHeader (s.fld 0x100018 45 12 * 4096) = none) ∧
    (let s : State := { imaged with tipin := some ⟨0, 0, 32, true, true, true, false⟩ }
     s.fld 0x100018 45 12 * 4096 = 0 ∧ imaged.newerHeader 0 = some 0 ∧
       ((s.tipDiscard ⟨0, 0, 32, true, true, true, false⟩).restoreImage 0 0 0).isSome = true) := by
  refine ⟨?_, ?_, ?_, ?_, ?_, ?_, ?_, ?_, ?_, ?_, ?_, ?_, imaged_header, ?_⟩ <;> decide +kernel

/-! ## Stitchers -/

/-- Right after reset, with bank 0 of stitcher 0 ready to issue. -/
def stitch (k : Bank) : State :=
  State.reset.setEng 0 { banks := ((Vector.replicate 9 {}).set 0 { k with st := .ready }), order := [0], open_ := true }

/-- A bank that is ready, and meets `p`. -/
def SeenB (p : State → Prop) : Prop := ∃ s : State, StitchReady s 0 0 ∧ p s

theorem seenB {p : State → Prop} [DecidablePred p] (s : State)
    (h : (s.issues 0 0 && (s.boundary 0 0).isNone && decide (p s)) = true) : SeenB p := by
  rw [Bool.and_eq_true, Bool.and_eq_true, decide_eq_true_eq, Option.isNone_iff_eq_none] at h
  exact ⟨s, ⟨h.1.1, h.1.2⟩, h.2⟩

/-- Stacks of no, of two and of sixteen words; a divisor of 0, without and with its trap; an overflow. -/
theorem wit_StitchInteger :
    let depth (s : State) : Nat := ((started s 0 0).bank 0 0).stack.length
    let top (s : State) : W32 := ((started s 0 0).bank 0 0).stack.headD 0
    SeenB (fun s => depth s = 0 ∧ (s.eng 0).trapen = 0) ∧ SeenB (fun s => depth s = 16) ∧
    SeenB (fun s => depth s = 2 ∧ top s = 0 ∧ (s.eng 0).trapen = 0) ∧
    SeenB (fun s => depth s = 2 ∧ top s = 0 ∧ (s.eng 0).trapen = 3) ∧
    SeenB (fun s => ((started s 0 0).bank 0 0).stack = [0xFFFFFFFF, 0x80000000]) :=
  ⟨seenB (stitch {}) (by decide +kernel), seenB (stitch { stack := List.replicate 16 1 }) (by decide +kernel),
    seenB (stitch { stack := [0, 5] }) (by decide +kernel),
    seenB ((stitch { stack := [0, 5] }).setEng 0 { (stitch { stack := [0, 5] }).eng 0 with trapen := 3 }) (by decide +kernel),
    seenB (stitch { stack := [0xFFFFFFFF, 0x80000000] }) (by decide +kernel)⟩

/-- SYNC-class writes outstanding or not, each width of a CRC, and words of decimal digits. -/
theorem wit_StitchFractions :
    SeenB (fun s => let t := started s 0 0
      (t.eng 0).syncPend = [] ∧ 8 * 2 ^ ((t.eng 0).crcCfg.toNat % 4) ≠ 64 ∧ (t.bank 0 0).stack = [1, 2]) ∧
    SeenB (fun s => let t := started s 0 0
      (t.eng 0).syncPend = [] ∧ 8 * 2 ^ ((t.eng 0).crcCfg.toNat % 4) = 64 ∧ (t.bank 0 0).stack = [1, 2, 3]) ∧
    IsDecimal 0x99999999 ∧ (2 < 3 ∧ ¬ 3 < 3) ∧ (1 ≤ 32 ∧ 32 ≤ 32) :=
  ⟨seenB (stitch { stack := [1, 2] }) (by decide +kernel),
    seenB ((stitch { stack := [1, 2, 3] }).setEng 0 { (stitch { stack := [1, 2, 3] }).eng 0 with crcCfg := 3 }) (by decide +kernel),
    by unfold IsDecimal; decide, by decide, by decide⟩

/-- A return stack with and without room, targets inside and outside instruction memory, a bank in an exception. -/
theorem wit_StitchControl :
    let k (s : State) : Bank := (started s 0 0).bank 0 0
    SeenB (fun s => (k s).stack = [0x3FFFE] ∧ (k s).rslimit.toNat % 2 ^ 16 + 4 ≤ (k s).rsp.toNat ∧ (k s).rslimit ≠ 0 ∧
      (k s).rsp.toNat - 4 < 0x8000 ∧ (k s).rsp.toNat < (k s).rslimit.toNat / 2 ^ 16 ∧ (k s).exc = false) ∧
    SeenB (fun s => (k s).stack = [0x40000] ∧ (k s).rslimit = 0 ∧ (k s).rslimit.toNat / 2 ^ 16 ≤ (k s).rsp.toNat) ∧
    SeenB (fun s => (k s).exc = true ∧ (k s).stack = []) :=
  ⟨seenB (stitch { stack := [0x3FFFE], rslimit := 0x80000000, rsp := 4 }) (by decide +kernel),
    seenB (stitch { stack := [0x40000] }) (by decide +kernel), seenB (stitch { exc := true }) (by decide +kernel)⟩

/-- RLIMIT accepted and not, a timer that runs, events due, faults due, bank 8 busy and not. -/
theorem wit_StitchSpecial :
    let k (s : State) : Bank := (started s 0 0).bank 0 0
    SeenB (fun s => (k s).stack = [0x80000000] ∧ (s.eng 0).syncPend = [] ∧ (k s).timer = 0 ∧ (k s).muls = []) ∧
    SeenB (fun s => (k s).stack = [0x7FFF] ∧ (k s).timer = 0xFFFFFFFF) ∧
    SeenB (fun s => (k s).stack.length = 16) ∧
    (let s := stitch { evpend := 4, evirq := 4 }
     s.issues 0 0 = true ∧ (s.bank 0 0).exc = false ∧ (s.bank 0 0).evpend &&& (s.bank 0 0).evirq ≠ 0 ∧ s.fastEntry 0 = none ∧
       (s.bank 0 0).fault = none) ∧
    (let s := stitch { fault := some (1, 2) }
     s.issues 0 0 = true ∧ (s.bank 0 0).exc = false ∧ (s.bank 0 0).fault = some (1, 2) ∧ s.fastEntry 0 = none) ∧
    assignedOpcode 0 = false ∧ (State.reset.issues 0 0) = false ∧ ((stitch { timer := 3 }).bank 0 0).timer ≠ 0 ∧
    ((State.reset.eng 0).halted = false ∧ (State.reset.eng 0).banks[(8 : Fin 9)].st = .ready) ∧
    (((stitch {}).eng 0).halted = false ∧ ((stitch {}).eng 0).held = false ∧ ((stitch {}).eng 0).banks[(8 : Fin 9)].st = .free) ∧
    ((stitch {}).bank 0 0).exc = false ∧ ((stitch { exc := true }).bank 0 0).exc = true ∧ ((stitch {}).eng 0).syncPend = [] := by
  refine ⟨seenB (stitch { stack := [0x80000000] }) ?_, seenB (stitch { stack := [0x7FFF], timer := 0xFFFFFFFF }) ?_,
    seenB (stitch { stack := List.replicate 16 0 }) ?_, ?_⟩ <;> decide +kernel

/-- Custom opcode 0 of stitcher 0 is one ADD. -/
def addOpcode : State :=
  let s := stitch { stack := [3, 4] }
  let s := s.setFrame 0 { s.frames[(0 : Fin 4)] with dec := [(0, 0x80002100), (64, 0x80001000)] }
  s.setEng 0 { s.eng 0 with decen := 1 }

/-- A word of the local RAM, one of the folio with the far window open, a load that misses, and a custom opcode of one ADD. -/
theorem wit_StitchMemory :
    let k (s : State) : Bank := (started s 0 0).bank 0 0
    SeenB (fun s => (k s).stack = [0x7FFC, 5] ∧ 0x7FFC % 4 = 0) ∧
    SeenB (fun s => (k s).stack = [0x80000000, 5] ∧ (s.eng 0).dwin.getLsbD 31 = true ∧ s.backed 0 = true ∧ (s.eng 0).dcache = []) ∧
    (∀ cache ∈ [[], (List.range 128).map (fun n => (n + 1, (0 : BitVec 512)))],
      let s := (stitch {}).setEng 0 { (stitch {}).eng 0 with
        dwin := 0x80000000
        dcache := cache
        banks := ((stitch {}).eng 0).banks.set 0 { st := .blocked, block := .far 0x80000000 4, stack := [0x80000000] } }
      (s.bank 0 0).st = .blocked ∧ (s.bank 0 0).block = .far 0x80000000 4 ∧ (s.eng 0).halted = false ∧ s.down = false ∧
        (s.bank 0 0).stack = [0x80000000] ∧ s.backed 0 = true ∧ s.poisonedIn 0 4 = none ∧ (s.eng 0).det = false ∧
        (∀ x ∈ (s.eng 0).dcache, x.1 ≠ 0)) ∧
    SeenB (fun s => (s.eng 0).syncPend = [] ∧ (s.eng 0).decen.getLsbD 0 = false) ∧
    SeenB (fun s => let t := started s 0 0
      (t.eng 0).syncPend = [] ∧ (t.eng 0).decen.getLsbD 0 = true ∧ t.decodeImage 0 = [(0, 0x80002100), (64, 0x80001000)] ∧
      (t.bank 0 0).stack = [3, 4] ∧ (t.bank 0 0).muls = [] ∧ microOk 0x80001000 true 0 0 = true ∧
      ((microOp 0x10 0 0).map (fun f => !isErr (f ⟨t.bank 0 0, (t.eng 0).sticky, (t.eng 0).trapen⟩))) = some true) := by
  refine ⟨seenB (stitch { stack := [0x7FFC, 5] }) ?_,
    seenB ((stitch { stack := [0x80000000, 5] }).setEng 0 { (stitch { stack := [0x80000000, 5] }).eng 0 with dwin := 0x80000000 })
      ?_, ?_, seenB (stitch {}) ?_, seenB addOpcode ?_⟩ <;> decide +kernel

/-! ## Streams -/

/-- A one-byte COPY as a stream entry in a state, with its descriptor. -/
def copyStream (st : Nat) : Stream :=
  (({} : Stream).put 0x20 64 (2 ^ 128 + 0x0001000100010001 * 2 ^ 160)).setState st

/-- A request block at 0x1000 in the folio, and a context entry that permits streams. -/
def createState (block : List Host.Cell) : State := { (run {}).setReg 0x200 0x20001 with mem := block ++ [(0x20000, 3)] }

/-- The block of `copyStream`. -/
def copyBlock : List Host.Cell := [(0x1030, 1), (0x1034, 1), (0x1036, 1), (0x1038, 1), (0x103A, 1)]

/-- Stream 0 in a state, with bank 0 of stitcher 0 running it. -/
def streamState (st : Nat) : State :=
  { stitch { stream := some 0, stack := [1, 2] } with
    streams := [(0, (copyStream st).put 7 1 0)], xlatInv := [(.quire, 0)],
    xfqHeld := [⟨0, 0, 0, 0, 0, 0⟩] }

theorem wit_StreamTable :
    -- a block outside the folio and the text block, an invalid one, one denied, one created, one while the table is out
    inFolioText 0x100000000000 128 = false ∧ inFolioText 0x1000 128 = true ∧
    (createState copyBlock).poisonedIn 0x1000 128 = none ∧
    blockInvalid { raw := BitVec.ofNat 1024 ((createState []).readN 0x1000 128) } = true ∧
    (let x : Stream := { raw := BitVec.ofNat 1024 ((createState copyBlock).readN 0x1000 128) }
     let e := (createState copyBlock).ctxEntry 0
     blockInvalid x = false ∧ e.2.blockDenied x e.1 true = false ∧ e.2.freeEntry 0 = some 0 ∧ State.blockDenied (run {}) x none true = true) ∧
    ((createState copyBlock).frames[(0 : Fin 4)].inService = true ∧ (createState copyBlock).domState 68 ≠ 3) ∧
    -- streams of every state
    (∀ st ∈ [1, 2, 3, 4], ((streamState st).stream 0).state = st ∧ ((streamState st).stream 0).owner = 0 ∧ frameOf 0 = 0) ∧
    (State.reset.stream 0).state = 0 ∧ State.reset.nextStream 0 = none ∧ State.reset.freeBankOf 0 = none ∧
    ((streamState 1).nextStream 0 = some (0, (streamState 1).stream 0) ∧ (streamState 1).freeBankOf 0 = some (0, 1) ∧
      ((streamState 1).eng 0).syncPend = [] ∧ (streamState 1).down = false ∧ (streamState 1).domState 68 < 2 ∧
      ((streamState 1).stream 0).kind ≠ 6) ∧
    ((streamState 4).opsOf 0 = [] ∧ ((streamState 4).stream 0).raw.getLsbD 51 = false ∧ ((streamState 4).stream 0).origin = none ∧
      ((streamState 4).stream 0).caddr = 0) ∧
    -- invalidations and fault records
    (streamState 1).xlatInv = [(.quire, 0)] ∧ State.reset.xlatInv = [] ∧
    (∀ i, ((List.finRange 34).foldl (fun s i => s.drain i) (streamState 1)).storesOut i = false) ∧
    (WinCanon (streamState 1) ∧ ((streamState 1).setReg 0x228 0x80000040).xfqHeld ≠ [] ∧ (streamState 1).xfqRoom = false) := by
  decide +kernel

/-- A frame whose movers each hold the 4 operations they may hold. -/
def fullFrame : Frame :=
  let op (m : Fin 16) : MoverOp :=
    { mover := m, stream := 0, engine := 0, bank := 0, mdesc := 0, pos := 0, len := 1, stalled := false }
  { ops := (List.finRange 16).flatMap (fun m => List.replicate 4 (op m)) }

/-- Right after reset, with the fast bank of stitcher 0 ready to issue and bank 3 running stream 0. -/
def fastReady (k : Bank) : State :=
  State.reset.setEng 0 { banks := ((Vector.replicate 9 {}).set 8 { k with st := .ready }).set 3 { stream := some 0, st := .waiting },
                         order := [8], open_ := true }

theorem wit_StreamInstructions :
    let k (s : State) : Bank := (started s 0 0).bank 0 0
    SeenB (fun s => (k s).stream = none) ∧
    SeenB (fun s => (k s).stream = some 0 ∧ (0 : Fin 9) ≠ 8 ∧ (k s).stack = [1, 2] ∧
      (s.frames[frameOf 0]).freeMover ≠ none ∧ (s.stream 0).kind = 0 ∧ (s.stream 0).state = 2 ∧ (s.stream 0).err = none) ∧
    SeenB (fun s => (k s).stream = some 0 ∧ (s.stream 0).state ≠ 2) ∧
    -- no mover has room; the stream has ended one operation in error already
    SeenB (fun s => (k s).stream = some 0 ∧ (s.frames[frameOf 0]).freeMover = none) ∧
    SeenB (fun s => (k s).stream = some 0 ∧ (s.stream 0).err = some (3, 7)) ∧
    (let s := fastReady { stack := [9, 3, 2] }
     s.issues 0 8 = true ∧ s.boundary 0 8 = none ∧ ((started s 0 8).bank 0 8).stack = [9, 3, 2] ∧
       ((s.eng 0).banks[(3 : Fin 9)]).stream = some 0) ∧
    ((stitch {}).bank 0 0).st ≠ .blocked ∧
    (let s := stitch { stream := some 0, block := .mvgo 4 }
     let s := s.setEng 0 { s.eng 0 with banks := (s.eng 0).banks.set 0 { s.bank 0 0 with st := .blocked } }
     (s.bank 0 0).st = .blocked ∧ (s.bank 0 0).block = .mvgo 4 ∧ (s.eng 0).halted = false ∧ (s.eng 0).held = false) ∧
    State.reset.firstOp 0 = none ∧
    (let o : MoverOp := { mover := 0, stream := 0, engine := 0, bank := 0, mdesc := (copyStream 2).mdesc, pos := 0, len := 1,
                          stalled := false }
     let s := (streamState 2).setFrame 0 { (streamState 2).frames[(0 : Fin 4)] with ops := [o] }
     s.firstOp 0 = some o ∧ o.tag = none ∧ o.wait = 0 ∧ o.land = false ∧ s.down = false ∧ mdMode o.mdesc = 0 ∧ o.buf = [] ∧
       (s.stream 0).u 6 1 / 16 = 0 ∧ (s.stream 0).recDue = [] ∧ (∀ y ∈ s.streams, y.2.rdy = [])) ∧
    (State.reset.frames[(0 : Fin 4)].patchBusy = false ∧
      ({ State.reset.frames[(0 : Fin 4)] with patchCount := 1 } : Frame).patchRecs.any patchBad = false) ∧
    (({ patchBuf := [(0, 3)], patchCount := 1 } : Frame).patchRecs.any patchBad = true) ∧
    -- a header of opcode 0 with a must-be-0 bit set
    (let f : Frame := { patchBuf := [(0, 0x80000000), (1, 0x80000001)], patchCount := 1 }
     f.patchRecs.any patchBad = false ∧ f.patchRecs.any (fun r => r.getLsbD 31) = true ∧
       imageOk (f.patchRecs.foldl (fun m r => sSet 0 m (r.toNat / 4 % 2 ^ 16) (r.extractLsb' 32 32)) f.dec) = some false) ∧
    (∀ e : EngineId, (State.reset.eng e).insideFar = false ∧ (State.reset.eng e).synced = true) := by
  refine ⟨seenB (stitch {}) ?_, seenB (streamState 2) ?_, seenB (streamState 1) ?_,
    seenB ((streamState 2).setFrame 0 fullFrame) ?_,
    seenB ((streamState 2).setStream 0 { (streamState 2).stream 0 with err := some (3, 7) }) ?_,
    ?_, ?_, ?_, ?_, ?_, ?_, ?_, ?_, ?_⟩ <;> decide +kernel

/-! ## Host -/

/-- A queue entry of 16 entries, LIMIT 4 and WEIGHT 1, with its rings in the folio. -/
def queueCfg : BitVec 512 :=
  BitVec.ofNat 512 (0x10000 + 0x20000 * 2 ^ 64 + 15 * 2 ^ 128 + 15 * 2 ^ 144 + 4 * 2 ^ 160 + 2 ^ 184 + 8 * 2 ^ 208)

/-- Queue n in a state, with commands. -/
def queueState (n : Nat) (st : QueueSt) (sqTail : W16) (cmds : List Cmd) : State :=
  { run {} with queues := [(n, { st := st, cfg := queueCfg, sqTail := sqTail, cmds := cmds, serial := 1 })] }

/-- A command by the 64 bytes of its entry. -/
def command (e : Nat) : Cmd := { entry := BitVec.ofNat 512 e, serial := 0 }

/-- The queue table at 0 with the entry of queue 1, and the context table at 0x20000 with context 1. -/
def tables : State :=
  { ((run {}).setReg 0x4018 1).setReg 0x200 0x20001 with
    mem := [(0x42, 1), (0x4A, 2), (0x50, 15), (0x52, 15), (0x54, 4), (0x57, 1), (0x5A, 8), (0x20020, 3)] }

/-- What queue 1's table entry holds. -/
def tabled : BitVec 512 := BitVec.ofNat 512 (tables.readN 0x40 64)

theorem wit_HostQueues :
    Reaches (run {}) .quire 0x4028 ∧
    (let s : State := (run {}).setReg 0x10000 0x20000
     s.asleep = true ∧ s.present = true ∧ s.doorbells.length < 64 ∧ s.hostBlocked = false) ∧
    (∀ st ∈ [QueueSt.disabled, .enabled, .draining, .fatal], ((queueState 1 st 0 []).queue 1).st = st) ∧
    (15 < ((queueState 1 .enabled 0 []).queue 1).sqSize ∧ ((queueState 1 .enabled 0 []).queue 1).sqSize ≤ 16) ∧
    (tabled = queueCfg ∧ tables.backed 0x40 = true ∧ tables.poisonedIn 0x40 64 = none ∧
      (tables.reg 0x4018).getLsbD 0 = true ∧ (tables.ctxEntry 1).1 ≠ none ∧ (tables.ctxEntry 2).1 = none) ∧
    queueEntryBad queueCfg 1 = false ∧ queueEntryBad 0 1 = true ∧ (run {}).backed 0 = true ∧
    (let x := (queueState 1 .enabled 1 []).queue 1
     x.sqHead ≠ x.sqTail ∧ x.cmds.length + x.owed.length + 3 ≤ x.freeSlots ∧ (queueState 1 .enabled 1 []).backed x.sqBase = true ∧
       (queueState 1 .enabled 1 []).poisonedIn x.sqBase 64 = none) ∧
    (command 1).invalid = false ∧ (command 0).invalid = true ∧ (command 0x44).invalid = false ∧ 0x40 ≤ (command 0x44).opc ∧
    ((run {}).down = false ∧ (run {}).asleep = false) := by
  decide +kernel

/-- The command that weighted service chooses, for commands of every opcode that names no quire, a LAUNCH that is not bound,
and none. -/
theorem wit_HostCommands :
    (run {}).arbitrate.1 = none ∧
    (queueState 1 .enabled 0 [command 1]).arbitrate.1 = some (1, command 1) ∧
    (queueState 1 .enabled 0 [command (2 + 2 ^ 64)]).arbitrate.1 = some (1, command (2 + 2 ^ 64)) ∧
    (queueState 1 .enabled 0 [command 3]).arbitrate.1 = some (1, command 3) ∧
    (∀ e ∈ [0x40 + 3 * 2 ^ 64 + 2 ^ 96, 0x41 + 3 * 2 ^ 64 + 2 ^ 96, 0x42 + 3 * 2 ^ 64 + 2 ^ 96, 0x43 + 3 * 2 ^ 64, 0x44 + 3 * 2 ^ 64],
      (queueState 0 .enabled 0 [command e]).arbitrate.1 = some (0, command e)) ∧
    ReachesQuire (run {}) .quire 0 0x28 ∧ ((run {}).q 0).runs = true ∧ ((inState .idle {}).q 0).runs = false ∧
    (let c : Cmd := { command (2 + 2 ^ 64) with started := true }
     let s : State := { (queueState 0 .enabled 0 [c]).setReg 0x030 0x80 with bound := (Vector.replicate 32 none).set 0 (some 0) }
     s.logicalOf 0 = some 0 ∧ s.launchOn 0 0 = some c ∧ (s.drain 0).storesOut 0 = false ∧ c.qmask = 1 ∧ c.ends = []) ∧
    (let s : State := { run { stall := .host 3 (.g 1 8 false) 4 0x100 2 } with hostReqs := [⟨3, 0, none⟩] }
     s.present = true ∧ s.hostReqs.find? (fun r => r.tag = 3) = some ⟨3, 0, none⟩ ∧ (s.q 0).runs = true ∧
       ∀ r ∈ s.hostReqs, r.tag ≠ 4) ∧
    (let s : State := { run {} with hostReqs := [⟨3, 0, some 8⟩] }
     s.hostReqs.find? (fun r => r.tag = 3) = some ⟨3, 0, some 8⟩) := by
  decide +kernel

theorem wit_RegisterWindow :
    (run {}).present = true ∧ (run {}).asleep = false ∧ ({ run {} with present := false } : State).present = false ∧
    Reaches (run {}) .quire 0x4008 ∧ Reaches (run {}) .host 0x10008 ∧ debugReaches 0x40000 = true ∧ debugReaches 0x100000 = false ∧
    -- a host held behind another write, asleep, behind a spine that is out, and before boot
    (let s : State := { run {} with hostHeld := [.read 3 0x4018 true] }
     s.present = true ∧ s.hostBlocked = true ∧ s.hostHeld.filter (fun c => !readOf 3 c) = []) ∧
    ((run {}).hostBlocked = false ∧ (run {}).spineOut = false ∧ (run {}).booted = false ∧ earlyReg 0x4018 = false ∧
      earlyReg 0x10008 = true) ∧
    (let s : State := ((run {}).setReg 0x20000 0x5000000).setReg 0x100 0x80000000
     s.spineOut = true ∧ spineWindow 0x100000 = true ∧ s.hostBlocked = false) ∧
    (let s : State := (run {}).setReg 0x10000 0x20000
     s.asleep = true ∧ sleepReg 0x4018 = false ∧ s.hostBlocked = false) ∧
    ((run {}).reg 0x10000).getLsbD 31 = false ∧ (0x4018 % 8 = 0 ∧ 0x401C % 8 ≠ 0) ∧ WinCanon (run {}) ∧
    (0x58100 ≤ 0x58108 ∧ 0x58108 < 0x58200) ∧
    ((16 : W64).toNat % 2 ^ 13 = 16 ∧ (4096 : W64).toNat % 2 ^ 13 = 4096 ∧ (4097 : W64).toNat % 2 ^ 13 = 4097 ∧
      (15 : W64).toNat % 2 ^ 13 = 15) := by
  refine ⟨?_, ?_, ?_, ?_, ?_, ?_, ?_, ?_, ?_, ?_, ?_⟩ <;> decide +kernel

/-! ## Links -/

/-- Port 0 in a state, not bonded out. -/
def portIn (x : Port) : State :=
  { State.reset with ports := (Vector.replicate 24 {}).set 0 x, straps := 0x80 }

theorem wit_LinkTraining :
    State.reset.linkEn 0 = false ∧ State.reset.bonded 0 = false ∧
    (portIn {}).linkEn 0 = true ∧ (portIn {}).linkPowered 0 = true ∧ (portIn {}).bonded 0 = true ∧
    (∀ st ∈ [(0 : BitVec 4), 1, 2, 3, 4, 5, 6, 7, 0xA], ((portIn { st := st, locked := 2, capAt := some 9 }).port 0).st = st) ∧
    ((portIn { st := 2, failed := 7 }).port 0).failed ||| 8#4 = 0xF ∧
    (let s := portIn { st := 3, locked := 0xF }
     WinCanon s ∧ (s.port 0).locked ≠ 0 ∧ (s.reg (lnk 0 0)).toNat / 2 ^ 6 % 4 = 3) ∧
    Reaches (portIn {}) .headband 0xD80008 ∧ Reaches (portIn {}) .quire 0xD80008 ∧ Source.quire ≠ Source.headband ∧
    ((portIn { st := 6, resends := 16 }).port 0).resends = 16 ∧ ((portIn { st := 6, resends := 15 }).port 0).resends = 15 ∧
    ((portIn { st := 7, holding := true }).port 0).holding = true ∧
    Reaches (portIn {}) .quire (lnk 0 0) ∧ (0xC1#32).toNat / 2 ^ 6 % 4 ≠ 0 ∧ (0x01#32).toNat / 2 ^ 6 % 4 = 0 ∧
    (let s := (portIn { st := 0xA }).setReg (lnk 0 0) 0xE9
     (s.reg (lnk 0 0)).getLsbD 3 = true ∧ (s.reg (lnk 0 0)).getLsbD 0 = true ∧ s.bonded 0 = true ∧ (s.port 0).st = 0xA) ∧
    -- versions that do not meet, a node number too wide, another node than the one expected, and a partner to agree with
    (let m : CapMsg := ⟨0, 0, 18, 0x100, 0x100, 0, 0, 5, 0, 4, 0, 0, 0⟩
     min m.vermax.toNat 0x100 = max m.vermin.toNat 0x100 ∧ 2 ^ 18 > m.node.toNat ∧ (portIn {}).nodeId < 2 ^ 18 ∧
     ((portIn {}).reg (lnk 0 0)).getLsbD 4 = false ∧ m.linkgen ≠ ((portIn {}).port 0).pgen ∧
     (let s := ((portIn { st := 4 }).setReg (lnk 0 0) 0xF1).setReg (lnk 0 8) 7
      (s.reg (lnk 0 0)).getLsbD 4 = true ∧ m.node.toNat ≠ (s.reg (lnk 0 8)).toNat % 2 ^ 18)) := by
  refine ⟨?_, ?_, ?_, ?_, ?_, ?_, ?_, ?_, ?_, ?_, ?_, ?_, ?_, ?_, ?_, ?_⟩ <;> decide +kernel

/-- A flit of a header and a payload, with its CRC. -/
def flit (n : Nat) : BitVec 2048 := BitVec.ofNat 2048 (n + (crc32 (leBytes 252 n)).toNat * 2 ^ 2016)

theorem wit_Flits :
    (∀ st ∈ [(4 : BitVec 4), 5, 6, 0xA], ((portIn { st := st }).port 0).st = st) ∧
    (∀ n ∈ [0, 1, 2, 3, 4, 0x101], flitOk (flit n) = true ∧ (flit n).toNat % 16 = n % 16) ∧ flitOk 0#2048 = false ∧
    ((portIn { st := 6 }).port 0).expSeq = 0 ∧ ((flit 1).toNat / 2 ^ 8 % 2 ^ 12 = 0 ∧ (flit 0x101).toNat / 2 ^ 8 % 2 ^ 12 = 1) ∧
    (let x : Port := { st := 6, replay := [⟨0, 0, false, 0, [], none, false, 0⟩], resends := 15 }
     x.txq = [] ∧ x.ackDue = false ∧ x.retSh = 0 ∧ (∀ v : Fin 8, x.ret[v] = 0) ∧ x.replay ≠ [] ∧ x.resends < 16 ∧
     ((x.replay.dropWhile (fun f => f.seq ≠ 0)) ≠ [] ∧ x.replay.dropWhile (fun f => f.seq ≠ 5) = []) ∧
     ((portIn x).port 0).replay ≠ [] ∧ ((portIn { x with resends := 16 }).port 0).resends = 16) := by
  decide +kernel

/-- A packet of a type and a stream position, from node 0. -/
def packet (dest : BitVec 18) (pkey : W16) (type : BitVec 6) (addr : BitVec 46) (data : List (BitVec 128)) : Packet :=
  ⟨dest, 0, pkey, type, 0, true, false, 0, addr, data⟩

/-- Node 0, whose context 0 carries key 7, with packets of its own and one stream that is ACTIVE. -/
def atNode (l : List Packet) (kind : Nat) : State :=
  let x := { (((copyStream 2).put 4 1 kind).put 0x64 4 2) with granted := 64 }
  { (run {}).setReg 0x200 0x20001 with mem := [(0x20000, 3), (0x20002, 7)], localQ := l, streams := [(0, x)] }

/-- What the packet at the front of this node's queue meets: it is taken, here, and admitted. -/
def arrives (k : Packet) (kind : Nat) (span : Option (Nat × Nat)) : Bool :=
  let s := atNode [k] kind
  match s.takePacket none k.ptype.toNat with
  | some (j, t) => decide (j = k) && t.admitted none k span && decide (k.dest.toNat = t.nodeId) && !t.safeHold
  | none => false

theorem wit_Packets :
    (atNode [] 0).takePacket none 1 = none ∧ (atNode [packet 0 7 1 0x100 []] 0).localQ = [packet 0 7 1 0x100 []] ∧
    (∀ e ∈ ((portIn {}).port 0).rx, e.pkt.ptype.toNat ≠ 1) ∧
    (let x : Port := { rx := [⟨0, packet 0 7 1 0x100 [], [false]⟩] }
     ((portIn x).port 0).rx = x.rx ∧ (x.rx.map (fun e => e.pkt.ptype.toNat)) = [1]) ∧
    PacketRow none (.mgmt none) 0x20 (fun _ => none) := by
  refine ⟨?_, ?_, ?_, ?_, by simp [PacketRow]⟩ <;> decide +kernel

/-- A packet of each type that is acted on, one refused, one for another node, and one in SAFE HOLD. -/
theorem wit_PacketEffects :
    arrives (packet 0 7 0x01 0x100 []) 0 (some (0x100, 16)) = true ∧ (atNode [] 0).accessStatus 0x100 16 true = 0 ∧
    (atNode [] 0).admitted none (packet 0 7 0x01 0x100 []) (some (0x100, 16)) = true ∧
    (atNode [] 0).admitted none (packet 0 7 0x01 0xEFFFFFFFFF0 []) (some (0xEFFFFFFFFF0, 32)) = false ∧
    (atNode [] 0).accessStatus 0x80000000000 16 true ≠ 0 ∧
    arrives (packet 0 7 0x02 0x100 [1, 2]) 0 (some (0x100, 32)) = true ∧
    arrives (packet 0 7 0x03 0x100 [0xFF, 2]) 0 (some (0x100, 16)) = true ∧ regionOf 0x100 = .folio ∧
    arrives (packet 0 7 0x04 0x100 [0]) 0 (some (0x100, 4)) = true ∧
    (∀ n ∈ [4, 8], (atNode [] 0).admitted none (packet 0 7 0x04 0x100 [0]) (some (0x100, n)) = true ∧
      (atNode [] 0).accessStatus 0x100 n true = 0 ∧ (atNode [] 0).accessStatus 0x80000000000 n true ≠ 0) ∧
    arrives (packet 0 0 0x20 0 []) 0 none = true ∧ (atNode [] 0).mgmt.length < 64 ∧
    (atNode [] 0).admitted none (packet 0 0 0x02 0x100 [1]) (some (0x100, 16)) = false ∧
    (atNode [] 0).admitted none (packet 1 7 0x02 0x100 [1]) (some (0x100, 16)) = true ∧
    ((atNode [] 0).setReg 0x100 0x80000000).safeHold = true := by
  decide +kernel

/-- STREAM packets whose stream takes them, and SNAK. -/
theorem wit_PacketEffects_streams :
    (let s := atNode [] 5
     arrives (packet 0 7 0x08 0 [1]) 5 none = true ∧ (s.stream 0).state = 2 ∧ (s.stream 0).kind = 5 ∧
     (s.ctxEntry 0).1 ≠ none ∧ pkeyOf (s.ctxEntry 0).1 = 7 ∧ (s.stream 0).u 0x60 4 = 0 ∧
     fullPos (s.stream 0).prog 0 + 16 ≤ (s.stream 0).granted ∧
     s.frames[(0 : Fin 4)].freeMover ≠ none ∧ (s.setFrame 0 fullFrame).frames[(0 : Fin 4)].freeMover = none) ∧
    arrives (packet 0 7 0x09 5 []) 4 none = true ∧ ((atNode [] 4).stream 0).kind = 4 ∧
    (let s := atNode [] 5
     arrives (packet 0 7 0x0B (2 ^ 31 + 2) []) 5 none = true ∧ s.snakNames (s.stream 0) 0 2 = true ∧
     s.snakNames (s.stream 0) 1 2 = false) := by
  decide +kernel

/-- COLL of rank 1 at rank 0, with the descriptor that the group agrees on. -/
theorem wit_PacketEffects_coll :
    let s := atNode [] 6
    let x := s.stream 0
    x.kind = 6 ∧ s.cgEntry x = some 0 ∧ 1 < x.size ∧ (s.cgMember 0 1).1 = 0 ∧ collFits x 1 0 = true ∧ collFits x 0 0 = false ∧
      arrives (packet 0 7 0x0A 0 [1, 9]) 6 none = true ∧
      ∃ d : BitVec 128, d.extractLsb' 64 64 = x.cgCrc ∧ d.toNat / 2 ^ 23 % 2 ^ 41 = 0 ∧ d.toNat % 2 ^ 18 = 1 := by
  refine ⟨?_, ?_, ?_, ?_, ?_, ?_, ?_, BitVec.ofNat 128 (1 + ((atNode [] 6).stream 0).cgCrc.toNat * 2 ^ 64), ?_⟩
  iterate 7 decide +kernel
  generalize ((atNode [] 6).stream 0).cgCrc = c
  have h : (BitVec.ofNat 128 (1 + c.toNat * 2 ^ 64)).toNat = 1 + c.toNat * 2 ^ 64 := by
    rw [BitVec.toNat_ofNat, Nat.mod_eq_of_lt]; omega
  refine ⟨?_, by rw [h]; omega, by rw [h]; omega⟩
  apply BitVec.eq_of_toNat_eq
  rw [BitVec.extractLsb'_toNat, h, Nat.shiftRight_eq_div_pow]
  omega

/-- The response to each kind of request. -/
theorem wit_PacketEffects_responses :
    ∀ w ∈ [Requester.held, .load 0, .store 0 8, .mover 0, .record 0],
      let s : State := { atNode [packet 0 7 0x10 0 []] 0 with tags := [⟨0, 0, 7, w⟩] }
      ∃ p ∈ s.takePacket none 0x10, p.2.admitted none p.1 none = true ∧ p.1.dest.toNat = p.2.nodeId ∧
        p.2.tags.find? (fun g => g.tag = p.1.tag && g.dest = p.1.src && g.pkey = p.1.pkey) = some ⟨0, 0, 7, w⟩ := by
  decide +kernel

theorem wit_TagsAndEpochs :
    (∀ t ∈ (run {}).tags, t.tag ≠ 3) ∧
    (let s : State := { run {} with tags := [⟨3, 0, 7, .mover 0⟩] }
     s.tags.find? (fun t => t.tag = 3) = some ⟨3, 0, 7, .mover 0⟩ ∧ s.opsOf 0 = []) ∧
    (let o : MoverOp := { mover := 0, stream := 0, engine := 0, bank := 0, mdesc := 0, pos := 0, len := 1, stalled := false,
                          tag := some 3 }
     let s : State := ({ run {} with tags := [⟨3, 0, 7, .mover 0⟩] } : State).setFrame 0 { ops := [o] }
     (s.opsOf 0).find? (fun o => o.tag = some 3) = some o) ∧
    ({ run {} with tags := [⟨3, 0, 7, .record 0⟩] } : State).tags.find? (fun t => t.tag = 3) = some ⟨3, 0, 7, .record 0⟩ ∧
    ({ run {} with tags := [⟨3, 0, 7, .held⟩] } : State).tags.find? (fun t => t.tag = 3 && t.who = .held) =
      some ⟨3, 0, 7, .held⟩ ∧
    Reaches (run {}) .quire 0xD80018 ∧ ((run {}).reg 0xD80018).getLsbD 31 = false ∧ WinCanon (run {}) ∧
    (((run {}).setReg 0xD80018 0x80000000).reg 0xD80018).getLsbD 31 = true ∧ (run {}).ordHold = false ∧
    (let s : State := { portIn { st := 6, txq := [⟨0, packet 0 7 1 0 [], true⟩] } with ordHold := true }
     (s.port 0).txq.any (·.old) = true) ∧
    (let s : State := { run {} with ordHold := true }
     s.ordHold = true ∧ ¬ ∃ p, (s.port p).txq.any (·.old) = true ∨ (s.port p).replay.any (·.old) = true) := by
  refine ⟨?_, ?_, ?_, ?_, ?_, ?_, ?_⟩ <;> decide +kernel

/-! ## Power and tiers -/

/-- Right after reset, with a register at a value. -/
def withReg (off : Nat) (v : W64) : State := State.reset.setReg off v

theorem wit_PerformancePoints :
    Reaches State.reset .headband 0x10008 ∧ pwrWriter .headband = true ∧ pwrWriter .quire = false ∧
    (State.reset.reg 0x10008).getLsbD 31 = false ∧ ((withReg 0x10008 0x80000230).reg 0x10008).getLsbD 31 = true ∧
    ((3#32).toNat % 4 = 3 ∧ (2#32).toNat % 4 ≠ 3) ∧
    State.reset.vreq = none ∧ ({ State.reset with vreq := some 1 } : State).vreq = some 1 ∧ State.reset.heldWrites = [] ∧
    WinCanon State.reset ∧
    -- the governor's loops
    (State.reset.devState ≠ 2 ∧ (withReg 0x10000 0x20000).devState = 2) ∧
    (State.reset.fld 0x10018 2 2 = 0 ∧ (withReg 0x10018 0x100000000004).fld 0x10018 2 2 = 1) ∧
    State.reset.fld 0x10010 9 0 = 950 ∧ State.reset.fld 0x10020 7 0 < State.reset.fld 0x10020 23 16 ∧
    (let lower (s : State) : Prop := s.basePoint + s.govSteps.countP (· = true) < 2
     let throttle (s : State) : Prop := s.govSteps.countP (· = false) < 6
     lower State.reset ∧ throttle State.reset ∧ State.reset.role = 0 ∧ (withReg 0x300 0x100).role = 1 ∧ throttle (withReg 0x300 0x100) ∧
     ¬ lower { State.reset with govSteps := [true, true] } ∧ throttle { State.reset with govSteps := [true, true] } ∧
     ¬ lower { State.reset with govSteps := [true, true, false, false, false, false, false, false] } ∧
     ¬ throttle { State.reset with govSteps := [true, true, false, false, false, false, false, false] }) ∧
    (100 * 902 < 95 * 950 ∧ 95 * 950 ≤ 100 * 903) ∧
    State.reset.droop = false ∧ ({ State.reset with droop := true } : State).droop = true ∧
    -- TRIP is 105
    State.reset.fld 0x10020 31 24 = 105 := by
  decide +kernel

theorem wit_PowerDomains :
    (∀ d : Fin 86, Reaches State.reset .headband (0x10100 + 8 * d.val)) ∧ WinCanon State.reset ∧
    (State.reset.reg 0x10100).getLsbD 31 = false ∧ ((withReg 0x10100 0x80000000).reg 0x10100).getLsbD 31 = true ∧
    (withReg 0x10000 0x10000).devState ≠ 0 ∧ State.reset.devState = 0 ∧
    (∀ d : Fin 86, State.reset.domState d.val = 0) ∧ (withReg (0x10100 + 8 * 34) 0x40000).domState 34 = 1 ∧
    (inState .idle {}).quireTaken 0 = false ∧ (run {}).quireTaken 0 = true ∧ State.reset.allocated 0 = false ∧
    (streamState 2).allocated 0 = true ∧ ((withReg 0x940000 0x80000000).reg 0x940000).getLsbD 31 = true ∧
    -- transitions of a press unit, of a quire to RETAINED and to OFF, and of a link group
    (∀ e ∈ [(34, 1), (0, 2), (0, 3), (73, 2)],
      let s : State := { State.reset with domMove := [e] }
      s.domMove.find? (fun x => x.1 = e.1) = some e ∧ e.2 ≠ s.domState e.1 ∧ s.heldWrites = [] ∧ s.domLost.getLsbD e.1 = false ∧
        (s.port 0).st ≠ 0) ∧
    State.reset.domMove = [] ∧
    (let s := withReg (0x10100 + 8 * 34) 0x100
     (s.reg (0x10210 + 8 * 0)).getLsbD 8 = true ∧ s.fld 0x10210 1 0 = 0 ∧ s.fld 0x10210 19 18 = 0 ∧
     (s.reg 0x10210).getLsbD 31 = false) := by
  decide +kernel

theorem wit_DeviceStates :
    Reaches State.reset .headband 0x10000 ∧ Reaches State.reset .headband 0x10060 ∧
    ((withReg 0x10000 0x80000000).reg 0x10000).getLsbD 31 = true ∧
    (∀ n ∈ [0, 1, 2], (withReg 0x10000 (BitVec.ofNat 64 (n * 2 ^ 16))).devState = n ∧
      ((withReg 0x10000 (BitVec.ofNat 64 (n * 2 ^ 16))).reg 0x10000).getLsbD 31 = false) ∧
    (∀ n : Fin 32, State.reset.bound[n] = none) ∧ (∀ q, State.reset.quireTaken q = false) ∧ (run {}).quireTaken 0 = true ∧
    (let s := withReg 0x10000 0x10000
     (∀ e ∈ s.queues, e.2.owedCount = 0) ∧ (∀ f, f < 4 → s.allocated f = false) ∧ s.svc = none ∧
     ∀ f : Fin 4, s.frames[f].patchBusy = false) ∧
    (streamState 2).allocated 0 = true ∧
    -- wakes by each cause, in SLEEP and on the way to it
    (∀ n ∈ [0, 1, 2, 3, 4], (State.reset.reg 0x10028).getLsbD n = true) ∧ (portIn {}).linkEn 0 = true ∧
    ({ State.reset with doorbells := [(0, 0, 0)] } : State).doorbells ≠ [] ∧
    ((withReg 0x10040 0x8000000000000000).reg 0x10040).getLsbD 63 = true ∧
    (let s := withReg 0x10020 0x695F6464
     s.fld 0x10020 15 8 ≤ s.fld 0x10020 7 0) ∧
    WinCanon State.reset ∧ State.reset.dbDrop = false ∧
    (State.reset.reg 0x10060).getLsbD 31 = false ∧ ((withReg 0x10060 0x80000000).reg 0x10060).getLsbD 31 = true := by
  refine ⟨?_, ?_, ?_, ?_, ?_, ?_, ?_, ?_, ?_⟩ <;> decide +kernel

theorem wit_TiersAndRoles :
    -- CXL x8 x8 x8 x8: link 0 is there; none is without straps
    ({ State.reset with straps := 0x40 } : State).straps.toNat / 16 % 8 = 4 ∧ State.reset.straps.toNat / 16 % 8 = 0 ∧
    ({ State.reset with straps := 0x50 } : State).straps.toNat / 16 % 8 = 5 ∧
    (withReg 0x900000 5).fld 0x900000 3 0 = 5 ∧ State.reset.fld 0x900000 3 0 = 0 ∧ WinCanon State.reset ∧
    (State.reset.reg 0x20).getLsbD 56 = false ∧ ((withReg 0x20 0x100000000000000).reg 0x20).getLsbD 56 = true ∧
    State.reset.domState 82 = 0 ∧ (withReg (0x10100 + 8 * 82) 0x80000).domState 82 = 2 ∧
    (∀ k : Fin 3, Reaches State.reset .headband (0x940000 + 8 * k.val)) ∧
    (State.reset.reg 0x940000).getLsbD 31 = false ∧
    (let s := withReg 0x940000 0x80000021
     (s.reg 0x940000).getLsbD 31 = true ∧ s.fld 0x940000 6 4 = 2 ∧ s.fld 0x940000 2 0 = 1) ∧
    -- two stacks of 16 GiB in two ways fit, one stack does not, and nor do two of different capacity
    (let fits (s : State) (w : Nat) : Prop :=
       let us := s.tierUnits .hbm
       us.length % waysOf w = 0 ∧ (waysOf w ≤ 1 ∨ ∀ u ∈ us, ∀ v ∈ us, u.2 = v.2) ∧
         us.foldl (fun n u => n + u.2) 0 ≤ tierSpan .hbm
     fits ((withReg 0x800000 0x4000003).setReg 0x810000 0x4000003) 2 ∧ ¬ fits (withReg 0x800000 0x4000003) 2 ∧
     ¬ fits ((withReg 0x800000 0x4000003).setReg 0x810000 0x2000003) 2) ∧
    State.reset.tierLast[(0 : Fin 3)] = (0, 0) ∧ State.reset.admits = [] ∧
    Reaches State.reset .headband 0x300 ∧ ((4#32).toNat % 8 ≤ 4 ∧ 4 < (5#32).toNat % 8) := by
  refine ⟨?_, ?_, ?_, ?_, ?_, ?_, ?_, ?_, ?_, ?_, ?_, ?_⟩ <;> decide +kernel

/-! ## Reliability, resets and rings -/

/-- A unit of every type, out of service with a test that passed. -/
def outState (type inst : Nat) : State :=
  { withReg 0x018 0 with
    folioFailed := 1, txbFailed := 1, portFailed := 1, tested := [(type * 256 + inst, true)],
    frames := (Vector.replicate 4 {}).set 3 { inService := false } }

theorem wit_UnitFailures :
    State.reset.present = true ∧ ({ State.reset with present := false } : State).present = false ∧
    (tipState.quireUp 0 = true ∧ tipState.tipin = none ∧ WinCanon tipState ∧ ((withReg 0x010 1).q 0).st ≠ .running ∧
      (withReg 0x010 1).quireUp 0 = true ∧ State.reset.quireUp 0 = false) ∧
    -- a quire that is HELD on logical quire 0, with quire 32 as a spare or without
    (let s := tipState.setQ 0 { st := .held }
     (s.q 0).st ≠ .running ∧ s.logicalOf 0 = some 0 ∧ s.freeSpare = some 32 ∧ WinCanon s ∧
       (s.setQ 32 {}).freeSpare = none ∧ (s.setQ 32 {}).logicalOf 0 = some 0) ∧
    ((withReg 0x018 1).reg 0x018).getLsbD 0 = true ∧ ((withReg 0x018 0).reg 0x018).getLsbD 0 = false ∧
    State.reset.frames[(0 : Fin 4)].inService = true ∧ (outState 3 3).frames[(3 : Fin 4)].inService = false ∧
    State.reset.frames[(0 : Fin 4)].movers.getLsbD 15 = true ∧ (({ movers := 0 } : Frame).movers).getLsbD 15 = false ∧
    (State.reset.folioFailed.getLsbD 63 = false ∧ (outState 4 0).folioFailed.getLsbD 0 = true) ∧
    (State.reset.txbFailed.getLsbD 31 = false ∧ (outState 5 0).txbFailed.getLsbD 0 = true) ∧
    (let r := tierStat .hbm 7
     (withReg r 0x4000003).fld r 3 0 ≠ 5 ∧ (withReg r 0x4000003).fld r 31 20 ≠ 0 ∧ (withReg r 0x4000005).fld r 3 0 = 5 ∧
       WinCanon (withReg r 0x4000003)) ∧
    (State.reset.portFailed.getLsbD 23 = false ∧ (outState 9 0).portFailed.getLsbD 0 = true) ∧
    (let s := withReg 0x20000 0x26
     s.fld 0x20000 (2 * 1 + 3) (2 * 1 + 2) ≠ 0 ∧ s.fld 0x20000 0 0 ≠ 1 ∧ WinCanon s ∧
       State.reset.fld 0x20000 5 4 = 0) := by
  decide +kernel

theorem wit_UnitService :
    Reaches State.reset .headband 0x20010 ∧ (State.reset.reg 0x20010).getLsbD 63 = false ∧
    ((withReg 0x20010 0x8000000000000000).reg 0x20010).getLsbD 63 = true ∧
    -- out of service and tested, of each type that has a case of its own
    (∀ e ∈ [(1, 0), (2, 0), (3, 3), (4, 0), (5, 0), (9, 0)], (outState e.1 e.2).outOfService e.1 e.2 = true ∧
      (e.1 * 256 + e.2, true) ∈ (outState e.1 e.2).tested ∧ WinCanon (outState e.1 e.2)) ∧
    (∀ e ∈ [(1, 0), (2, 0), (3, 0), (4, 0), (5, 0), (9, 0)],
      ((withReg 0x018 1).setReg 0x010 1).outOfService e.1 e.2 = false) ∧
    (∀ e ∈ (outState 3 3).streams, e.1 / 16384 = 3 → e.2.state = 0) ∧
    (withReg 0x010 1).physOf 0 = none ∧
    State.reset.svc = none ∧ ({ State.reset with svc := some (1, 0x600) } : State).svc = some (1, 0x600) ∧
    (0x600 / 256 = 6 ∧ 0x4FF / 256 ≠ 6 ∧ 0x4FF / 256 ≠ 7) := by
  decide +kernel

theorem wit_Headbands :
    (∀ n ∈ [0, 1, 2], (withReg 0x20000 (BitVec.ofNat 64 (n * 256 + 8))).fld 0x20000 11 8 = n ∧
      (withReg 0x20000 (BitVec.ofNat 64 (n * 256 + 8))).fld 0x20000 3 2 = 2 ∧
      WinCanon (withReg 0x20000 (BitVec.ofNat 64 (n * 256 + 8)))) ∧
    -- headband 1 waits for its restart
    (let s := withReg 0x20000 8
     s.fld 0x20000 5 4 = 0 ∧ s.fld 0x20000 3 2 = 2 ∧ s.fld 0x20000 0 0 ≠ 1 ∧ s.present = true ∧ s.safeHold = false) ∧
    (withReg 0x100 0x80000000).safeHold = true ∧ ¬ ((withReg 0x20000 0).fld 0x20000 3 2 = 2) ∧
    ((State.reset.port 0).st ≠ 0 ∧ ∀ p, (({ State.reset with ports := Vector.replicate 24 { st := 0 } } : State).port p).st = 0) := by
  decide +kernel

/-- A text-block channel in a state. -/
def txbState (x : Txb) : State := { State.reset with txb := (Vector.replicate 32 {}).set 0 x }

theorem wit_ScrubAndCalibration :
    (State.reset.domState 83 = 0 ∧ State.reset.txbFailed.getLsbD 31 = false ∧ State.reset.domState 79 = 0 ∧
      State.reset.domState 80 = 0 ∧ State.reset.domState 81 = 0) ∧
    (∀ n ∈ [0, 7], (withReg (tierStat .hbm n) 3).fld (tierStat .hbm n) 3 0 = 3) ∧
    (∀ n ∈ [0, 15], (withReg (tierStat .lpd n) 3).fld (tierStat .lpd n) 3 0 = 3) ∧
    State.reset.fld (tierStat .hbm 0) 3 0 ≠ 3 ∧ (2000#12).toNat ≤ 2000 ∧ 2000 < (2001#12).toNat ∧
    (sGet 0 State.reset.calAt 0x500).toNat + 1128000000 < 2 ^ 64 ∧ WinCanon State.reset ∧
    -- the scrubber of channel 31 and a channel whose scrubber is off
    (State.reset.reg (0xA00100 + 0x1000 * 31)).getLsbD 31 = true ∧ ((withReg 0xA00100 0).reg 0xA00100).getLsbD 31 = false ∧
    (State.reset.reg 0xA00100).getLsbD 30 = false ∧ ((withReg 0xA00100 0x40000000).reg 0xA00100).getLsbD 30 = true ∧
    ((17919#15).toNat < 17920 ∧ 17920 ≤ (17920#15).toNat) ∧
    ((txbState { row := 524287 }).txb[(0 : Fin 32)].row + 1 = 524288 ∧ (txbState {}).txb[(0 : Fin 32)].row % 1024 = 0 ∧
      (txbState { row := 5 }).txb[(0 : Fin 32)].row % 1024 ≠ 0) ∧
    (State.reset.fld 0x30028 15 8 = 4 ∧ sGet 0 (txbState {}).txb[(0 : Fin 32)].rowCe 0 + 1 < 4 ∧
      sGet 0 (txbState { rowCe := [(0, 3)] }).txb[(0 : Fin 32)].rowCe 0 + 1 = 4) ∧
    -- repairs at their first row and at their last, rows to spare with spares left and without
    (txbState {}).txb[(0 : Fin 32)].repairs = [] ∧ (txbState { repairs := [(0, 1, 2, 0)] }).txb[(0 : Fin 32)].repairs = [(0, 1, 2, 0)] ∧
    (txbState { repairs := [(0, 1, 2, 1023)] }).txb[(0 : Fin 32)].repairs = [(0, 1, 2, 1023)] ∧
    (txbState {}).txb[(0 : Fin 32)].spareDue = [] ∧
    (txbState { spareDue := [(32768, 7)], spares := [(1, 31)] }).txb[(0 : Fin 32)].spareDue = [(32768, 7)] ∧
    (sGet 0 [(1, 31)] (32768 / 32768) < 32 ∧ 32 ≤ sGet 0 [(1, 32)] (32768 / 32768)) := by
  decide +kernel

theorem wit_Resets :
    Reaches State.reset .debug 0x20008 ∧ Reaches State.reset .headband 0x20008 ∧ WinCanon State.reset ∧
    ((3#2) = 3 ∧ (0#2) ≠ 3) ∧
    -- the folio's domain ON, and RETAINED
    (∃ d, d < 86 ∧ d = 84 ∧ State.reset.domState d < 2) ∧
    (∀ d, d < 86 → d = 84 → 2 ≤ (withReg (0x10100 + 8 * 84) 0x80000).domState d) ∧
    State.reset.armed = false ∧ ({ State.reset with armed := true } : State).armed = true ∧
    (∀ w ∈ [Wir.bypass, .ijtag, .preload, .extest, .intest, .clamp, .safe], ({ State.reset with wir := w } : State).wir = w) := by
  decide +kernel

theorem wit_RingsAndCounters :
    Reaches State.reset .headband 0x40018 ∧ Reaches State.reset .headband 0x40010 ∧ Reaches State.reset .headband 0x58100 ∧
    Source.headband ≠ Source.debug ∧
    hasRing ((withReg 0x40000 0x100).fld 0x40000 15 0) = true ∧ hasRing ((withReg 0x40000 0).fld 0x40000 15 0) = false ∧
    (let e : RingEvt := ⟨0, 2, none, 0, 0⟩
     (State.reset.ring 0x100).waiting.length < 8 ∧
     8 ≤ ((State.reset.setRing 0x100 { waiting := [e, e, e, e, e, e, e, e] }).ring 0x100).waiting.length ∧
     ((State.reset.setRing 0x100 { waiting := [e] }).ring 0x100).waiting = [e] ∧
     (State.reset.ring 0x100).waiting = [] ∧ (State.reset.ring 0x100).freeze = false ∧ (State.reset.ring 0x100).frozen = false ∧
     ((State.reset.setRing 0x100 { waiting := [e], freeze := true }).ring 0x100).freeze = true) ∧
    State.reset.domState 85 = 0 ∧ (withReg (0x10100 + 8 * 85) 0x80000).domState 85 ≠ 0 ∧
    sOk (fun _ => ({} : Counters)) 0 (State.reset.setCnt 0x100 { count := Vector.replicate 16 1 }).counters = true := by
  refine ⟨?_, ?_, ?_, ?_, ?_, ?_, ?_⟩ <;> decide +kernel

/-! ## Well-formedness -/

/-- Each check refuses an ill-formed command, and admits one at the border of its range. -/
theorem test_well_formed_refuses :
    (Instr.illegal 0 0 0x4040).wf = false ∧ (Instr.unitFailed 1 34 none).wf = false ∧ (Instr.unitFailed 0 0 none).wf = false ∧
    (Instr.calibration 5 32 false 0).wf = false ∧ (Instr.calibration 5 31 false 2001).wf = false ∧
    (Instr.targetedRowRefresh 8 0).wf = false ∧ (Instr.scrubRowStep 0 [(0, 17920, 0)] []).wf = false ∧
    (Instr.unitFailed 1 33 none).wf = true ∧ (Instr.calibration 5 31 true 2000).wf = true ∧
    (Instr.targetedRowRefresh 7 15).wf = true ∧ (Instr.scrubRowStep 31 [(63, 17919, 1)] []).wf = true := by
  decide +kernel

/-! ## The words that the spec writes out -/

/-- 03_tehus_core.md: ADDO, and its word with the long bit; LI and LIH long, and LIH without the long bit; the two words that
are no instruction. -/
theorem test_decode_scalar :
    decodeTehus 3 0x60718501 0 = some (.addo 3 5 6 7) ∧ decodeTehus 3 0x60718581 0 = none ∧
    decodeTehus 3 0x00000989 0x12345678 = some (.li 3 9 (.long 0x12345678)) ∧
    decodeTehus 3 0x0000098A 0xF00 = some (.lih 3 9 0xF00) ∧ decodeTehus 3 0x0000090A 0 = none ∧
    decodeTehus 3 0 0 = none ∧ decodeTehus 3 0xFFFFFFFF 0 = none := by
  decide +kernel

/-- 04_long_vectors.md: VSETVL, VFMADD.VF short and long, and VLD. -/
theorem test_decode_vector :
    decodeTehus 3 0x00300949 0 = some (.vsetvl 3 9 0 3) ∧
    decodeTehus 3 0x4021CA41 0 = some (.vfmadd 3 false true 10 7 2 none) ∧
    decodeTehus 3 0x4021CAC1 0x20000000 = some (.vfmadd 3 false true 10 7 2 (some 1)) ∧
    decodeTehus 3 0x0C02844A 0 = some (.vld 3 false 0 false 3 4 10 0) := by
  decide +kernel

/-- 05_tile_registers.md. -/
theorem test_decode_tile :
    decodeTehus 3 0x00B28251 0 = some (.tld 3 2 10 11) ∧ decodeTehus 3 0x04028051 0 = some (.tldP 3 0 10) ∧
    decodeTehus 3 0x00D30050 0 = some (.tcfg 3 12 13) ∧ decodeTehus 3 0x0400C950 0 = some (.tdesc 3 9 3) := by
  decide +kernel

/-- 06_press.md. -/
theorem test_decode_press :
    decodeTehus 3 0x00100058 0 = some (.mma 3 false false false false false 0 1 0 0 0 none) ∧
    decodeTehus 3 0x80100058 0 = some (.mma 3 true false false false false 0 1 0 0 0 none) ∧
    decodeTehus 3 0x00300158 0 = some (.mma 3 false false false false false 0 3 0 0 1 none) ∧
    decodeTehus 3 0x003001D8 0x20000000 = some (.mma 3 false false false false false 0 3 0 0 1 (some 1)) ∧
    decodeTehus 3 0x04000159 0 = some (.accz 3 1 true) := by
  decide +kernel

/-- 07_plough.md and 08_slice_mode.md. -/
theorem test_decode_plough :
    decodeTehus 3 0x0001005C 0 = some (.plough 3 (.tile 4) 0 0 0 none) ∧
    decodeTehus 3 0x4000115C 0 = some (.plough 3 (.vec 0) 2 0 1 none) ∧
    decodeTehus 3 0x80B2805C 0 = some (.plough 3 (.mem 10 11) 0 0 0 none) ∧
    decodeTehus 3 0x0002005D 0 = some (.ploughN 3 (.tile 8) 0 0 0 none) ∧
    decodeTehus 3 0x000200DD 0 = some (.ploughN 3 (.tile 8) 0 0 0 (some 0)) ∧
    decodeTehus 3 0x01E0005E 0 = some (.slc 3 0 30) ∧ decodeTehus 3 0x01F0405E 0 = some (.slc 3 1 31) ∧
    decodeTehus 3 0x8410005E 0 = some (.mmaS 3 true 0 1 0 0) ∧ decodeTehus 3 0x0410005E 0 = some (.mmaS 3 false 0 1 0 0) ∧
    decodeTehus 3 0x0001005F 0 = some (.ploughS 3 (.tile 4) 0 0 none) ∧
    decodeTehus 3 0x4000005F 0 = some (.ploughS 3 (.vec 0) 0 0 none) ∧
    decodeTehus 3 0x80B2805F 0 = some (.ploughS 3 (.mem 10 11) 0 0 none) := by
  decide +kernel

/-! ## Worked examples of the spec -/

/-- 03_tehus_core.md, a checked add that overflows: the sum wraps, and NUMFLAGS reads 0x40. -/
theorem test_addo_overflow :
    let c : Quire := { g := ((Vector.replicate 64 0).set 6 0x7FFFFFFFFFFFFFF0#64).set 7 0x20#64 }
    (match exec (.addo 0 5 6 7) (run c) with
     | .next t => decide ((t.q 0).g[5] = 0x8000000000000010#64) && decide ((t.q 0).crGet 0x021 = 0x40)
     | _ => false) = true := by
  decide +kernel

/-- 02_number_formats.md, FP32 to FP8-V: 0.3, 500.0 and 520.0. -/
theorem test_fp8_conversion :
    let cv (md : RMode) (sat : Bool) (x : Nat) := toFloat fp8v ⟨md, false, 0, sat⟩ (fp32.read false x)
    cv .rne false 0x3E99999A = (0x2A, fINX) ∧ cv .rtz false 0x3E99999A = (0x29, fINX) ∧
    cv .rne false 0x43FA0000 = (0x80, fOVF ||| fINX) ∧ cv .rne true 0x43FA0000 = (0x7F, fOVF ||| fINX) ∧
    cv .rtz false 0x43FA0000 = (0x7F, fINX) ∧ cv .rtz false 0x44020000 = (0x7F, fOVF ||| fINX) := by
  decide +kernel

/-- 02_number_formats.md, an FP32 to BF16 conversion in SR, for a draw below and one above. -/
theorem test_stochastic_rounding :
    let cv (r16 : Nat) := toFloat bf16 ⟨.sr, false, r16, false⟩ (fp32.read false 0x3F80C000)
    cv 0x3A7C = (0x3F80, fINX) ∧ cv 0x9D11 = (0x3F81, fINX) ∧ cv 0x3FFF = (0x3F80, fINX) ∧ cv 0x4000 = (0x3F81, fINX) := by
  decide +kernel

/-- 02_number_formats.md, block-scaled FP4: 2.5, −0.15, 0.35 and 6.0, the middle two as FP32. -/
theorem test_fp4_conversion :
    let cv (x : Nat) := toFloat fp4 ⟨.rne, false, 0, false⟩ (fp32.read false x)
    cv 0x40200000 = (4, fINX) ∧ cv 0xBE19999A = (0, fUNF ||| fINX) ∧ cv 0x3EB33333 = (1, fINX) ∧ cv 0x40C00000 = (7, 0) := by
  decide +kernel

/-- 02_number_formats.md, the profile's effect on an FP32 product. -/
theorem test_profile_of_a_product :
    let mul (strict : Bool) := mulVals fp32 ⟨.rne, strict, 0, false⟩ (fp32.read strict 0x0D800000) (fp32.read strict 0x30800000)
    mul true = (0x00080000, 0) ∧ mul false = (0, fUNF ||| fINX) := by
  decide +kernel

/-- 06_press.md, one FP8-V group: 0x48E0_FFC0 with INX under RNE. -/
theorem test_press_group :
    let v (x : Nat) := fp8v.read false x
    let ps := [(0x7F, 0x7F), (0x09, 0x09), (0x31, 0x08), (0xB8, 0x38), (0x83, 0x7F)].map (fun p => (v p.1, v p.2))
    groupSum (ps ++ List.replicate 11 (v 0, v 0)) (some (-1)) (some 2) 26 .rne 0 = (0x48E0FFC0, fINX) := by
  decide +kernel

/-- 08_slice_mode.md, the slices of −0.1 under the bound 1.5. -/
theorem test_slices :
    let o := sliceElem 7 (fp64.read true 0x3FF8000000000000) (fp64.read true 0xBFB999999999999A)
    o.trunc = 1 ∧ o.fl = fINX ∧ (List.range 7).map (fun i => sliceByte 7 o.q (i + 1)) = [0xF9, 0x99, 0x99, 0x99, 0x99, 0x99, 0x9A] := by
  decide +kernel

end Sys2Proof.Tests
end

section
/-!
Proofs about the number formats (02_number_formats.md, R26 and R27).
-/
namespace Sys2Proof.Machine

/-! ## The fields of a code -/

/-- The code of a format with sign s, exponent field e and fraction field ff (R23). -/
def Fmt.code (f : Fmt) (s : Bool) (e ff : Nat) : Nat :=
  (if s then f.signBit else 0) + 2 ^ f.fbits * e + ff

/-- The sign and the exponent field are what stands above the fraction field. -/
theorem Fmt.code_eq_fraction_add (f : Fmt) (s : Bool) (e ff : Nat) :
    f.code s e ff = ff + 2 ^ f.fbits * (e + 2 ^ f.ebits * s.toNat) := by
  rw [Fmt.code, Fmt.signBit, Nat.pow_add]
  cases s with
  | false => simp only [Bool.false_eq_true, if_false, Bool.toNat_false]; ring
  | true => simp only [if_true, Bool.toNat_true]; ring

section
variable (f : Fmt) (s : Bool) {e ff : Nat} (he : e < 2 ^ f.ebits) (hff : ff < 2 ^ f.fbits)

include hff

theorem Fmt.code_fraction : f.code s e ff % 2 ^ f.fbits = ff := by
  rw [f.code_eq_fraction_add, Nat.add_mul_mod_self_left, Nat.mod_eq_of_lt hff]

theorem Fmt.code_div_fraction : f.code s e ff / 2 ^ f.fbits = e + 2 ^ f.ebits * s.toNat := by
  rw [f.code_eq_fraction_add, Nat.add_mul_div_left _ _ (Nat.two_pow_pos _), Nat.div_eq_of_lt hff, Nat.zero_add]

include he

theorem Fmt.code_exponent : f.code s e ff / 2 ^ f.fbits % 2 ^ f.ebits = e := by
  rw [f.code_div_fraction s hff, Nat.add_mul_mod_self_left, Nat.mod_eq_of_lt he]

theorem Fmt.code_sign : f.code s e ff / f.signBit % 2 = s.toNat := by
  have above : f.code s e ff / f.signBit = s.toNat := by
    rw [Fmt.signBit, Nat.add_comm f.ebits, Nat.pow_add, ← Nat.div_div_eq_div_mul, f.code_div_fraction s hff,
      Nat.add_mul_div_left _ _ (Nat.two_pow_pos _), Nat.div_eq_of_lt he, Nat.zero_add]
  rw [above, Nat.mod_eq_of_lt s.toNat_lt]

/-! ## Reading a code of a short format -/

/-- A format with no infinity and no subnormal of its own reads an exponent field of 0 as +0, or as its one NaN where
the fraction is 0 and the sign 1 (R26, R27). Either profile reads it so. -/
theorem Fmt.read_code_of_short (hieee : f.ieee = false) (hsub : f.sub = false) (strict : Bool) :
    f.read strict (f.code s e ff) =
      if e = 0 then (if ff = 0 ∧ s = true then .nan false false 0 else .fin false 0 0)
      else .fin s (2 ^ f.fbits + ff) ((e : Int) - f.bias - f.fbits) := by
  simp only [Fmt.read, Fmt.decode, f.code_sign s he hff, f.code_exponent s he hff, f.code_fraction s hff, hieee, hsub,
    Bool.toNat_eq_one, Bool.decide_eq_true, Bool.false_eq_true, if_false]
  by_cases hzero : ff = 0
  · simp only [hzero, true_and, if_true]
  · simp only [hzero, false_and, if_false]

end

/-! ## The two eight-bit formats -/

theorem fp8v_code (s : Bool) (e ff : Nat) : fp8v.code s e ff = (if s then 128 else 0) + 8 * e + ff := rfl

theorem fp8g_code (s : Bool) (e ff : Nat) : fp8g.code s e ff = (if s then 128 else 0) + 4 * e + ff := rfl

/-- Settles O1: both formats are short formats, whose codes `Fmt.read_code_of_short` reads. -/
theorem eightBitFormats : Obligations.EightBitFormats := by
  unfold Obligations.EightBitFormats
  intro strict s e f
  constructor
  · intro he hf
    rw [← fp8v_code]
    exact fp8v.read_code_of_short s he hf rfl rfl strict
  · intro he hf
    rw [← fp8g_code]
    exact fp8g.read_code_of_short s he hf rfl rfl strict

end Sys2Proof.Machine
end

section
/-!
Proofs about branches and jumps (03_tehus_core.md, R89).
-/
namespace Sys2Proof.Machine

/-! ## Retirement -/

/-- Writing a general register leaves the control registers as they are. -/
@[simp] theorem gw_crGet (c : Quire) (r : GReg) (x : W64) (n : Nat) : (c.gw r x).crGet n = c.crGet n := by
  unfold Quire.gw
  split <;> rfl

/-- Counting a quire's events leaves the quire with none of them. -/
theorem flushEvents_q (t : State) (q : QuireId) : (t.flushEvents q).q q = { t.q q with events := [] } := by
  simp [State.flushEvents, foldl_countEvent_q, State.modQ]

/-- What `State.retireAt` does before it looks at what is owed is the whole of `State.retiredAs`. -/
theorem countRetirement_eq_retiredAs (t : State) (q : QuireId) (next : W64) :
    ((t.flushEvents q).setQ q { ((t.flushEvents q).q q).crSet 0x006 (((t.flushEvents q).q q).crGet 0x006 + 1) with
      pc := next.setWidth 56 }).countEvent (unitCode 1 q.val) 0x0101 1 = t.retiredAs q (t.q q) next := by
  rw [flushEvents_q, State.flushEvents, foldl_countEvent_setQ, State.modQ, setQ_setQ, State.retiredAs, List.foldl_append]
  rfl

/-- R89: bits [63:56] of an address that does not fit 56 bits are not zero. -/
theorem bits_63_56_ne_zero {next : W64} (h : 2 ^ 56 ≤ next.toNat) : bits next 63 56 ≠ 0 := by
  have hlt := next.isLt
  unfold bits
  omega

/-- Retirement to an address that does not fit 56 bits, where no SINGLE_STEP is owed, raises INSTR_TRANSLATION there. -/
theorem finish_retire_away (t : State) (q : QuireId) (next : W64) (hfar : 2 ^ 56 ≤ next.toNat)
    (hstep : (t.q q).pl = 0 → (t.q q).singleStep = false) :
    Body.finish q (.retire t next) =
      (t.retiredAs q (t.q q) next).raiseAt q ⟨2, 1, next, syndOf 0 0x01000000#32, false⟩ next := by
  have howed : (((t.flushEvents q).q q).pl = 0 && ((t.flushEvents q).q q).singleStep) = false := by
    rw [flushEvents_q]
    exact Bool.and_eq_false_imp.mpr fun hpl => hstep (of_decide_eq_true hpl)
  rw [Body.finish, State.retire, howed, State.retireAt, countRetirement_eq_retiredAs]
  simp only [Bool.false_eq_true, if_false, if_pos (bits_63_56_ne_zero hfar)]
  rfl

/-- An instruction whose body, where `taken` holds, only changes its quire, and not its STATUS, jumps away there to a
target that does not fit 56 bits. -/
theorem jumpsAway_of_body {taken : Quire → Prop} {i : Instr} {q : QuireId} {len : Nat} {f : Quire → Quire}
    {target : Quire → W64} (body : State → Body) (hx : ∀ s, exec i s = s.tehus q len true body)
    (hb : ∀ t, taken (t.q q) → body t = .retire (t.modQ q f) (target (t.q q)))
    (hstatus : ∀ c, (f c).crGet 0 = c.crGet 0) : JumpsAway i q len taken f target := by
  intro s t hready htaken hfar hstep
  have hq : (t.modQ q f).q q = f (t.q q) := setQ_q _ _ _
  have hstep' : ((t.modQ q f).q q).pl = 0 → ((t.modQ q f).q q).singleStep = false := by
    rw [hq, Quire.pl, Quire.singleStep, Quire.status, hstatus]
    exact hstep
  rw [hx, tehus_of_ready hready, hb t htaken, finish_retire_away _ _ _ hfar hstep', hq]
  simp [State.modQ, State.retiredAs]

/-! ## Branches and jumps -/

/-- What `branch` answers where its condition is `cond`. -/
theorem branch_answers {i : Instr} {q : QuireId} {rs1 rs2 : GReg} {off : Imm} {test : W64 → W64 → Bool}
    {cond : W64 → W64 → Prop} (hx : ∀ s, exec i s = branch q rs1 rs2 off test s)
    (htest : ∀ a b, test a b = true ↔ cond a b) :
    Branches i q rs1 rs2 off cond ∧
      JumpsAway i q (immLen off) (fun c => cond (c.gr rs1) (c.gr rs2)) id (fun c => c.pc64 + 4 * immVal off) := by
  have hself (t : State) : t.modQ q id = t := setQ_self t q
  refine ⟨⟨retires_of_body _ hx ?taken, retires_of_body _ hx ?notTaken⟩, jumpsAway_of_body _ hx ?taken fun _ => rfl⟩
  case taken =>
    intro t hcond
    simp only [hself, if_pos ((htest _ _).mpr hcond)]
  case notTaken =>
    intro t hcond
    simp only [hself, if_neg (mt (htest _ _).mp hcond)]
    rfl

/-- What a jump answers that writes its link to `rd` and goes to `target`, read before the link is written. -/
theorem jump_answers {i : Instr} {q : QuireId} {len : Nat} {rd : GReg} {target : Quire → W64}
    (hx : ∀ s, exec i s = s.tehus q len true
      (fun t => .retire (t.modQ q (fun c => c.gw rd (c.past len))) (target (t.q q)))) :
    Retires i q len (fun c => c.gw rd (c.past len)) target ∧
      JumpsAway i q len (fun _ => True) (fun c => c.gw rd (c.past len)) target :=
  ⟨retires_of_body _ hx fun _ _ => rfl, jumpsAway_of_body _ hx (fun _ _ => rfl) fun c => gw_crGet c rd _ 0⟩

/-! The arms of the eight instructions, by what they share. -/

section
variable (q : QuireId) (rd rs1 rs2 : GReg) (off : Imm) (joff : JOff) (s : State)

theorem exec_beq : exec (.beq q rs1 rs2 off) s = branch q rs1 rs2 off (fun a b => a = b) s := rfl
theorem exec_bne : exec (.bne q rs1 rs2 off) s = branch q rs1 rs2 off (fun a b => a ≠ b) s := rfl
theorem exec_blt : exec (.blt q rs1 rs2 off) s = branch q rs1 rs2 off (fun a b => a.slt b) s := rfl
theorem exec_bge : exec (.bge q rs1 rs2 off) s = branch q rs1 rs2 off (fun a b => !a.slt b) s := rfl
theorem exec_bltu : exec (.bltu q rs1 rs2 off) s = branch q rs1 rs2 off (fun a b => a.ult b) s := rfl
theorem exec_bgeu : exec (.bgeu q rs1 rs2 off) s = branch q rs1 rs2 off (fun a b => !a.ult b) s := rfl

theorem exec_jal : exec (.jal q rd joff) s = s.tehus q (joffLen joff) true (fun t =>
    .retire (t.modQ q (fun c => c.gw rd (c.past (joffLen joff)))) ((t.q q).pc64 + 4 * joffVal joff)) := rfl

theorem exec_jalr : exec (.jalr q rd rs1 off) s = s.tehus q (immLen off) true (fun t =>
    .retire (t.modQ q (fun c => c.gw rd (c.past (immLen off)))) (((t.q q).gr rs1 + immVal off) &&& ~~~3#64)) := rfl

end

/-- Settles O5: the six branches by `branch_answers`, each with its own condition, JAL and JALR by `jump_answers`. -/
theorem branchesAndJumps : Obligations.BranchesAndJumps := by
  unfold Obligations.BranchesAndJumps
  intro q rd rs1 rs2 off joff
  have hbeq := branch_answers (exec_beq q rs1 rs2 off) (cond := fun a b => a = b) fun _ _ => decide_eq_true_iff
  have hbne := branch_answers (exec_bne q rs1 rs2 off) (cond := fun a b => a ≠ b) fun _ _ => decide_eq_true_iff
  have hblt := branch_answers (exec_blt q rs1 rs2 off) (cond := fun a b => a.toInt < b.toInt) fun _ _ => BitVec.slt_iff_toInt_lt
  have hbge := branch_answers (exec_bge q rs1 rs2 off) (cond := fun a b => b.toInt ≤ a.toInt) fun _ _ => by
    rw [← BitVec.sle_eq_not_slt, BitVec.sle_iff_toInt_le]
  have hbltu := branch_answers (exec_bltu q rs1 rs2 off) (cond := fun a b => a.toNat < b.toNat) fun _ _ => BitVec.ult_iff_toNat_lt
  have hbgeu := branch_answers (exec_bgeu q rs1 rs2 off) (cond := fun a b => b.toNat ≤ a.toNat) fun _ _ => by
    rw [← BitVec.ule_eq_not_ult, BitVec.ule_iff_toNat_le]
  have hjal := jump_answers (target := fun c => c.pc64 + 4 * joffVal joff) (exec_jal q rd joff)
  have hjalr := jump_answers (target := fun c => (c.gr rs1 + immVal off) &&& ~~~3#64) (exec_jalr q rd rs1 off)
  exact ⟨hbeq.1, hbne.1, hblt.1, hbge.1, hbltu.1, hbgeu.1, hjal.1, hjalr.1,
    hbeq.2, hbne.2, hblt.2, hbge.2, hbltu.2, hbgeu.2, hjal.2, hjalr.2⟩

end Sys2Proof.Machine
end
